-- ==== Sys2Proof/Word.lean ====
section
/-! DEFINITION. The word types and their plainest arithmetic: bytes, 32-bit words, and the finite map `Tab`
that holds every sparse bank of state. -/

namespace Sys2Proof

/-- One byte. -/
abbrev Byte := BitVec 8

/-- A register word, or the bits of a binary32 value. -/
abbrev Word := BitVec 32

/-- A sparse bank of state: keys strictly rising, one entry for each key that has been set. -/
abbrev Tab (α : Type) := List (Nat × α)

/-- The entry of key `k`, or `d` where none has been set. -/
def Tab.get {α : Type} (d : α) : Tab α → Nat → α
  | [], _ => d
  | (j, a) :: t, k => if k = j then a else if k < j then d else Tab.get d t k

/-- The entry of key `k`, if one has been set. -/
def Tab.find? {α : Type} : Tab α → Nat → Option α
  | [], _ => none
  | (j, a) :: t, k => if k = j then some a else if k < j then none else Tab.find? t k

/-- The bank with the entry of key `k` set to `a`. -/
def Tab.set {α : Type} (t : Tab α) (k : Nat) (a : α) : Tab α :=
  match t with
  | [] => [(k, a)]
  | (j, b) :: r => if k = j then (k, a) :: r else if k < j then (k, a) :: (j, b) :: r else (j, b) :: Tab.set r k a

/-- The bank without the entry of key `k`. -/
def Tab.erase {α : Type} (t : Tab α) (k : Nat) : Tab α := t.filter (fun e => e.1 != k)

/-- Change the entry of key `k`, starting from `d` where none has been set. -/
def Tab.modify {α : Type} (d : α) (t : Tab α) (k : Nat) (f : α → α) : Tab α := Tab.set t k (f (Tab.get d t k))

/-- Serial comparison of 32-bit indices and sequence numbers (R352): `a` is after `b`. -/
def serialAfter (a b : Word) : Bool := 1 ≤ (a - b).toNat && (a - b).toNat < 2 ^ 31

/-- Serial comparison of 16-bit credit (R408), over 2¹⁵: `a` lies before `b`. -/
def creditBefore (a b : BitVec 16) : Bool := 1 ≤ (b - a).toNat && (b - a).toNat < 2 ^ 15

/-- Round `x` up to a multiple of 64 (R69). -/
def align64 (x : Nat) : Nat := (x + 63) / 64 * 64

/-- Quotient rounded up. -/
def ceilDiv (a b : Nat) : Nat := (a + b - 1) / b

end Sys2Proof
end

