-- ==== Sys2Proof/Config.lean ====
section
/-! DEFINITION. What an implementation fixes: the three configurations of R2, and the values the spec leaves open,
each an opaque constant that nothing can evaluate. -/

namespace Sys2Proof

/-- The three configurations of R2. -/
inductive Variant
  | e8
  | e16
  | e24
  deriving DecidableEq, Repr

namespace Variant

/-- Compute dies (R2). -/
def computeDies : Variant → Nat
  | e8 => 1
  | e16 => 2
  | e24 => 3

/-- Memory-side dies, m (R2). -/
def msDies : Variant → Nat
  | e8 => 2
  | e16 => 4
  | e24 => 6

/-- HBM4 stacks (R2). -/
def stackCount (v : Variant) : Nat := 4 * v.msDies

/-- Pseudo-channels, P = 256m (R46). -/
def channels (v : Variant) : Nat := 256 * v.msDies

/-- Largest thatch replication factor (R2, R4). -/
def maxFactor : Variant → Nat
  | e8 => 2
  | e16 => 3
  | e24 => 6

/-- The share-of-clipped-values statistic is present (R5). -/
def clipShare : Variant → Bool
  | e24 => true
  | _ => false

/-- The configuration code of ID_CHIP.CONFIG and HELLO (R380, R536). -/
def code : Variant → Nat
  | e8 => 0
  | e16 => 1
  | e24 => 2

/-- Design power in watts, the highest power cap (R6, R507). -/
def designPower : Variant → Nat
  | e8 => 530
  | e16 => 900
  | e24 => 1300

/-- Lowest power cap in watts (R507). -/
def capFloor : Variant → Nat
  | e8 => 280
  | e16 => 450
  | e24 => 600

/-- Idle power in watts in A0 (R497). -/
def idlePower : Variant → Nat
  | e8 => 258
  | e16 => 366
  | e24 => 474

/-- Bytes of stack memory, P × 1 GiB (R46). -/
def stackBytes (v : Variant) : Nat := v.channels * 2 ^ 30

end Variant

namespace Config

/-- The fixed hash of R16 over table ID, local row, bag and position, which the spec does not give.
It chooses one of three rafter links (taken mod 3). Log 8. -/
opaque rafterHash : Nat → Nat → Nat → Nat → Nat

/-- The fixed hash of R108 that chooses a thatch replica, over the same four values. Log 8. -/
opaque replicaHash : Nat → Nat → Nat → Nat → Nat

/-- The class of rows modulo 128 in which a filter of the thatch can be positive outside its set, over the set's rows (R107). Log 125. -/
opaque filterClass : List Nat → Nat

/-- The spare lanes with which a stack's training can repair its interface, which its JEDEC standard gives (R253). Log 142. -/
opaque spareLanes : Nat

/-- The generation that the record of a BUF_SWAP carries, by its ring and seq: it has no stream slot (R369). Log 147. -/
opaque swapGeneration : Nat → BitVec 32 → BitVec 16

/-- Silicon stepping, from fuses (R536). Log 20. -/
opaque stepping : BitVec 8

/-- Ilunafel's IANA enterprise number, which the spec does not state (R536). Log 20. -/
opaque enterprise : BitVec 32

/-- Device serial number, from fuses (R536). Log 20. -/
opaque serial : BitVec 64

/-- A firmware image written to a bank verifies by R482, as a function of its bytes that are not erased, by offset. Log 15. -/
opaque imageVerifies : List (Nat × Byte) → Bool

/-- Build identifier of a firmware image, whose place in the image the spec does not give. Log 15. -/
opaque imageBuild : List (Nat × Byte) → BitVec 64

/-- Security version of a firmware image. Log 15. -/
opaque imageSecurity : List (Nat × Byte) → BitVec 8

/-- Ilunafel publishes the image of the second build as activatable from the first (R483). Log 15. -/
opaque activatable : BitVec 64 → BitVec 64 → Bool

/-- Reply bytes of an external protocol (SPDM, PLDM or MCTP) whose layout the spec takes from another standard:
protocol, request, and the plain number the reply reports. Log 18. -/
opaque protocolReply : Nat → Nat → Nat → List Byte

/-- A free value: what the n-th read of something the spec leaves open gives. Log 21. -/
opaque freeValue : Nat → BitVec 64

end Config

end Sys2Proof
end

