-- ==== Sys2Proof/Syntax.lean ====
section
/-! DEFINITION. The commands of the block, one constructor for each row of spec/opcode_table.json, and the
messages they carry. The table gives no operands; each constructor takes those its rule names. -/

namespace Sys2Proof

/-- A descriptor: the 64 bytes of a ring entry, followed by the bytes of any continuation entries (R302, R356). -/
abbrev Desc := List Byte

/-- The path an access takes (R534, R541). -/
inductive Path
  | host
  | nightwatch
  deriving DecidableEq, Repr

/-- The end-to-end header of a Starfield packet (R402). -/
structure PktHdr where
  src : Nat
  dst : Nat
  srcGen : BitVec 8
  dstGen : BitVec 8
  epoch : BitVec 16
  seq : Word
  ack : Word
  step : Nat
  credit : BitVec 16
  hops : BitVec 8
  unseq : Bool
  retransmit : Bool
  reissued : Bool
  deriving DecidableEq, Repr

/-- One position of an index batch (R405). `weight` is present with WEIGHTS. -/
structure IdxEntry where
  row : Nat
  bag : Nat
  pos : Nat
  weight : Option Word
  deriving DecidableEq, Repr

/-- An INDEX batch (R405). `kind` is 0 SUM, 1 MEAN, 2 WSUM, 3 ROWS. `lasts` are the bags whose final run in the
shard the batch holds. -/
structure IndexBody where
  table : Nat
  shard : Nat
  cmdId : Nat
  kind : Nat
  transport16 : Bool
  entries : List IdxEntry
  lasts : List Nat
  deriving DecidableEq, Repr

/-- One item of a RESULT packet (R405). -/
structure ResItem where
  bag : Nat
  poisoned : Bool
  saturated : Bool
  data : List Byte
  deriving DecidableEq, Repr

/-- A RESULT packet (R405). `form` is 0 Q8, 1 T16, 2 RAW. -/
structure ResultBody where
  table : Nat
  shard : Nat
  cmdId : Nat
  form : Nat
  items : List ResItem
  deriving DecidableEq, Repr

/-- A record entry: bytes 23:0 of R148, and the body from byte 24 that its kind selects (R405). `cmd` tells the entries of one command from
those of another of its source in the step: the command's first src_seq, which no packet carries. Log 35. -/
structure Entry where
  table : Nat
  kind : Nat
  round : Nat
  srcSeq : Nat
  row : Nat
  positions : Nat
  srcNode : Nat
  data : List Byte
  cmd : Option Nat := none
  deriving DecidableEq, Repr

/-- The key under which an entry counts once (R440). -/
structure EntryKey where
  src : Nat
  step : Nat
  round : Nat
  seq : Nat
  deriving DecidableEq, Repr

/-- A RECORD_ACK packet (R439). `took` are the src_seqs of the destination's entries that took effect there (rows admitted, moved or
replaced), which R439 lays out no field for. Log 32. -/
structure RecordAckBody where
  step : Nat
  round : Nat
  settled : Bool
  ranges : List (Nat × Nat)
  took : Option (List Nat) := none
  deriving DecidableEq, Repr

/-- A step fence (round 0) or a round fence (R139, R405). -/
structure FenceBody where
  lrScale : Word
  round : Nat
  last : Bool
  tables : List (Nat × Int)
  deriving DecidableEq, Repr

/-- A SKY_WRITE request (R332, R404). -/
structure SkyWriteBody where
  sky : Nat
  offset : Nat
  cmdId : Nat
  data : List Byte
  deriving DecidableEq, Repr

/-- A SKY_READ request (R332, R404). `transform` carries, for COMBINE (R245), D, and group_code +
4 × ret_format + 32 with TRANSPORT16. -/
structure SkyReadBody where
  sky : Nat
  offset : Nat
  length : Nat
  cmdId : Nat
  transform : Option (Nat × Nat)
  deriving DecidableEq, Repr

/-- A SKY_DATA reply. -/
structure SkyDataBody where
  cmdId : Nat
  offset : Nat
  data : List Byte
  deriving DecidableEq, Repr

/-- A Lodestar beacon (R421). -/
structure BeaconBody where
  node : Nat
  epoch : BitVec 16
  digest : BitVec 64
  pendEpoch : BitVec 16
  pendDigest : BitVec 64
  pendStep : Nat
  deriving DecidableEq, Repr

/-- A journal copy of a state-changing command (R432, R437): its step and first src_seq once it is accepted. -/
structure JournalBody where
  node : Nat
  ring : Nat
  seq : Word
  desc : Desc
  inputs : List Byte
  step : Nat
  first : Nat
  accepted : Bool
  done : Bool
  deriving DecidableEq, Repr

/-- One item of a FORWARD packet: an entry added, or an ATOMIC element (R270, R432). -/
inductive FwdItem
  | entry (step : Nat) (e : Entry)
  | replace (step : Nat) (e : Entry)
  | atomic (ring : Nat) (seq : Word) (op ty : Nat) (exp : Int) (addr : Nat) (x : List Byte)
  deriving DecidableEq, Repr

/-- A key a FORWARD_ACK names. -/
inductive FwdKey
  | entry (k : EntryKey)
  | atomic (ring : Nat) (seq : Word)
  deriving DecidableEq, Repr

/-- What a repair request asks for: R98 and R126 (row), R110 (replica), R174 (closeRow), R175 (staging). -/
inductive RepairKind
  | row
  | replica
  | closeRow
  | staging
  deriving DecidableEq, Repr

/-- A repair request. `version` is the row version the requester read (R126), or 256 where it read none. -/
structure RepairReq where
  kind : RepairKind
  table : Nat
  row : Nat
  step : Nat
  version : Nat
  deriving DecidableEq, Repr

/-- A staged row: exact sums of its elements (R162), how often its exponent was raised (R176), and whether a parity or residue error stands in
it, or its sums are known to be lost (R175). -/
structure StagedRow where
  table : Nat
  row : Nat
  round : Nat
  sums : List Int
  count : Nat
  marked : Bool
  spilled : Bool
  lift : Nat := 0
  bad : Bool := false
  lost : Bool := false
  deriving DecidableEq, Repr

/-- Where a data error is found (R175, R246, R253, R260). Log 141. -/
inductive Struck
  /-- Attempt 1, 2, … of a burst fails parity; `read` is the outstanding row read it belongs to, if it does. -/
  | burst (attempt : Nat) (read : Option Nat)
  /-- A lane of the stack's interface breaks: the next training has to repair it. -/
  | lane
  /-- The site has no stack that can be trained. -/
  | site
  /-- The check of a staged row finds a parity or residue error. -/
  | staged (table row : Nat)
  /-- A parity or residue error on the path of a token of the COMBINE of a ring and seq. -/
  | token (ring : Nat) (seq : Word) (token : Nat)
  deriving DecidableEq, Repr

/-- The answer to a repair request. -/
inductive RepairData
  | unavailable
  | slot (bytes : List Byte)
  | rowState (slot state : List Byte)
  | staged (r : StagedRow)
  deriving DecidableEq, Repr

/-- Pair states (R434). -/
inductive PairState
  | down
  | joining
  | paired
  | solo
  deriving DecidableEq, Repr

/-- A STATUS packet (R432): the state, the last close completed, and the notices it may carry. -/
structure StatusBody where
  state : PairState
  lastClosed : Option Nat
  standDown : Bool
  outOfService : Bool
  tableFailed : Option (Nat × Nat × Nat)
  ridgeReset : Bool
  deriving DecidableEq, Repr

/-- A JOIN (R451). `cleared`: the sender has cleared its job alone, and no configuration has become active there since (R524). -/
structure JoinBody where
  node : Nat
  config : Variant
  build : BitVec 64
  gen : BitVec 8
  lastClosed : Option Nat
  kept : Bool
  emptyConfig : Bool
  cleared : Bool
  deriving DecidableEq, Repr

/-- A row and its optimiser state as they travel in a resilver copy, by table and row index (R452). -/
structure CopyRow where
  table : Nat
  row : Nat
  slot : List Byte
  state : List Byte
  deriving DecidableEq, Repr

/-- A hot set (R106), with the number of closes since its last refresh (R116). -/
structure HotSet where
  rows : List Nat
  factors : List Nat
  interval : Nat
  since : Nat
  deriving DecidableEq, Repr

/-- One entry of the shard map (R418). -/
structure ShardEntry where
  table : Nat
  shard : Nat
  owner : Nat
  deriving DecidableEq, Repr

/-- A configuration: the consistency set of R417 and this engine's own routes. Items are kept as they were staged.
`fresh` are the tables it adds anew (R57, R60), `freshSlots` the scale slots whose descriptors it replaces (R211). -/
structure Conf where
  epoch : BitVec 16
  jobId : Nat
  members : List Nat
  plan : List Byte
  routes : Tab Nat
  shardMap : List ShardEntry
  tables : Tab (List Byte)
  codebooks : Tab (List Byte)
  profiles : Tab (List Byte)
  slots : Tab (List Byte)
  fresh : List Nat
  freshSlots : List Nat
  deriving DecidableEq, Repr

/-- A block of resilver copy: the command journal (order 2 of R453), with the configurations that acting on it needs, or rows
(order 4). Log 67. -/
inductive CopyBlock
  | journal (own custody : List JournalBody) (hostClosed : Option Nat) (full : Bool) (active : Conf)
    (pend : Option (Nat × Conf)) (recent : List (Nat × BitVec 16))
  | rows (rs : List CopyRow)
  deriving DecidableEq, Repr

/-- A fence received, `complete` once its LAST packet has arrived (R139, R176, R405). -/
structure FenceRec where
  src : Nat
  step : Nat
  round : Nat
  lr : Word
  tables : List (Nat × Int)
  complete : Bool
  deriving DecidableEq, Repr

/-- What cutover copies (order 5 of R453). Log 43. -/
structure CutoverBody where
  rows : List CopyRow
  staging : List StagedRow
  journal : List (Nat × Entry)
  seen : List EntryKey
  fences : List FenceRec
  hotSets : Tab HotSet
  exps : Tab Int
  lastClosed : Option Nat
  active : Conf
  pend : Option (Nat × Conf)
  prev : List (Nat × Conf)
  moves : List (Nat × Nat × Nat)
  recent : List (Nat × BitVec 16)
  storageStep : Nat
  making : List (Nat × Conf × Conf) := []
  deriving DecidableEq, Repr

/-- The payload of a packet, one constructor for each class of R404 and R432 (and each message of SKY_CTRL,
CONTROL and RESILVER). -/
inductive Body
  | index (b : IndexBody)
  | result (b : ResultBody)
  | record (es : List Entry)
  | recordAck (b : RecordAckBody)
  | fence (b : FenceBody)
  | restep (table round : Nat)
  | skyWrite (b : SkyWriteBody)
  | skyRead (b : SkyReadBody)
  | skyData (b : SkyDataBody)
  | skyWriteAck (cmdId : Nat)
  | faultPending (cmdId faultId : Nat)
  | skyResume (cmdId : Nat)
  | aborted (cmdId : Nat)
  | denied (cmdId reason : Nat)
  | sync
  | syncAck
  | stale
  | redirect
  | hold
  | epochReject (epoch : BitVec 16) (cls cmdId : Nat)
  | ack
  | beacon (b : BeaconBody)
  | journal (b : JournalBody)
  | journalAck (ring : Nat) (seq : Word)
  | forward (items : List FwdItem)
  | forwardAck (keys : List FwdKey)
  | repair (r : RepairReq)
  | repairReply (r : RepairReq) (d : RepairData)
  | status (b : StatusBody)
  | join (b : JoinBody)
  | copy (b : CopyBlock)
  | cutover (b : CutoverBody)
  | jobClear
  deriving DecidableEq, Repr

/-- A packet, and the routing slot that its last transmission used (R414). -/
structure Packet where
  hdr : PktHdr
  body : Body
  slot : Nat := 0
  deriving DecidableEq, Repr

/-- Kinds of part with a temperature (R502). -/
inductive Part
  | compute
  | memory
  | io
  | stack
  deriving DecidableEq, Repr

/-- A reset domain (R466): the die kind, the die's number within its kind, and the domain's number on the die. -/
structure Domain where
  die : Part
  index : Nat
  dom : Nat
  deriving DecidableEq, Repr

/-- The four references of R490. -/
inductive Ref
  | core
  | serdes
  | hostLink
  | alwaysOn
  deriving DecidableEq, Repr

/-- MCTP control commands the endpoint supports (R519). -/
inductive MctpCommand
  | setEndpointId (eid : BitVec 8)
  | getEndpointId
  | getEndpointUuid
  | getVersionSupport
  | getMessageTypeSupport
  | getVendorMessageSupport
  | unsupported (code : Nat)
  deriving DecidableEq, Repr

/-- SPDM requests (R520). -/
inductive SpdmRequest
  | getVersion
  | getCapabilities
  | negotiateAlgorithms
  | getDigests
  | getCertificate (slot offset length : Nat)
  | challenge (slot nonce : Nat)
  | getMeasurements (index : Nat)
  | unsupported (code : Nat)
  deriving DecidableEq, Repr

/-- PLDM requests (R521). -/
inductive PldmRequest
  | getTid
  | getPldmVersion
  | getPldmTypes
  | getPldmCommands
  | getPdrRepositoryInfo
  | getPdr (handle : Nat)
  | getSensorReading (sensor : Nat)
  | getStateSensorReadings (sensor : Nat)
  | unsupported (type code : Nat)
  deriving DecidableEq, Repr

/-- What a Nightwatch request's header carries beside its type (R379, R522): the tag, the request's reserved bits together as one
number (bits 7:1 of the flags and bytes 15:9, and the reserved bits of the body), and whether the length names another body than
the type's. -/
structure NwHead where
  tag : Nat
  reserved : Nat := 0
  badLength : Bool := false
  deriving DecidableEq, Repr

/-- The commands of the block, in the order of spec/opcode_table.json. Host commands take their submission
ring and their descriptor. -/
inductive Instr
  | nop (ring : Nat) (d : Desc)
  | stepOpen (ring : Nat) (d : Desc)
  | stepClose (ring : Nat) (d : Desc)
  | fence (ring : Nat) (d : Desc)
  | lookupPool (ring : Nat) (d : Desc)
  | lookupRows (ring : Nat) (d : Desc)
  | updateGrad (ring : Nat) (d : Desc)
  | rowWrite (ring : Nat) (d : Desc)
  | hotSetLoad (ring : Nat) (d : Desc)
  | thatchRefresh (ring : Nat) (d : Desc)
  | migrateRows (ring : Nat) (d : Desc)
  | tableReplace (ring : Nat) (d : Desc)
  | tableRemap (ring : Nat) (d : Desc)
  | streamArm (ring : Nat) (d : Desc)
  | streamResume (ring : Nat) (d : Desc)
  | streamCancel (ring : Nat) (d : Desc)
  | bufSwap (ring : Nat) (d : Desc)
  | shingleWrite (ring : Nat) (d : Desc)
  | shingleRead (ring : Nat) (d : Desc)
  | atomic (ring : Nat) (d : Desc)
  | interact (ring : Nat) (d : Desc)
  | topk (ring : Nat) (d : Desc)
  | dispatch (ring : Nat) (d : Desc)
  | combine (ring : Nat) (d : Desc)
  | configStage (ring : Nat) (d : Desc)
  | configDiscard (ring : Nat) (d : Desc)
  | configActivate (ring : Nat) (d : Desc)
  | acceptCommand (ring : Nat)
  | journalDone (ring : Nat)
  | submissionDoorbell (ring : Nat) (value : Word)
  | completionDoorbell (ring : Nat) (value : Word)
  | eventDoorbell (value : Word)
  | heartbeat
  | mailboxDoorbell
  | hello (tag : Nat)
  | attach (tag heartbeatMs : Nat)
  | detachDrain (tag drainMs : Nat)
  | detachAbandon (tag : Nat)
  | drainComplete
  | drainTimeout
  | heartbeatTimeout
  | hostLinkModuleFail (modules : Nat)
  | hostWriteAck (k : Nat)
  | hostReadData (addr : Nat) (data : List Byte)
  | commandComplete (ring : Nat) (seq : Word)
  | irqModerationTimeout (ring : Nat)
  | hlRingCfgWrite (value : Word)
  | hlIrqCtrlWrite (value : Word)
  | registerWrite (offset : Nat) (value : Word)
  | counterReadLo (path : Path) (offset : Nat)
  | counterClear (path : Path) (offset : Nat)
  | index (h : PktHdr) (b : IndexBody)
  | gatherReadComplete (k : Nat) (bad residue : Bool)
  | result (h : PktHdr) (b : ResultBody)
  | record (h : PktHdr) (es : List Entry)
  | recordAck (h : PktHdr) (b : RecordAckBody)
  | fencePacket (h : PktHdr) (b : FenceBody)
  | stepCloseBegin
  | restep (h : PktHdr) (table round : Nat)
  | drainEpochAdvance
  | skyWrite (h : PktHdr) (b : SkyWriteBody)
  | skyRead (h : PktHdr) (b : SkyReadBody)
  | skyData (h : PktHdr) (b : SkyDataBody)
  | skyWriteAck (h : PktHdr) (cmdId : Nat)
  | faultPending (h : PktHdr) (cmdId faultId : Nat)
  | skyResume (h : PktHdr) (cmdId : Nat)
  | aborted (h : PktHdr) (cmdId : Nat)
  | denied (h : PktHdr) (cmdId reason : Nat)
  | sync (h : PktHdr)
  | syncAck (h : PktHdr)
  | stale (h : PktHdr)
  | redirect (h : PktHdr)
  | hold (h : PktHdr)
  | epochReject (h : PktHdr) (epoch : BitVec 16) (cls cmdId : Nat)
  | ack (h : PktHdr)
  | beacon (h : PktHdr) (b : BeaconBody)
  | ethernetFrameRx (link : Nat) (frame : List Byte)
  | linkFrameRx (link : Nat) (frame : List Byte)
  | linkNak (link linkSeq : Nat)
  | retransmitTimeout (peer : Nat)
  | ackDelayTimeout (peer : Nat)
  | replyTimeout (req : Nat)
  | holdTimer (peer step : Nat)
  | beaconTimer
  | linkChange (link : Nat) (up : Bool)
  | fbPortCfgWrite (value : Word)
  | journal (b : JournalBody)
  | journalAck (ring : Nat) (seq : Word)
  | forward (items : List FwdItem)
  | forwardAck (keys : List FwdKey)
  | repair (r : RepairReq)
  | repairReply (r : RepairReq) (d : RepairData)
  | status (b : StatusBody)
  | ridgeHeartbeatTimer
  | ridgeLinkSilence
  | ridgeAliveLost
  | verdictWaitTimeout
  | ridgeAliveRelease
  | join (b : JoinBody)
  | resilverCopy (b : CopyBlock)
  | resilverPassDone
  | cutover (b : Option CutoverBody)
  | standDown
  | streamRunStart (slot : Nat)
  | streamRequestDone (slot k : Nat)
  | queueReset (queue : Nat)
  | handlePush (value : Word)
  | handlePop
  | stQCfgWrite (value : Word)
  | walkProbeDone (k : Nat)
  | mtInvalCmd (value : Word)
  | invalidationDone
  | mtTableCtrlWrite (value : Word)
  | faultRetry (id : Nat) (gen : BitVec 8)
  | faultAbort (id : Nat) (gen : BitVec 8)
  | skyFaultLimit (id : Nat)
  | senderFaultWaitLimit (cmdId : Nat)
  | dormerRead (x size : Nat)
  | dormerWrite (x : Nat) (data : List Byte)
  | tileClose (ring : Nat) (seq : Word) (bad : Nat)
  | shadowDrainDone (die slot : Nat)
  | stackTempSample (temps : List Nat)
  | burstParityError (stack channel : Nat) (write : Bool) (struck : Struck)
  | thermalSample (kind : Part) (temps : List Nat)
  | cautionStepTimer
  | currentClamp (kind : Part) (die : Nat)
  | currentClampRelease (kind : Part) (die : Nat)
  | powerCapTick (watts fraction : Nat)
  | duskIdleTimeout (die : Nat)
  | duskWake (die : Nat)
  | refClockLost (r : Ref)
  | refClockReturn (r : Ref)
  | resetNAssert
  | pwrGoodFall
  | coldReset
  | coreWatchdogExpiry (core : Nat)
  | coreProtectionFault (core : Nat)
  | coreRestart (core : Nat) (runs : Bool)
  | controlParity (d : Domain)
  | hang (d : Domain)
  | quarantineEnd (d : Domain)
  | engineReset
  | warmReset
  | ladderTimeout
  | activationHoldoffExpiry
  | nwHello (tag : NwHead)
  | regRead (tag : NwHead) (offset count : Nat)
  | regWrite (tag : NwHead) (offset : Nat) (value : Word)
  | jobCounters (tag : NwHead)
  | countersClear (tag : NwHead) (scope : Nat)
  | eventRead (tag : NwHead) (count : Nat)
  | lodestar (tag : NwHead)
  | nwStatus (tag : NwHead)
  | setPowerCap (tag : NwHead) (watts window : Nat)
  | setPowerStateA2 (tag : NwHead) (force : Bool)
  | setPowerStateA3 (tag : NwHead) (force : Bool)
  | setPowerStateA0 (tag : NwHead)
  | nwReset (tag : NwHead) (rung : Nat)
  | stackFail (tag : NwHead) (stack : Nat)
  | returnToService (tag : NwHead)
  | debugMode (tag : NwHead) (on : Bool)
  | jobClear (tag : NwHead) (partnerAgrees : Bool)
  | flashWrite (tag : NwHead) (region offset : Nat) (data : List Byte)
  | flashRead (tag : NwHead) (region offset length : Nat)
  | imageVerify (tag : NwHead) (bank : Nat)
  | activate (tag : NwHead)
  | commit (tag : NwHead)
  | oosRecord (tag : NwHead)
  | mctpControlMessage (c : MctpCommand)
  | spdmRequest (r : SpdmRequest)
  | pldmRequest (r : PldmRequest)
  | dynamicAddressAssignment (addr : BitVec 7)
  | catastrophicTemperature (stack : Nat)
  | refreshManagementRequest (stack : Nat)
  | powerOn
  | hostLinkReset
  | recordResend (peer : Nat)
  | verdictDeferralExpiry
  deriving DecidableEq, Repr

end Sys2Proof
end

