-- ==== Sys2Proof/Decode.lean ====
section
/-! DEFINITION. The command that a word of the table's bits spells. spec/opcode_table.json gives its rows no bits:
no word spells a command. -/

namespace Sys2Proof

/-- The command a word spells. No row of the table gives bits. -/
def decodeTableWord (nbits w : Nat) : Option Instr :=
  match nbits, w with
  | _, _ => none

end Sys2Proof
end

