-- ==== Sys2Proof/Machine/State.lean ====
section
/-! DEFINITION. The state of one engine, as plain data: every register, buffer, queue, journal and mode the spec
names, the host memory its link reaches, and the queue of waiting commands. State.reset is the state a cold reset
leaves before firmware boots. -/

namespace Sys2Proof.Machine

/-- Why the block stops. Each constructor names behaviour the spec calls undefined, with no effect among its choices. -/
inductive Fault
  /-- A register access that is not an aligned 4-byte access (R346: "Other register accesses are undefined").
  Raised by the register rows. Safe: the run stops where the engine makes no promise. -/
  | registerAccessUndefined
  /-- A dormer-window access that is not naturally aligned of 1 to 64 bytes (R338: "Other accesses are undefined").
  Raised by DORMER_READ and DORMER_WRITE. Safe. -/
  | windowAccessUndefined
  /-- A write by host software to slots or Almanac entries of an indirect table (R58: "Doing so is undefined").
  Raised by DORMER_WRITE. Safe. -/
  | indirectSlotWriteUndefined
  deriving DecidableEq, Repr

/-- Commands refused. -/
inductive Refusal
  /-- The command has no meaning in this model yet. Raised by an arm of exec that is not written; safe. -/
  | notModelled (mnemonic : String)
  deriving DecidableEq, Repr

/-- A 64-bit counter slot with its saturation mark and the two latches of R541. -/
structure Counter where
  value : Nat := 0
  sat : Bool := false
  latchHost : Word := 0
  latchNw : Word := 0
  deriving DecidableEq, Repr

/-- A completion record before it is written (R369). -/
structure Rec where
  status : Nat := 0
  detail : Nat := 0
  count : Nat := 0
  errTable : Nat := 0xFFFF
  errRow : Nat := 0xFFFFFFFFFF
  partner : Bool := false
  data : List (List Byte) := []
  deriving DecidableEq, Repr

/-- What one shard returns for one bag: a result's FP32 elements, or a slot. `unavail` where no member of the owning
pair could be reached (R85). `errRow` is the position in the bag and the global row of the lowest-position failing row, where it
is known (R100). -/
structure PartData where
  poisoned : Bool
  unavail : Bool
  saturated : Bool
  errRow : Option (Nat × Nat)
  vals : List Word
  slot : List Byte
  deriving DecidableEq, Repr

/-- One bag and shard of a look-up at the requester: its positions there, the owning pair, and its lowest position
with its global row. -/
structure PartItem where
  shard : Nat
  n : Nat
  pair : Nat
  firstPos : Nat
  firstRow : Nat
  data : Option PartData
  deriving DecidableEq, Repr

/-- One bag of a look-up at the requester: its positions, and its part in each shard, ascending. -/
structure BagItem where
  bag : Nat
  total : Nat
  skipped : Bool
  parts : List PartItem
  deriving DecidableEq, Repr

/-- A tile of an INTERACT in progress. -/
structure Tile where
  n : Nat
  sample : Nat
  u : Nat
  v : Nat
  deriving DecidableEq, Repr

/-- A quantised operand vector as INTERACT holds it (R203): scale2, and each group's code, zero point and sum, the
elements, and whether its scale slot refused it. -/
structure OpVec where
  scale2 : Nat
  codes : List Nat
  zeros : List Int
  sums : List Int
  elems : List Int
  refused : Bool
  deriving DecidableEq, Repr

/-- An INTERACT in progress: its tiles to come, the vectors of the samples begun, the status bits of the samples so far,
the split-operand slots it holds, its alignment granule, the vectors already paired of a sample whose pairing was stopped (R307), and whether
the next tile waits for its slot to drain (R225). -/
structure IxWork where
  tiles : List Tile
  vecs : List (Nat × List OpVec × List OpVec)
  status : Tab Nat
  slots : List Nat
  align : Nat
  halted : Bool
  paired : List OpVec × List OpVec := ([], [])
  stalled : Bool := false
  deriving DecidableEq, Repr

/-- A choice of a DISPATCH, as its entry of the dispatch map reports it (R240). -/
structure Choice where
  expert : Nat
  status : Nat
  slot : Nat
  weight : Word
  deriving DecidableEq, Repr

/-- Where a piece of a stream request or a skylight region lies, once translated: host or stack memory, buffer memory, or a
skylight of another engine. -/
inductive Place
  | host (a : Nat)
  | stack (a : Nat)
  | buf (a : Nat)
  | remote (node sky offset : Nat)
  deriving DecidableEq, Repr

/-- A piece of a stream request or of a region. -/
structure StPiece where
  place : Place
  len : Nat
  deriving DecidableEq, Repr

/-- An expert's region of a DISPATCH (R239): its node, the place of its header, the choices kept, whether its header is
written, and whether its node could not be reached (R243). -/
structure Region where
  expert : Nat
  node : Nat
  sky : Nat
  offset : Nat
  kept : Nat
  head : List StPiece
  headed : Bool
  lost : Bool
  deriving DecidableEq, Repr

/-- A term of a COMBINE (R245): its token, weight and expert, the node of the output, the output's bytes as they were read
or sent, and whether the node could not be reached. -/
structure Term where
  token : Nat
  weight : Word
  expert : Nat
  node : Nat
  data : Option (List Byte)
  lost : Bool
  deriving DecidableEq, Repr

/-- What an accepted command still waits for. `parked` waits for a translation or a step, `blocked` for another command. -/
inductive Work
  | none
  | parked
  | blocked
  | fence (snap : List Nat)
  | stepClose (step : Nat)
  | atClose (step : Nat) (pairs : List Nat) (rows : Nat)
  | records (step n : Nat)
  | replace (step : Nat) (rows : Nat) (failed : Bool)
  | lookup (align : Nat) (bags : List BagItem)
  | atomic (n : Nat)
  | stream (slot : Nat)
  | swap (buf : Nat)
  | shingle (got : List (Nat × List Byte))
  | interact (w : IxWork)
  | dispatch (regions : List Region) (choices : List Choice)
  | combine (terms : List Term) (live : List Bool)
  deriving DecidableEq, Repr

/-- An accepted command whose completion is not yet published (R360, R473): its latched descriptor, its step by
R21, what it waits for, its record once it is done, and the ring and entry the record was written to. `skyHalt` are the peers that
report a pending skylight fault (R334). `poison` is set on a
look-up that a reset stopped after its step's STEP_CLOSE. `align` is PL_CONFIG.OUT_ALIGN as it stood at acceptance (R102), `tokenErrs` the
tokens of a COMBINE on whose paths an error was detected, once for each error (R246). `retry` is set while it waits for other commands' blocks (R207) or for
acknowledgements of its outputs (R239). `doneNo` orders the commands that are done (R370). -/
structure RunCmd where
  id : Nat
  ring : Nat
  seq : Word
  desc : Desc
  step : Nat
  carried : Bool
  partner : Bool
  work : Work
  done : Option Rec
  recIdx : Option (Nat × Word)
  skyHalt : List Nat := []
  poison : Bool := false
  align : Nat := 0
  tokenErrs : List Nat := []
  retry : Bool := false
  doneNo : Nat := 0
  deriving DecidableEq, Repr

/-- The command at the head of a ring, once it is read: its descriptor, latched with its continuation entries (R356), whether its
journaling has begun and which copies exist (R361), the bytes it waits for in the retention journal (R151), and whether it is counted as a
run that a FENCE holds (R288). -/
structure Head where
  desc : Desc
  begun : Bool := false
  own : Bool := false
  other : Bool := false
  need : Nat := 0
  fenced : Bool := false
  deriving DecidableEq, Repr

/-- Turns among contexts and rings (R368): the accesses left to each context in its round, and the rings served in theirs. -/
structure Sched where
  credit : Tab Nat := []
  served : List Nat := []
  deriving DecidableEq, Repr

/-- One ring: 0 to 63 submission, 64 to 127 completion, 128 event (R351, R392). `prod` is the published producer
index of a ring the engine writes, `wr` the entry it writes next, `irqIdx` entries whose acknowledged records ask for an
interrupt once they are published. -/
structure Ring where
  base : Nat := 0
  enable : Bool := false
  sizeLog2 : Nat := 6
  vector : Nat := 0
  cq : Nat := 0
  priority : Nat := 0
  context : Nat := 0
  modTime : Nat := 0
  modCount : Nat := 1
  error : Bool := false
  draining : Bool := false
  prod : Word := 0
  wr : Word := 0
  cons : Word := 0
  lastSeq : Word := 0xFFFFFFFF
  head : Option Head := none
  unsignalled : Nat := 0
  irqIdx : List Word := []
  deriving DecidableEq, Repr

/-- A scheduling context (R393). -/
structure Ctx where
  stop : Bool := false
  weight : Nat := 1
  deriving DecidableEq, Repr

/-- An interrupt vector (R393). -/
structure Irq where
  addr : Nat := 0
  data : Word := 0
  pending : Bool := false
  mask : Bool := true
  deriving DecidableEq, Repr

/-- Attach states (R382). -/
inductive AttachState
  | detached
  | attached
  | detaching
  deriving DecidableEq, Repr

/-- What an engine write to host memory reports, while the host has not acknowledged it (R348). -/
inductive WriteRef
  | output (cmd : Nat)
  | record (ring : Nat) (idx : Word) (irq : Bool)
  | status (ring : Nat) (records : Nat) (irq : Bool)
  | irq
  | sky (h : PktHdr) (cmdId : Nat)
  deriving DecidableEq, Repr

/-- The host link (`mbHeld`: a mailbox request waits for the boot-and-health core; `turns`: whose turn acceptance is): rings, commands, attachment, mailbox, events waiting to be written. -/
structure HostLink where
  attach : AttachState := .detached
  cause : Nat := 0
  helloSeen : Bool := false
  heartbeatMs : Nat := 0
  lastBeat : Nat := 0
  drain : Option (Nat × Nat) := none
  mbVector : Nat := 0
  modules : Nat := 8
  statusBase : Nat := 0
  rings : Tab Ring := []
  ctxs : Tab Ctx := []
  irqs : Tab Irq := []
  cmds : List RunCmd := []
  nextId : Nat := 0
  turns : Sched := {}
  unacked : List WriteRef := []
  evHeld : List (List Byte) := []
  evLost : Nat := 0
  mbHeld : Bool := false
  mailbox : List Host.Cell := []
  readData : List Byte := []
  deriving DecidableEq, Repr

/-- A range Meridian caches: a whole valid entry tagged with its table (R321). -/
structure Range where
  table : Nat
  start : Nat
  length : Nat
  target : Nat
  flags : Nat
  deriving DecidableEq, Repr

/-- What one side of a stream slot holds (R322): the range of its last translation, and up to four further ones that were walked ahead. -/
structure Held where
  last : Option Range := none
  ahead : List Range := []
  deriving DecidableEq, Repr

/-- Who waits on a walk or a fault (R329). -/
inductive Waiter
  | cmd (id : Nat)
  | head (ring : Nat)
  | stream (slot : Nat)
  | remote (h : PktHdr) (b : Body)
  deriving DecidableEq, Repr

/-- A walk in flight (R323): its bounds, the gap bounds seen so far, the misses joined to it (R324),
and whether it waits for an invalidation to end (R326). -/
structure Walk where
  table : Nat
  addr : Nat
  acc : Nat
  lo : Nat
  hi : Nat
  below : Nat
  above : Nat
  prefetch : Bool
  slot : Nat
  held : Bool
  waiters : List Waiter
  deriving DecidableEq, Repr

/-- An entry of the fault table (R329). `flags` are the permissions of the range that lacked one (R328). -/
structure FaultEntry where
  pending : Bool := false
  gen : BitVec 8 := 0
  kind : Nat := 0
  acc : Nat := 0
  table : Nat := 0
  addr : Nat := 0
  start : Nat := 0
  fin : Nat := 0
  flags : Nat := 0
  waiters : List Waiter := []
  deriving DecidableEq, Repr

/-- A range table's root, and the base written for the next root (R317, R327, R340). -/
structure Root where
  staged : Nat := 0
  base : Nat := 0
  enable : Bool := false
  count : Nat := 0
  skyAny : Bool := true
  skyNode : Nat := 0
  deriving DecidableEq, Repr

/-- Meridian and the dormer window. `starved` wait for a fault entry without being waiters (R330); `resume` have their turn
again, `notices` are waiters a walk's fault has stopped, within one command, with the entry they wait on, and `deferred` are waiters of a
RETRY that came while BUSY was 1 (R331). `holds` are the ranges that address fields of running commands hold, by waiter and field (R322);
`served` the lookups answered to a requester whose access is not complete yet, by waiter and address (R344). -/
structure Meridian where
  roots : Tab Root := []
  invalAddr : Nat := 0
  invalLen : Nat := 0
  busy : Bool := false
  prefetch : Tab Word := []
  limitMs : Nat := 100
  cache : List Range := []
  walks : List Walk := []
  queued : List Walk := []
  faults : Tab FaultEntry := []
  starved : List Waiter := []
  resume : List Waiter := []
  notices : List (Waiter × Option Nat) := []
  deferred : List Waiter := []
  holds : List (Waiter × Nat × Range) := []
  served : List (Waiter × Nat × Range) := []
  dwEnable : Bool := false
  dwWriteEn : Bool := false
  dwWindow : Nat := 0
  deriving DecidableEq, Repr

/-- A heap allocation: `units` of 32 bytes at `offset` of `channel` (R46, R52). -/
structure Alloc where
  channel : Nat
  offset : Nat
  units : Nat
  deriving DecidableEq, Repr

/-- One copy of a replica on a die (R105). -/
structure Replica where
  table : Nat
  row : Nat
  k : Nat
  die : Nat
  slot : List Byte
  version : Nat
  valid : Bool
  deriving DecidableEq, Repr

/-- A position of an owner's job. -/
inductive PosState
  | waiting
  | got (slot : List Byte)
  | poison
  deriving DecidableEq, Repr

/-- One position an owner serves. -/
structure JobPos where
  pos : Nat
  row : Nat
  weight : Option Word
  st : PosState
  deriving DecidableEq, Repr

/-- One bag and shard an owner pools (R84). `requester` is the node that asked; `complete` once the bag's last run
has arrived (R405). -/
structure Job where
  id : Nat
  requester : Nat
  cmdId : Nat
  table : Nat
  shard : Nat
  bag : Nat
  kind : Nat
  transport16 : Bool
  step : Nat
  retried : Bool
  complete : Bool
  poss : List JobPos
  deriving DecidableEq, Repr

/-- Where a read of a row stands (R87, R98). `homeWait` waits for room in the gather engine of the home die (R86). -/
inductive ReadPhase
  | granule
  | slot
  | replica (k : Nat)
  | granuleAgain
  | slotAgain
  | repair
  | replicaRepair
  | homeWait
  deriving DecidableEq, Repr

/-- An outstanding row read of a gather engine, with the positions it serves (R86, R88): `last` is the number of the latest index that
shares it, in the order its gather engine accepted them. -/
structure GRead where
  table : Nat
  row : Nat
  step : Nat
  phase : ReadPhase
  channel : Nat
  offset : Nat
  units : Nat
  entry : Nat
  tag : Option Bool
  waiters : List (Nat × Nat)
  last : Nat := 0
  deriving DecidableEq, Repr

/-- A request this engine has with a peer (R411). -/
structure Req where
  id : Nat
  cmdId : Nat
  pair : Nat
  peer : Nat
  step : Nat
  body : Body
  reissued : Bool
  tag : Nat
  deriving DecidableEq, Repr

/-- An entry this engine sent, until its step settles (R151, R437): where it was sent, whether it is acknowledged, the ring and
seq of its command, and whether it took effect at its pair, where that is known. -/
structure OutRec where
  cmdId : Nat
  step : Nat
  pair : Nat
  peer : Nat
  entry : Entry
  acked : Bool
  ring : Nat
  seq : Word
  took : Option Bool := none
  deriving DecidableEq, Repr

/-- A close in progress (R27): the tables and rounds whose overflow check is due, the rows it takes from the partner, the staged rows
whose sums it takes from the partner (R175), and whether items 2 and 3 have run. -/
structure Closing where
  step : Nat
  waitRound : List (Nat × Nat)
  waitRows : List (Nat × Nat)
  rowsDone : Bool
  waitSums : List (Nat × Nat) := []
  deriving DecidableEq, Repr

/-- Steps, fences, entries and journals of the update path. `firstOpened` is the step that the first STEP_OPEN named (R25). `fencePending` are step fences not yet sent (step, lr_scale),
`roundFences` round fences not yet sent (step, round, table, pair), `failed` tables failed at this pair (step, table,
detail), `replaced` rows replaced in a step (step, table, row, source, src_seq), `replStopped` replacements stopped for
want of heap (step, table, source, command), `fencesSent` the last step fences sent (step, lr_scale, tables), `moved` the entries (source, src_seq) whose rows the last
close migrated, `heldForwards` forwarded items that wait for this member's close (R125, R176), `sentMax` what each command that sent records in a step found as its
largest ⌊log₂|x|⌋ (step, table, M), `states` the
places of the optimiser state slots by table and row (R168), `settled` the steps each pair has settled. -/
structure Steps where
  lastOpened : Option Nat := none
  firstOpened : Option Nat := none
  openStep : Option Nat := none
  hostClosed : Option Nat := none
  lastClosed : Option Nat := none
  srcSeq : Nat := 0
  srcStep : Nat := 0
  fences : List FenceRec := []
  closing : Option Closing := none
  sentMax : List (Nat × Nat × Option Int) := []
  fencePending : List (Nat × Word) := []
  roundFences : List (Nat × Nat × Nat × Nat) := []
  staging : List StagedRow := []
  seen : List EntryKey := []
  writeJournal : List (Nat × Entry) := []
  heldEntries : List (PktHdr × Entry) := []
  unforwarded : List (PktHdr × Entry) := []
  outRecs : List OutRec := []
  failed : List (Nat × Nat × Nat) := []
  underflow : Tab Nat := []
  replaced : List (Nat × Nat × Nat × Nat × Nat) := []
  replStopped : List (Nat × Nat × Nat × Option Nat) := []
  exps : Tab Int := []
  moved : List (Nat × Nat) := []
  heldForwards : List FwdItem := []
  states : List ((Nat × Nat) × Alloc) := []
  settled : List (Nat × Nat) := []
  fencesSent : List (Nat × Word × List (Nat × Int)) := []
  deriving DecidableEq, Repr

/-- A line of a memory-side die's cache (R267): its number, which is its stack address over 32, its set on its die, and whether it is in
the share of streams and the dormer window. -/
structure Line where
  addr : Nat
  set : Nat
  stream : Bool
  deriving DecidableEq, Repr

/-- A stack's site: it holds a stack that can be trained, and the lanes that its training has to repair (R252, R253). -/
structure Site where
  good : Bool := true
  lanes : Nat := 0
  deriving DecidableEq, Repr

/-- The tables' storage: stacks, heap, directory epochs, hot sets, replicas, look-ups in flight. `reserveNow` is the heap
reserve in force, which a write of AL_HEAP_RESERVE changes at the next close (R133); `storageStep` the step of the last
configuration whose storage has been made (R419); `regrain` the rows, with the step, of granules that failed, until the
partner's row is placed anew (R45); `gathered` counts the indices each gather engine has accepted, by die (R88), `cache` are the lines of
the dies' caches, the latest used first (R267). `startWait` are positions (job, place) whose reads wait for
room in a gather engine (R86). `sites` are the stack sites that differ from a sound one; no reset changes them. -/
structure Store where
  mem : List Host.Cell := []
  bandTop : Nat := 0x01000000
  reserved : Nat := 2 ^ 20
  heapReserveMib : Nat := 0x1000
  reserveNow : Nat := 0x1000
  allocs : List Alloc := []
  allocNext : Tab Nat := []
  rebuild : List Nat := []
  regrain : List (Nat × Nat × Nat) := []
  place : Tab Nat := []
  ready : List Nat := []
  storageStep : Nat := 0
  epoch : Bool := false
  tags0 : Nat := 0
  tags1 : Nat := 0
  free0 : List Alloc := []
  free1 : List Alloc := []
  hotSets : Tab HotSet := []
  replicas : List Replica := []
  dirty : List (Nat × Nat) := []
  cache : List Line := []
  jobs : List Job := []
  reads : List GRead := []
  gathered : Tab Nat := []
  heldIndex : List (PktHdr × IndexBody) := []
  startWait : List (Nat × Nat) := []
  nextJob : Nat := 0
  failedStacks : List Nat := []
  sites : Tab Site := []
  stackTemp : Tab (Nat × Bool) := []
  parityTicks : Tab (List Nat) := []
  deriving DecidableEq, Repr

/-- Set-up registers of the compute-die and memory-side blocks (R480's row of that name). -/
structure Setup where
  thatchSize : Nat := 3
  mergeEn : Bool := true
  streamWays : Nat := 4
  buffers : Nat := 1
  outAlign : Nat := 0
  staging : Nat := 2
  underflowThresh : Word := 0x00010000
  bufHalf : Nat := 4
  deriving DecidableEq, Repr

/-- A scale slot's history and statistics (R207 to R210). `descs` are the descriptors that blocks may still encode under, with the step
from which each holds, the latest first; the empty one stands for the image's default (R211). -/
structure QSlot where
  hist : List Word := []
  run : Word := 0
  last : Option Nat := none
  clipped : Nat := 0
  elems : Nat := 0
  share : Nat := 0
  fmt : Nat := 0
  descs : List (Nat × List Byte) := []
  deriving DecidableEq, Repr

/-- A handle in a settling queue: key and handle (R294). -/
structure Item where
  key : Nat
  handle : Nat
  deriving DecidableEq, Repr

/-- A handle queue (R294 to R296, R313). -/
structure HQueue where
  enable : Bool := false
  items : List Item := []
  credits : Nat := 64
  underrun : Bool := false
  producer : Option Nat := none
  consumer : Option Nat := none
  key : Word := 0
  lo : Word := 0
  hi : Word := 0
  last : Nat := 0
  deriving DecidableEq, Repr

/-- States of a stream slot (R312). -/
inductive RunState
  | running
  | haltedFault
  | haltedSkew
  deriving DecidableEq, Repr

/-- Where a request stands: its source is read; its source bytes are there, and wait for the rest of their vector (R287); what it writes is on
its way to another engine. -/
inductive ReqPhase
  | reading
  | read (bs : List Byte)
  | writing
  deriving DecidableEq, Repr

/-- A request of a run (R284): the pass it belongs to and that pass's number, the first element and the element count within the pass, the die
whose unit issued it, the pieces it reads and writes, what has come from another engine, by offset, and where it stands. -/
structure StReq where
  pid : Nat
  pass : Nat
  first : Nat
  count : Nat
  die : Nat
  src : List StPiece
  dst : List StPiece
  got : List (Nat × List Byte) := []
  phase : ReqPhase := .reading
  deriving DecidableEq, Repr

/-- A pass in flight (R299), identified by the order in which it was taken: its number, its handle, the next element to issue, the requests
completed beyond the earliest that is not (first element, elements, bytes), and the bytes written. A run without handles is one pass.
`stalled` is set while its push waits for credit. -/
structure Pass where
  id : Nat
  k : Nat
  handle : Option Nat
  next : Nat := 0
  finished : List (Nat × Nat × Nat) := []
  written : Nat := 0
  stalled : Bool := false
  deriving DecidableEq, Repr

/-- A stream run (R279, R283): its latched descriptor, its passes, and its requests issued. `srcHalf` and `dstHalf` are the buffer halves it
has bound, `heldSrc` and `heldDst` the ranges its sides hold (R322), `taken` the passes it has taken, `nextPass` the number of the next where
handles do not give it, `endStalled` that its push of END waits for credit. `stall` is the vector (pass, vector) at which DEQUANTISE stalls,
`skewAt` the pass, pass number and element at which a skew error halted it (R213, R307). `ahead` are the pages (table, page) walked ahead for
(R325), `stop` how it ends early: status and detail. -/
structure Run where
  cmdId : Nat
  gen : BitVec 16
  desc : List Byte
  step : Nat
  prefetch : Bool
  started : Bool := false
  state : RunState := .running
  srcHalf : Nat := 0
  dstHalf : Nat := 0
  heldSrc : Held := {}
  heldDst : Held := {}
  passes : List Pass := []
  taken : Nat := 0
  nextPass : Nat := 0
  ended : Bool := false
  endDue : Bool := false
  endStalled : Bool := false
  issued : List StReq := []
  bytes : Nat := 0
  refused : Bool := false
  waiting : Bool := false
  stall : Option (Nat × Nat) := none
  skewAt : Option (Nat × Nat × Nat) := none
  ahead : List (Nat × Nat) := []
  stop : Option (Nat × Nat) := none
  deriving DecidableEq, Repr

/-- The pairing of split operands on a slot from 248 up (R213, R277): the INTERACT that holds it, the block at which a
skew error halted it, and the block at which it stalls. -/
structure Split where
  cmdId : Nat
  halted : Option Nat
  stall : Option Nat := none
  deriving DecidableEq, Repr

/-- A stream slot (R277). `owner` is the command whose run retired and whose retire record is not yet written. -/
structure StSlot where
  gen : BitVec 16 := 0
  run : Option Run := none
  waiting : Option Run := none
  owner : Option Nat := none
  split : Option Split := none
  deriving DecidableEq, Repr

/-- The stream units: slots, handle queues, double buffers. `swaps` are the BUF_SWAPs that wait (command, buffer) in
acceptance order, `turn` the slot served last, `turns` whose turn it is among contexts and rings (R368). -/
structure Streams where
  slots : Tab StSlot := []
  queues : Tab HQueue := []
  drainHalf : Tab Nat := []
  bufMem : List Host.Cell := []
  swaps : List (Nat × Nat) := []
  turn : Nat := 0
  turns : Sched := {}
  deriving DecidableEq, Repr

/-- An accumulator tile slot (R223 to R226). -/
structure AccSlot where
  held : Bool := false
  shape : Nat := 0
  dim : Nat := 0
  group : Nat := 0
  integer : Bool := false
  sat : Bool := false
  poisoned : Bool := false
  vals : List Word := []
  deriving DecidableEq, Repr

/-- A shadow slot: the tile it writes to host memory (R225). -/
structure Shadow where
  busy : Bool := false
  cmdId : Nat := 0
  tile : Tile := ⟨0, 0, 0, 0⟩
  acc : AccSlot := {}
  deriving DecidableEq, Repr

/-- A closed tile in its slot that waits for a free shadow slot of its die (R225). -/
structure DrainWait where
  die : Nat
  slot : Nat
  body : Shadow
  deriving DecidableEq, Repr

/-- The interaction-and-selection blocks. Slots are keyed by 512 × die + slot, shadows by 8 × die + slot; `drains` are in the order of
their closes. -/
structure Interact where
  slots : Tab AccSlot := []
  shadows : Tab Shadow := []
  drains : List DrainWait := []
  deriving DecidableEq, Repr

/-- A session with a peer, both directions (R406 to R409). `known` is set once a generation of the peer is recorded; `staled` are the generations of the packet STALE last answered. -/
structure Session where
  isOpen : Bool := false
  syncSent : Bool := false
  peerGen : BitVec 8 := 0
  known : Bool := false
  rxOpen : Bool := false
  txSeq : Word := 0
  rxNext : Word := 0
  unacked : List Packet := []
  waiting : List Packet := []
  buffered : List Packet := []
  limit : BitVec 16 := 2
  reqSent : BitVec 16 := 0
  granted : BitVec 16 := 2
  tries : Nat := 0
  dupAcks : Nat := 0
  sinceAck : Nat := 0
  lastAck : Word := 0
  unreachable : Bool := false
  beacons : Tab (BitVec 64) := []
  staled : Option (BitVec 8 × BitVec 8) := none
  deriving DecidableEq, Repr

/-- A fabric port (R426). -/
structure Port where
  medium : Nat := 0
  anEn : Bool := false
  pfcEn : Bool := false
  breakout : Nat := 0
  linkMode : Nat := 0
  deriving DecidableEq, Repr

/-- A direct-mode link: its sequence numbers and replay buffer (R400). -/
structure DirectLink where
  txSeq : Nat := 0
  rxSeq : Nat := 0
  replay : List (Nat × List Byte) := []
  fails : Nat := 0
  deriving DecidableEq, Repr

/-- A staged set of configuration items (R418). -/
structure Staged where
  tables : Tab (List Byte) := []
  removes : List Nat := []
  codebooks : Tab (List Byte) := []
  profiles : Tab (List Byte) := []
  slots : Tab (List Byte) := []
  shardMap : Option (List ShardEntry) := none
  membership : Option (Nat × List Nat) := none
  routes : Option (List Byte × Tab Nat) := none
  deriving DecidableEq, Repr

/-- The empty configuration at epoch 0 (R416). -/
def emptyConf : Conf :=
  { epoch := 0, jobId := 0, members := [], plan := [], routes := [], shardMap := [], tables := [], codebooks := [],
    profiles := [], slots := [], fresh := [], freshSlots := [] }

/-- Starfield and Lodestar. `tx` is what the engine has put on the wire, oldest first; `kept` is state-changing traffic a
peer rejected, as (peer, step, body), a RECORD without its entries (R422). `reissue` is set while a returning member
resends its entries (R448). -/
structure Fabric where
  node : Nat := 0xFFFFF
  partner : Nat := 0xFFFFF
  gen : BitVec 8 := 0
  ports : Tab Port := []
  linksUp : List Nat := []
  ethertype : Nat := 0x88B5
  vlanEn : Bool := false
  pcp : Nat := 0
  vid : Nat := 0
  macPrefix : Nat := 0x020000
  timeoutUs : Nat := 200
  retries : Nat := 3
  hopLimit : Nat := 16
  groupMode : Bool := false
  shift : Nat := 0
  routes : Tab Nat := []
  sessions : Tab Session := []
  links : Tab DirectLink := []
  rr : Tab Nat := []
  reqs : List Req := []
  redirected : List (Nat × Nat) := []
  failovers : List (Nat × Nat) := []
  kept : List (Nat × Nat × Body) := []
  tx : List Packet := []
  wire : List (Nat × List Byte) := []
  reissue : Bool := false
  deriving DecidableEq, Repr

/-- Lodestar: configurations and their epochs (R416 to R422). `prev` holds, for each recent change at a step, the
configuration of the steps before it; `moves` the remaps whose storage has not moved yet (step, table, source); `making`
the configurations whose storage is still to be made (step, before, after); `named` the
remaps accepted, by the step they belong to (step, table, source), for the conflict check of R129. -/
structure Lodestar where
  active : Conf := emptyConf
  pend : Option (Nat × Conf) := none
  staged : Staged := {}
  recent : List (Nat × BitVec 16) := [(0, 0)]
  remaps : List (Nat × Nat) := []
  prev : List (Nat × Conf) := []
  moves : List (Nat × Nat × Nat) := []
  making : List (Nat × Conf × Conf) := []
  named : List (Nat × Nat × Nat) := []
  policy : Nat := 1
  beaconMs : Nat := 100
  lastPeer : Option Nat := none
  mismatched : List (Nat × Nat) := []
  digestSeen : List (Nat × BitVec 16) := []
  deriving DecidableEq, Repr

/-- Resilvering (R452, R453): this member's part in it. `left` are the rows of the pass in progress, `dirty` those written
since they were copied, `mark` the last close when the partner became ready to cut over, `journaled` once the joiner holds
the command journal, `rows` the copied rows as the joiner received them. -/
structure Resilver where
  serving : Bool := false
  full : Bool := false
  passes : Nat := 0
  left : List (Nat × Nat) := []
  dirty : List (Nat × Nat) := []
  ready : Bool := false
  mark : Option Nat := none
  bytes : Nat := 0
  journaled : Bool := false
  rows : List CopyRow := []
  deriving DecidableEq, Repr

/-- The verdict a member has yet to reach (R435, R467). -/
inductive Verdict
  | none
  | awaitStatus
  | deferred
  | awaitDeassert
  deriving DecidableEq, Repr

/-- The ridge pair (R434 to R459). `written` are the rows written by closes the partner has not reported complete, and in
SOLO the dirty map, as (step, table, row) (R450). `waiting` are ridge packets that wait for a port to come up, `rejoin` that a
member went DOWN for want of the link (R435). -/
structure Ridge where
  state : PairState := .down
  aliveIn : Bool := false
  aliveOut : Bool := false
  releasing : Bool := false
  portsUp : List Nat := []
  linkLost : Bool := true
  partner : Option StatusBody := none
  verdict : Verdict := .none
  standDown : Bool := false
  own : List JournalBody := []
  custody : List JournalBody := []
  soloJournal : List (Nat × Entry) := []
  heldRepairs : List RepairReq := []
  joinSeen : Option JoinBody := none
  joinSent : Bool := false
  rejoin : Bool := false
  waiting : List Body := []
  kept : Bool := false
  resilver : Resilver := {}
  retentionGib : Nat := 4
  written : List (Nat × Nat × Nat) := []
  maxPasses : Nat := 8
  cutoverMib : Nat := 64
  closeOfDirty : Option Nat := none
  cleared : Bool := false
  deriving DecidableEq, Repr

/-- The data path of one engine (`nextBuild` waits for the next configuration, R486; `stopped` while the logic is held in reset or
unpowered; `shut` are the reset domains not yet re-admitted, R470): everything the host commands and the peers' messages act on. -/
structure Eng where
  variant : Variant := .e8
  shut : List Domain := []
  tick : Nat := 0
  tickLatchHost : Word := 0
  tickLatchNw : Word := 0
  free : Nat := 0
  host : List Host.Cell := []
  sels : Tab Nat := []
  ctr : Tab Counter := []
  nwEvents : List (List Byte) := []
  hl : HostLink := {}
  mt : Meridian := {}
  store : Store := {}
  steps : Steps := {}
  setup : Setup := {}
  qu : Tab QSlot := []
  quDefault : Nat × Nat × Nat := (4, 1, 1)
  st : Streams := {}
  ix : Interact := {}
  fb : Fabric := {}
  ls : Lodestar := {}
  rg : Ridge := {}
  build : BitVec 64 := 1
  nextBuild : Option (BitVec 64) := none
  coreUp : Tab Bool := []
  stopped : Bool := true
  deriving DecidableEq, Repr

/-- Power, clocks, temperatures and pins (R491 to R511). `state` is 0 for A0 and A1, 2 or 3; `goal` is a transition in progress
(state, tag of its request, forced). `issue` are the issue fractions Caution sets, by memory-side die. `samples` are the powers of
the last window, newest first, `winPos` the milliseconds of the window in progress, `raised` that the fraction has risen in it;
`newCap` (watts, window) waits for the next window. `temps` are keyed by 8 × kind + die, kinds in the order of Part. `cool` and
`calm` are the local times since which every part is 5 °C below Caution and Emergency. `clamped` are the dies gated by their
current (8 × kind + die). `lost` are the sticky losses of CK_STATUS; references are numbered as there. `tripCode` is ORIGIN,
INDEX and DETAIL of the part that tripped. -/
structure Power where
  state : Nat := 0
  goal : Option (Nat × Nat × Bool) := none
  level : Nat := 0
  arithStep : Nat := 0
  capIssue : Nat := 16
  issue : Tab Nat := []
  capActive : Bool := false
  samples : List Nat := []
  winPos : Nat := 0
  raised : Bool := false
  capWatts : Nat := 530
  capWindow : Nat := 10
  newCap : Option (Nat × Nat) := none
  duskEn : Bool := true
  duskUs : Nat := 50
  groupOff : Nat := 0
  temps : Tab Nat := []
  cool : Option Nat := none
  calm : Option Nat := none
  gated : List Nat := []
  clamped : List Nat := []
  lowered : Tab Nat := []
  currentLimits : Tab Nat := []
  lost : List Nat := []
  present : List Nat := []
  thermtrip : Bool := false
  tripCode : Nat × Nat × Nat := (0, 0, 0)
  resetAsserted : Bool := true
  pwrGood : Bool := true
  bootSel : Nat := 0
  deriving DecidableEq, Repr

/-- One firmware core (R461, R488). -/
structure Core where
  newImage : Bool := false
  restarts : List Nat := []
  fails : Nat := 0
  deriving DecidableEq, Repr

/-- The firmware complex, the reset ladder and the flash. `unitTicks` and `engineTicks` are the local times of the resets that
R476 counts; `oosRecord` (code, boot count), `bootCount`, `genRecord`, `activeBank`, `prevOk` and `commitBuild` are the records of
R514 and R515 in the flash; `flash` holds its other bytes. `oosReset` is set once a cold reset has followed the out-of-service record; `recovery` and `noImage` are the
boots of R511 and R517 that leave the engine without firmware or without a node. `actNext` counts the cores an activation has
restarted, `rollback` is the core that failed it. `copyUsed` is the Elnan copy read at
the last cold reset, `factory` are the banks that hold their factory image, `noBank` that no bank passed.
`resetRung` is the rung in progress, 0 for none; `wasSolo` that the reset found the member in SOLO, and `eventDue` the
ENGINE_RESET record to raise once the engine serves. -/
structure Firmware where
  cores : Tab Core := []
  lastCause : Word := 0
  wdogMs : Nat := 50
  holdoffSec : Nat := 60
  escUnit : Nat × Nat := (10, 4)
  escCore : Nat × Nat := (60, 3)
  escEngine : Nat × Nat := (600, 3)
  unitTicks : List (Domain × Nat) := []
  engineTicks : List Nat := []
  oos : Bool := false
  oosReset : Bool := false
  recovery : Bool := false
  noImage : Bool := false
  noBank : Bool := false
  debug : Bool := false
  bank : Nat := 0
  activeBank : Nat := 0
  prevOk : Bool := false
  commitBuild : BitVec 64 := 1
  actPending : Bool := false
  deferred : Bool := false
  actRunning : Bool := false
  actNext : Nat := 0
  rollback : Option Nat := none
  antiRollback : Nat := 0
  tags : List (Domain × BitVec 8) := []
  resetRung : Nat := 4
  wasSolo : Bool := false
  eventDue : Option (Word × Nat) := none
  copyUsed : Option Nat := none
  factory : List Nat := [0, 1]
  flash : List Host.Cell := []
  oosRecord : Option (Word × BitVec 8) := none
  bootCount : BitVec 8 := 0
  genRecord : BitVec 8 := 0
  deriving DecidableEq, Repr

/-- A Nightwatch reply (R379, R522): message type, tag, status and body. -/
structure NwReply where
  msg : Nat
  tag : Nat
  status : Nat
  body : List Byte
  deriving DecidableEq, Repr

/-- The Nightwatch port (R518 to R528). -/
structure Nightwatch where
  smbus : Bool := false
  staticAddr : Nat := 0x4A
  eid : BitVec 8 := 0
  dynAddr : BitVec 7 := 0
  held : List Instr := []
  replies : List NwReply := []
  raw : List (List Byte) := []
  deriving DecidableEq, Repr

/-- The whole state, with the queue of commands that wait, first in first out. -/
structure State where
  pending : List Instr
  eng : Eng
  pw : Power
  fw : Firmware
  nw : Nightwatch
  deriving DecidableEq, Repr

/-- An Elnan image copy as a builder with Ilunafel's defaults writes it, with the sections R516 names at their
defaults absent: header, then IDENTITY with node 0x100 and partner 0x101. The bytes 19:16 are the CRC-32C of the
section bytes. Log 4. -/
def factoryImage : List Byte :=
  [0x45, 0x4C, 0x4E, 0x4E, 0x01, 0, 0, 0, 1, 0, 0, 0, 16, 0, 0, 0,
   0x6B, 0x54, 0x19, 0x2E, 0, 0, 0, 0, 0, 0, 0, 0, 0, 0, 0, 0,
   0x01, 0, 0, 0, 8, 0, 0, 0, 0x00, 0x01, 0, 0, 0x01, 0x01, 0, 0]

/-- The flash of a blade as it is fitted: header, and one valid Elnan copy. An unlisted byte reads 0xFF, as an
erased NOR flash does. Log 4. -/
def factoryFlash : List Host.Cell :=
  [(0, 0x52), (1, 0x4C), (2, 0x50), (3, 0x4E), (4, 0x01)] ++
    (factoryImage.zipIdx).map (fun e => (0x01900000 + e.2, e.1))

/-- The machine right after a cold reset, before its firmware boots: every register of R537 at its reset value, the
configuration empty, the member DOWN, memory with nothing listed, no command waiting. -/
def State.reset : State :=
  { pending := []
    eng := { fb := { node := 0x100, partner := 0x101 } }
    pw := {}
    fw := { lastCause := 0x45010000, flash := factoryFlash }
    nw := {} }

end Sys2Proof.Machine
end

