-- ==== Sys2Proof/Machine/Flags.lean ====
section
/-! DEFINITION. Codes: completion statuses, event kinds, the aperture offsets of the counter slots, and the packing
of bit fields into register words. -/

namespace Sys2Proof.Machine

/-! Completion status codes (R372). -/
namespace Status
abbrev ok : Nat := 0x00
abbrev hostLost : Nat := 0x01
abbrev duplicate : Nat := 0x02
abbrev seqInvalid : Nat := 0x03
abbrev opcodeInvalid : Nat := 0x04
abbrev versionInvalid : Nat := 0x05
abbrev reservedField : Nat := 0x06
abbrev lookupInvalid : Nat := 0x10
abbrev tableUnknown : Nat := 0x11
abbrev shardUnavailable : Nat := 0x12
abbrev poisoned : Nat := 0x13
abbrev scaleRefused : Nat := 0x14
abbrev updateInvalid : Nat := 0x18
abbrev writeInvalid : Nat := 0x19
abbrev updateStepFailed : Nat := 0x1A
abbrev stepInvalid : Nat := 0x1B
abbrev stepExhausted : Nat := 0x1C
abbrev tableInvalid : Nat := 0x20
abbrev quantInvalid : Nat := 0x21
abbrev configInvalid : Nat := 0x22
abbrev hotSetInvalid : Nat := 0x28
abbrev migrateInvalid : Nat := 0x29
abbrev replaceInvalid : Nat := 0x2A
abbrev remapInvalid : Nat := 0x2B
abbrev heapExhausted : Nat := 0x2C
abbrev streamInvalid : Nat := 0x30
abbrev streamCancelled : Nat := 0x31
abbrev streamAborted : Nat := 0x32
abbrev chainError : Nat := 0x33
abbrev queueLost : Nat := 0x34
abbrev atomicInvalid : Nat := 0x35
abbrev xlateFault : Nat := 0x38
abbrev skylightDenied : Nat := 0x39
abbrev skylightFault : Nat := 0x3A
abbrev peerUnavailable : Nat := 0x3B
abbrev interactInvalid : Nat := 0x40
abbrev topkInvalid : Nat := 0x41
abbrev dispatchInvalid : Nat := 0x42
abbrev combineInvalid : Nat := 0x43
end Status

/-! Event kinds (R374, R425 and the event tables of chapters 12 to 15). -/
namespace Kind
abbrev rowRepaired : Nat := 0x0001
abbrev rowLost : Nat := 0x0002
abbrev stateLost : Nat := 0x0003
abbrev thatchFull : Nat := 0x0004
abbrev heapLow : Nat := 0x0005
abbrev gradRestep : Nat := 0x0006
abbrev underflowWarn : Nat := 0x0007
abbrev queueReset : Nat := 0x0008
abbrev scaleSkew : Nat := 0x0009
abbrev xlateFault : Nat := 0x000A
abbrev counterSat : Nat := 0x000B
abbrev eventsLost : Nat := 0x000C
abbrev ringError : Nat := 0x000D
abbrev hostLinkDegraded : Nat := 0x000E
abbrev linkChange : Nat := 0x0020
abbrev peerUnreachable : Nat := 0x0021
abbrev peerResync : Nat := 0x0022
abbrev epochMismatch : Nat := 0x0023
abbrev digestMismatch : Nat := 0x0024
abbrev configActivated : Nat := 0x0025
abbrev failover : Nat := 0x0026
abbrev soloEntered : Nat := 0x0027
abbrev pairRestored : Nat := 0x0028
abbrev ridgePinFault : Nat := 0x0029
abbrev restepUnserved : Nat := 0x002A
abbrev joinRefused : Nat := 0x002B
abbrev coreRestart : Nat := 0x002C
abbrev unitReset : Nat := 0x002D
abbrev engineReset : Nat := 0x002E
abbrev fwActivation : Nat := 0x002F
abbrev thermalLevel : Nat := 0x0030
abbrev powerState : Nat := 0x0031
abbrev clockLoss : Nat := 0x0032
abbrev capThrottle : Nat := 0x0033
end Kind

/-! Aperture offsets of the counter slots (R531, R538). -/
namespace Ctr
abbrev hlCmdsAccepted : Nat := 0x1800
abbrev hlCmdsRefused : Nat := 0x1810
abbrev hlDuplicates : Nat := 0x1820
abbrev hlCompletions : Nat := 0x1830
abbrev hlHostLostCmds : Nat := 0x1840
abbrev hlHostLosses : Nat := 0x1850
abbrev hlRingErrors : Nat := 0x1860
abbrev hlEvents : Nat := 0x1870
abbrev hlEventsLost : Nat := 0x1880
abbrev hlIrqs : Nat := 0x1890
abbrev hlBytesIn : Nat := 0x18A0
abbrev hlBytesOut : Nat := 0x18B0
abbrev fwCoreRestarts : Nat := 0x2800
abbrev fwWdogFires : Nat := 0x2810
abbrev fwProtFaults : Nat := 0x2820
abbrev fwUnitResets : Nat := 0x2830
abbrev fwEngineResets : Nat := 0x2840
abbrev fwWarmResets : Nat := 0x2850
abbrev fwEscalations : Nat := 0x2860
abbrev fwStaleDrops : Nat := 0x2870
abbrev fwActivations : Nat := 0x2880
abbrev fwRollbacks : Nat := 0x2890
abbrev ctJobSteps : Nat := 0x3800
abbrev ctJobLookups : Nat := 0x3810
abbrev ctJobRecords : Nat := 0x3820
abbrev ctJobRowWrites : Nat := 0x3830
abbrev ctJobHostBytes : Nat := 0x3840
abbrev ctJobFabricBytes : Nat := 0x3850
abbrev ctJobStackBytes : Nat := 0x3860
abbrev ctJobEnergyUj : Nat := 0x3870
abbrev ctJobAttachedTicks : Nat := 0x3880
abbrev dwReads : Nat := 0x4800
abbrev dwWrites : Nat := 0x4810
abbrev dwWritesDropped : Nat := 0x4820
abbrev mtLookups : Nat := 0x5800
abbrev mtHits : Nat := 0x5810
abbrev mtWalks : Nat := 0x5820
abbrev mtPrefetchWalks : Nat := 0x5830
abbrev mtProbes : Nat := 0x5840
abbrev mtFaults : Nat := 0x5850
abbrev mtFaultsCoalesced : Nat := 0x5860
abbrev mtFaultWaits : Nat := 0x5870
abbrev mtResolveStale : Nat := 0x5880
abbrev mtInvalidations : Nat := 0x5890
abbrev mtSkyDenied : Nat := 0x58A0
abbrev mtSkyFaultTimeouts : Nat := 0x58B0
abbrev alHeapFree : Nat := 0x6800
abbrev alDirHit : Nat := 0x6810
abbrev alDirMiss : Nat := 0x6820
abbrev alEntryErr : Nat := 0x6830
abbrev alMigrated : Nat := 0x6840
abbrev alMigrateNoop : Nat := 0x6850
abbrev alMigrateSuperseded : Nat := 0x6860
abbrev alMigrateSkipped : Nat := 0x6870
abbrev alReplaced : Nat := 0x6880
abbrev alEpochAdvances : Nat := 0x6890
abbrev thReplicas : Nat := 0x7800
abbrev thHits : Nat := 0x7810
abbrev thForwards : Nat := 0x7820
abbrev thFilterFalse : Nat := 0x7830
abbrev thRowsDropped : Nat := 0x7840
abbrev thRefreshes : Nat := 0x7850
abbrev thReplicaErr : Nat := 0x7860
abbrev geRowsRead : Nat := 0x8800
abbrev geRowsMerged : Nat := 0x8810
abbrev geIntegrityErr : Nat := 0x8820
abbrev geRereadOk : Nat := 0x8830
abbrev gePartnerRepair : Nat := 0x8840
abbrev geBagsPoisoned : Nat := 0x8850
abbrev geIfParityRetry : Nat := 0x8860
abbrev geIfParityFail : Nat := 0x8870
abbrev geRefreshDoubled : Nat := 0x8880
abbrev geRefreshMgmt : Nat := 0x8890
abbrev geLlmHit : Nat := 0x88A0
abbrev geLlmMiss : Nat := 0x88B0
abbrev plLookups : Nat := 0x9800
abbrev plBagsSkipped : Nat := 0x9810
abbrev plZeroWeightSkips : Nat := 0x9820
abbrev plBagsSaturated : Nat := 0x9830
abbrev plResidueErr : Nat := 0x9840
abbrev plBagsRecomputed : Nat := 0x9850
abbrev upSpillCap : Nat := 0xA800
abbrev upSpillUsed : Nat := 0xA810
abbrev upRecordsSent : Nat := 0xA820
abbrev upRecordsAdded : Nat := 0xA830
abbrev upZeroRows : Nat := 0xA840
abbrev upPositionsCoalesced : Nat := 0xA850
abbrev upRowsTouched : Nat := 0xA860
abbrev upRowWrites : Nat := 0xA870
abbrev upRowsSpilled : Nat := 0xA880
abbrev upOverflowRows : Nat := 0xA890
abbrev upResteps : Nat := 0xA8A0
abbrev upTableFailures : Nat := 0xA8B0
abbrev upUnderflow : Nat := 0xA8C0
abbrev upRowsLost : Nat := 0xA8D0
abbrev upAtomicElems : Nat := 0xA8E0
abbrev upAtomicSat : Nat := 0xA8F0
abbrev quElemsClipped : Nat := 0xB800
abbrev quGroupsFlushed : Nat := 0xB810
abbrev quBlocksReencoded : Nat := 0xB820
abbrev quBlocksRefused : Nat := 0xB830
abbrev quNarrowSat : Nat := 0xB840
abbrev quNonfinite : Nat := 0xB850
abbrev quSkewStalls : Nat := 0xB860
abbrev quSkewErr : Nat := 0xB870
abbrev ixProducts : Nat := 0xC800
abbrev ixGroupsSkipped : Nat := 0xC810
abbrev ixTilesSaturated : Nat := 0xC820
abbrev ixTilesRecomputed : Nat := 0xC830
abbrev ixShadowStalls : Nat := 0xC840
abbrev seCandidates : Nat := 0xD800
abbrev seNanExcluded : Nat := 0xD810
abbrev seTokensRouted : Nat := 0xD820
abbrev seTokensSkipped : Nat := 0xD830
abbrev seChoicesKept : Nat := 0xD840
abbrev seChoicesDropped : Nat := 0xD850
abbrev seCombineReads : Nat := 0xD860
abbrev seCombineSkipped : Nat := 0xD870
abbrev stBytesRead : Nat := 0xE800
abbrev stBytesWritten : Nat := 0xE810
abbrev stRequests : Nat := 0xE820
abbrev stRearmBusy : Nat := 0xE830
abbrev stFenceWaits : Nat := 0xE840
abbrev stFaultHalts : Nat := 0xE850
abbrev stRedone : Nat := 0xE860
abbrev stShingleOps : Nat := 0xE870
abbrev stQStalls : Nat := 0xE880
abbrev stQResets : Nat := 0xE890
abbrev fbPktsTx : Nat := 0xF800
abbrev fbPktsRx : Nat := 0xF810
abbrev fbBytesTx : Nat := 0xF820
abbrev fbBytesRx : Nat := 0xF830
abbrev fbRetransmits : Nat := 0xF840
abbrev fbFastRetransmits : Nat := 0xF850
abbrev fbDuplicates : Nat := 0xF860
abbrev fbOutOfWindow : Nat := 0xF870
abbrev fbE2eCrcErr : Nat := 0xF880
abbrev fbFrameDrops : Nat := 0xF890
abbrev fbLinkReplays : Nat := 0xF8A0
abbrev fbStaleGen : Nat := 0xF8B0
abbrev fbTransit : Nat := 0xF8C0
abbrev fbHopExpired : Nat := 0xF8D0
abbrev fbUnroutable : Nat := 0xF8E0
abbrev fbCreditStalls : Nat := 0xF8F0
abbrev fbReissues : Nat := 0xF900
abbrev fbHolds : Nat := 0xF910
abbrev lsEpochMismatch : Nat := 0x10800
abbrev lsRejects : Nat := 0x10810
abbrev lsDigestMismatch : Nat := 0x10820
abbrev lsBeaconsTx : Nat := 0x10830
abbrev lsBeaconsRx : Nat := 0x10840
abbrev rgResilverLeft : Nat := 0x11800
abbrev rgJournalBytes : Nat := 0x11810
abbrev rgRetainedBytes : Nat := 0x11820
abbrev rgForwards : Nat := 0x11830
abbrev rgDedupDrops : Nat := 0x11840
abbrev rgRedirects : Nat := 0x11850
abbrev rgReissuesServed : Nat := 0x11860
abbrev rgSoloEntries : Nat := 0x11870
abbrev rgSoloTicks : Nat := 0x11880
abbrev rgResilvers : Nat := 0x11890
abbrev rgResilverBytes : Nat := 0x118A0
abbrev rgPinFaults : Nat := 0x118B0
abbrev rgRestepUnserved : Nat := 0x118C0
abbrev pwEnergyUj : Nat := 0x12800
abbrev pwCautionMs : Nat := 0x12810
abbrev pwEmergencies : Nat := 0x12820
abbrev pwCurrentClamps : Nat := 0x12830
abbrev pwCapThrottleMs : Nat := 0x12840
abbrev pwDuskEntries : Nat := 0x12850
abbrev ckLosses : Nat := 0x13800
abbrev nwMessages : Nat := 0x14800
abbrev nwRefused : Nat := 0x14810
abbrev nwEventsLost : Nat := 0x14820
end Ctr

/-- The slots that are gauges (R538). -/
def gauges : List Nat :=
  [Ctr.alHeapFree, Ctr.thReplicas, Ctr.upSpillCap, Ctr.upSpillUsed, Ctr.rgResilverLeft, Ctr.rgRetainedBytes]

/-- Every counter slot of the engine, in aperture order (R531, R538). -/
def counterSlots : List Nat :=
  [Ctr.hlCmdsAccepted, Ctr.hlCmdsRefused, Ctr.hlDuplicates, Ctr.hlCompletions, Ctr.hlHostLostCmds, Ctr.hlHostLosses, Ctr.hlRingErrors, Ctr.hlEvents, Ctr.hlEventsLost, Ctr.hlIrqs, Ctr.hlBytesIn, Ctr.hlBytesOut, Ctr.fwCoreRestarts, Ctr.fwWdogFires, Ctr.fwProtFaults, Ctr.fwUnitResets, Ctr.fwEngineResets, Ctr.fwWarmResets, Ctr.fwEscalations, Ctr.fwStaleDrops] ++
  [Ctr.fwActivations, Ctr.fwRollbacks, Ctr.ctJobSteps, Ctr.ctJobLookups, Ctr.ctJobRecords, Ctr.ctJobRowWrites, Ctr.ctJobHostBytes, Ctr.ctJobFabricBytes, Ctr.ctJobStackBytes, Ctr.ctJobEnergyUj, Ctr.ctJobAttachedTicks, Ctr.dwReads, Ctr.dwWrites, Ctr.dwWritesDropped, Ctr.mtLookups, Ctr.mtHits, Ctr.mtWalks, Ctr.mtPrefetchWalks, Ctr.mtProbes, Ctr.mtFaults] ++
  [Ctr.mtFaultsCoalesced, Ctr.mtFaultWaits, Ctr.mtResolveStale, Ctr.mtInvalidations, Ctr.mtSkyDenied, Ctr.mtSkyFaultTimeouts, Ctr.alHeapFree, Ctr.alDirHit, Ctr.alDirMiss, Ctr.alEntryErr, Ctr.alMigrated, Ctr.alMigrateNoop, Ctr.alMigrateSuperseded, Ctr.alMigrateSkipped, Ctr.alReplaced, Ctr.alEpochAdvances, Ctr.thReplicas, Ctr.thHits, Ctr.thForwards, Ctr.thFilterFalse] ++
  [Ctr.thRowsDropped, Ctr.thRefreshes, Ctr.thReplicaErr, Ctr.geRowsRead, Ctr.geRowsMerged, Ctr.geIntegrityErr, Ctr.geRereadOk, Ctr.gePartnerRepair, Ctr.geBagsPoisoned, Ctr.geIfParityRetry, Ctr.geIfParityFail, Ctr.geRefreshDoubled, Ctr.geRefreshMgmt, Ctr.geLlmHit, Ctr.geLlmMiss, Ctr.plLookups, Ctr.plBagsSkipped, Ctr.plZeroWeightSkips, Ctr.plBagsSaturated, Ctr.plResidueErr] ++
  [Ctr.plBagsRecomputed, Ctr.upSpillCap, Ctr.upSpillUsed, Ctr.upRecordsSent, Ctr.upRecordsAdded, Ctr.upZeroRows, Ctr.upPositionsCoalesced, Ctr.upRowsTouched, Ctr.upRowWrites, Ctr.upRowsSpilled, Ctr.upOverflowRows, Ctr.upResteps, Ctr.upTableFailures, Ctr.upUnderflow, Ctr.upRowsLost, Ctr.upAtomicElems, Ctr.upAtomicSat, Ctr.quElemsClipped, Ctr.quGroupsFlushed, Ctr.quBlocksReencoded] ++
  [Ctr.quBlocksRefused, Ctr.quNarrowSat, Ctr.quNonfinite, Ctr.quSkewStalls, Ctr.quSkewErr, Ctr.ixProducts, Ctr.ixGroupsSkipped, Ctr.ixTilesSaturated, Ctr.ixTilesRecomputed, Ctr.ixShadowStalls, Ctr.seCandidates, Ctr.seNanExcluded, Ctr.seTokensRouted, Ctr.seTokensSkipped, Ctr.seChoicesKept, Ctr.seChoicesDropped, Ctr.seCombineReads, Ctr.seCombineSkipped, Ctr.stBytesRead, Ctr.stBytesWritten] ++
  [Ctr.stRequests, Ctr.stRearmBusy, Ctr.stFenceWaits, Ctr.stFaultHalts, Ctr.stRedone, Ctr.stShingleOps, Ctr.stQStalls, Ctr.stQResets, Ctr.fbPktsTx, Ctr.fbPktsRx, Ctr.fbBytesTx, Ctr.fbBytesRx, Ctr.fbRetransmits, Ctr.fbFastRetransmits, Ctr.fbDuplicates, Ctr.fbOutOfWindow, Ctr.fbE2eCrcErr, Ctr.fbFrameDrops, Ctr.fbLinkReplays, Ctr.fbStaleGen] ++
  [Ctr.fbTransit, Ctr.fbHopExpired, Ctr.fbUnroutable, Ctr.fbCreditStalls, Ctr.fbReissues, Ctr.fbHolds, Ctr.lsEpochMismatch, Ctr.lsRejects, Ctr.lsDigestMismatch, Ctr.lsBeaconsTx, Ctr.lsBeaconsRx, Ctr.rgResilverLeft, Ctr.rgJournalBytes, Ctr.rgRetainedBytes, Ctr.rgForwards, Ctr.rgDedupDrops, Ctr.rgRedirects, Ctr.rgReissuesServed, Ctr.rgSoloEntries, Ctr.rgSoloTicks] ++
  [Ctr.rgResilvers, Ctr.rgResilverBytes, Ctr.rgPinFaults, Ctr.rgRestepUnserved, Ctr.pwEnergyUj, Ctr.pwCautionMs, Ctr.pwEmergencies, Ctr.pwCurrentClamps, Ctr.pwCapThrottleMs, Ctr.pwDuskEntries, Ctr.ckLosses, Ctr.nwMessages, Ctr.nwRefused, Ctr.nwEventsLost]

/-- Bits `lo + w - 1 : lo` of `x`. -/
def fld (x lo w : Nat) : Nat := x / 2 ^ lo % 2 ^ w

/-- Bit `lo` of `x`. -/
def bit (x lo : Nat) : Bool := x.testBit lo

/-- `v` placed at bit `lo`. -/
def at_ (v lo : Nat) : Nat := v * 2 ^ lo

/-- A Boolean placed at bit `lo`. -/
def flag (b : Bool) (lo : Nat) : Nat := if b then 2 ^ lo else 0

/-- VERSION 0x01 in bits 31:24 (R532). -/
def version : Nat := 0x01000000

/-- A negative or positive whole number as an 8-bit field. -/
def int8 (v : Int) : Nat := (v % 256).toNat

/-- An 8-bit field as a whole number. -/
def ofInt8 (v : Nat) : Int := if v < 128 then v else (v : Int) - 256

end Sys2Proof.Machine
end

