-- ==== Sys2Proof/Machine/Ops.lean ====
section
/-! DEFINITION. The named operations over bytes, memories, counters, events, host-memory writes and completions,
shared by every family of commands. -/

namespace Sys2Proof.Machine

/-! ## Bytes -/

/-- `n` bytes of `v`, least significant first (R9). -/
def leBytes : Nat → Nat → List Byte
  | 0, _ => []
  | n + 1, v => BitVec.ofNat 8 v :: leBytes n (v / 256)

/-- The whole number a list of bytes spells, least significant first (R9). -/
def leNat : List Byte → Nat
  | [] => 0
  | b :: t => b.toNat + 256 * leNat t

/-- `n` bytes from offset `o`. -/
def slice (d : List Byte) (o n : Nat) : List Byte := (d.drop o).take n

/-- The whole number in `n` bytes at offset `o`. -/
def num (d : List Byte) (o n : Nat) : Nat := leNat (slice d o n)

/-- `n` zero bytes. -/
def zeros (n : Nat) : List Byte := List.replicate n 0

/-- Every byte of bytes `o` to `o + n - 1` is zero. -/
def allZero (d : List Byte) (o n : Nat) : Bool := (slice d o n).all (· == 0)

/-- The number of an element of a list, or 0 past its end. -/
def nth (l : List Nat) (k : Nat) : Nat := l.getD k 0

/-- A list without repeats: the first of each is kept. -/
def nubF [BEq α] : List α → List α → List α
  | _, [] => []
  | seen, a :: t => if seen.contains a then nubF seen t else a :: nubF (a :: seen) t

/-- A list without repeats: the first of each is kept. -/
def nub [BEq α] (l : List α) : List α := nubF [] l

/-- Split a list into pieces of `n`, the last perhaps shorter, with at most `fuel` pieces. -/
def piecesF : Nat → Nat → List α → List (List α)
  | 0, _, _ => []
  | _, _, [] => []
  | f + 1, n, a :: l => (a :: l).take n :: piecesF f n ((a :: l).drop n)

/-- Split a list into pieces of `n`, the last perhaps shorter. -/
def pieces (n : Nat) (l : List α) : List (List α) := piecesF l.length n l

/-! ## Memories: canonical lists of cells, one default for the bytes not listed -/

/-- The byte at address `a` of a memory whose unlisted bytes read `d`. -/
def memGet (d : Byte) (m : List Host.Cell) (a : Nat) : Byte := Tab.get d m a

/-- Store a byte, keeping the canonical form: a byte equal to the default is not listed. -/
def memSet (d : Byte) (m : List Host.Cell) (a : Nat) (b : Byte) : List Host.Cell :=
  if b = d then Tab.erase m a else Tab.set m a b

/-- Store bytes from address `a` up. -/
def memPut (d : Byte) (m : List Host.Cell) (a : Nat) : List Byte → List Host.Cell
  | [] => m
  | b :: t => memPut d (memSet d m a b) (a + 1) t

/-- `n` bytes from address `a` up. -/
def memRead (d : Byte) (m : List Host.Cell) : Nat → Nat → List Byte
  | _, 0 => []
  | a, n + 1 => memGet d m a :: memRead d m (a + 1) n

/-- Addresses strictly rising from `lo`, and no cell equal to the default. -/
def memWfFrom (d : Byte) : Nat → List Host.Cell → Bool
  | _, [] => true
  | lo, (a, b) :: t => decide (lo ≤ a) && b != d && memWfFrom d (a + 1) t

/-- The canonical form of a memory. -/
def Memory.wf (d : Byte) (m : List Host.Cell) : Bool := memWfFrom d 0 m

/-! ## Stack memory (R46, R256) -/

/-- Read stack bytes. -/
def stackRead (e : Eng) (a n : Nat) : List Byte := memRead 0 e.store.mem a n

/-- Write stack bytes. -/
def stackPut (a : Nat) (bs : List Byte) (e : Eng) : Eng :=
  { e with store := { e.store with mem := memPut 0 e.store.mem a bs } }

/-! ## Counters (R539) -/

/-- Largest counter value. -/
def counterMax : Nat := 2 ^ 64 - 1

/-- A counter after `n` more events: it stays at all ones with SAT set (R539). -/
def Counter.add (c : Counter) (n : Nat) : Counter :=
  if c.value + n ≥ counterMax then { c with value := counterMax, sat := true } else { c with value := c.value + n }

/-- Count `n` events in a slot, and say whether SAT changed from 0 to 1. -/
def bump (slot n : Nat) (e : Eng) : Eng × Bool :=
  let c := Tab.get {} e.ctr slot
  let c' := c.add n
  if n = 0 then (e, false) else ({ e with ctr := Tab.set e.ctr slot c' }, c'.sat && !c.sat)

/-- Count in several slots, and list those newly saturated. -/
def bumps : List (Nat × Nat) → Eng → Eng × List Nat
  | [], e => (e, [])
  | (s, n) :: t, e =>
    let r := bump s n e
    let q := bumps t r.1
    (q.1, if r.2 then s :: q.2 else q.2)

/-! ## Host memory -/

/-- Bytes of host memory as the host link returns them (R347). Log 2. -/
def hostRead (e : Eng) (a n : Nat) : List Byte := memRead 0 e.host a n

/-- Put bytes into host memory. -/
def hostStore (a : Nat) (bs : List Byte) (e : Eng) : Eng := { e with host := memPut 0 e.host a bs }

/-- The ring `r`. -/
def ring (e : Eng) (r : Nat) : Ring := Tab.get {} e.hl.rings r

/-- Change the ring `r`. -/
def setRing (r : Nat) (f : Ring → Ring) (e : Eng) : Eng :=
  { e with hl := { e.hl with rings := Tab.modify {} e.hl.rings r f } }

/-- Entries of a ring. -/
def Ring.size (r : Ring) : Nat := 2 ^ r.sizeLog2

/-- Free entries of a ring the engine writes. -/
def Ring.free (r : Ring) : Nat := r.size - (r.wr - r.cons).toNat

/-- The ring takes records: enabled, not in error (R353, R371). -/
def Ring.runs (r : Ring) : Bool := r.enable && !r.error

/-- Rings run (R382). -/
def attached (e : Eng) : Bool := e.hl.attach == .attached

/-- The engine writes host memory: a host is attached or detaching by DRAIN (R382, R384). -/
def hostUp (e : Eng) : Bool := e.hl.attach != .detached

/-- The host is lost: the last detachment was a loss (R382, R386). -/
def hostLost (e : Eng) : Bool := e.hl.attach == .detached && decide (2 ≤ e.hl.cause)

/-! ## Events (R373 to R375, R525) -/

/-- An event to raise. `step` is the step the kind names; without one, the open step is reported. `node` is another
node the kind names. -/
structure Event where
  kind : Nat
  step : Option Nat := none
  table : Nat := 0xFFFF
  row : Nat := 0xFFFFFFFFFF
  node : Option Nat := none
  arg0 : Nat := 0
  arg1 : Nat := 0
  deriving DecidableEq, Repr

/-- The 32 bytes of an event record (R373). -/
def eventBytes (e : Eng) (v : Event) : List Byte :=
  leBytes 2 v.kind ++ [1, 0] ++ leBytes 6 (v.step.getD (e.steps.openStep.getD 0)) ++ leBytes 2 v.table ++
    leBytes 5 v.row ++ leBytes 3 (v.node.getD e.fb.node) ++ leBytes 8 v.arg0 ++ leBytes 4 v.arg1

/-- The event ring can take a record now (R375). -/
def eventRoom (e : Eng) : Bool := attached e && (ring e 128).runs && 0 < (ring e 128).free

/-- Write 32 bytes as the event ring's next entry. -/
def putEventEntry (bs : List Byte) (e : Eng) : Eng × List Nat :=
  let r := ring e 128
  let e := hostStore (r.base + 32 * (r.wr.toNat % r.size)) bs e
  let e := { e with hl := { e.hl with unacked := e.hl.unacked ++ [.record 128 r.wr false] } }
  let e := setRing 128 (fun q => { q with wr := q.wr + 1 }) e
  bumps [(Ctr.hlEvents, 1), (Ctr.hlBytesOut, 32), (Ctr.ctJobHostBytes, 32)] e

/-- The record enters the queue of Nightwatch too; a full queue drops it (R525). -/
def putNwEvent (bs : List Byte) (e : Eng) : Eng × List Nat :=
  if e.nwEvents.length < 64 then ({ e with nwEvents := e.nwEvents ++ [bs] }, []) else bumps [(Ctr.nwEventsLost, 1)] e

/-- The record goes to the event ring, or is held, or is dropped with 256 held (R375). -/
def putHostEvent (bs : List Byte) (e : Eng) : Eng × List Nat :=
  if eventRoom e && e.hl.evHeld.isEmpty && e.hl.evLost == 0 then putEventEntry bs e
  else if e.hl.evHeld.length < 256 then ({ e with hl := { e.hl with evHeld := e.hl.evHeld ++ [bs] } }, [])
  else bumps [(Ctr.hlEventsLost, 1)] { e with hl := { e.hl with evLost := e.hl.evLost + 1 } }

/-- Raise one event; list the counters it newly saturates. -/
def putEvent (v : Event) (e : Eng) : Eng × List Nat :=
  let bs := eventBytes e v
  let a := putNwEvent bs e
  let b := putHostEvent bs a.1
  (b.1, a.2 ++ b.2)

/-- Raise events in order; list the counters they newly saturate. -/
def putEvents : List Event → Eng → Eng × List Nat
  | [], e => (e, [])
  | v :: t, e =>
    let a := putEvent v e
    let b := putEvents t a.1
    (b.1, a.2 ++ b.2)

/-- The COUNTER_SAT event of a slot (R539). -/
def satEvent (slot : Nat) : Event := { kind := Kind.counterSat, arg1 := slot }

/-- Raise events, and the COUNTER_SAT events that raising them causes. Each slot saturates once, and five slots
count events, so the rounds end. -/
def postEvents : Nat → List Event → Eng → Eng
  | 0, _, e => e
  | f + 1, vs, e =>
    let r := putEvents vs e
    match r.2 with
    | [] => r.1
    | sats => postEvents f (sats.map satEvent) r.1

/-- Raise one event (R373). -/
def raiseEvent (v : Event) (e : Eng) : Eng := postEvents 8 [v] e

/-- Count `n` events in a slot (R539). -/
def count (slot n : Nat) (e : Eng) : Eng :=
  let r := bump slot n e
  if r.2 then raiseEvent (satEvent slot) r.1 else r.1

/-- Count in each slot of a list. -/
def counts : List (Nat × Nat) → Eng → Eng
  | [], e => e
  | (s, n) :: t, e => counts t (count s n e)

/-- A fresh free value. Log 21. -/
def takeFree (e : Eng) : BitVec 64 × Eng := (Config.freeValue e.free, { e with free := e.free + 1 })

/-- Write held events while there is room, then one EVENTS_LOST record (R375). -/
def flushHeldF : Nat → Eng → Eng
  | 0, e => e
  | f + 1, e =>
    if !eventRoom e then e
    else match e.hl.evHeld with
      | bs :: t =>
        let r := putEventEntry bs { e with hl := { e.hl with evHeld := t } }
        flushHeldF f (postEvents 8 (r.2.map satEvent) r.1)
      | [] =>
        if e.hl.evLost = 0 then e
        else
          let bs := eventBytes e { kind := Kind.eventsLost, arg0 := e.hl.evLost }
          let r := putEventEntry bs { e with hl := { e.hl with evLost := 0 } }
          postEvents 8 (r.2.map satEvent) r.1

/-- Write held events while there is room (R375): at most 256 records and one EVENTS_LOST. -/
def flushHeld (e : Eng) : Eng := flushHeldF 257 e

/-! ## Writes of host memory and interrupts (R348, R376, R377) -/

/-- One engine write of host memory, not yet acknowledged. -/
def hostWrite (ref : WriteRef) (a : Nat) (bs : List Byte) (e : Eng) : Eng :=
  let e := hostStore a bs e
  let e := { e with hl := { e.hl with unacked := e.hl.unacked ++ [ref] } }
  counts [(Ctr.hlBytesOut, bs.length), (Ctr.ctJobHostBytes, bs.length)] e

/-- Length of the engine's next write of `n` bytes from address `a`: 64-byte multiples up to 4,096 bytes within one 4 KiB page, or a naturally
aligned write of 4 to 32 bytes; fewer than 4 where no more is left of a word (R346). -/
def writeLen (a n : Nat) : Nat :=
  if a % 64 = 0 ∧ 64 ≤ n then min (n / 64 * 64) (4096 - a % 4096)
  else if a % 32 = 0 ∧ 32 ≤ n then 32
  else if a % 16 = 0 ∧ 16 ≤ n then 16
  else if a % 8 = 0 ∧ 8 ≤ n then 8
  else min n (4 - a % 4)

/-- The engine's writes of some bytes, in ascending order, each to be acknowledged (R346). -/
def hostWritesF (ref : WriteRef) : Nat → Nat → List Byte → Eng → Eng
  | 0, _, _, e => e
  | f + 1, a, bs, e =>
    if bs.isEmpty then e
    else
      let n := writeLen a bs.length
      hostWritesF ref f (a + n) (bs.drop n) (hostWrite ref a (bs.take n) e)

/-- The engine's writes of some bytes. -/
def hostWrites (ref : WriteRef) (a : Nat) (bs : List Byte) (e : Eng) : Eng := hostWritesF ref bs.length a bs e

/-- A reset domain is in quarantine: work for it waits at its edge (R470). Log 149. -/
def shutOut (e : Eng) (die : Part) (index dom : Nat) : Bool := e.shut.contains { die, index, dom }

/-- Bytes that reading a span of host memory brings: the engine reads 64-byte aligned blocks (R346). -/
def readBytes (a n : Nat) : Nat := if n = 0 then 0 else (a + n + 63) / 64 * 64 - a / 64 * 64

/-- Host-link bytes received. -/
def hostIn (n : Nat) (e : Eng) : Eng := counts [(Ctr.hlBytesIn, n), (Ctr.ctJobHostBytes, n)] e

/-- Send the message of a vector (R376). -/
def irqSend (v : Nat) (e : Eng) : Eng :=
  let q := Tab.get {} e.hl.irqs v
  count Ctr.hlIrqs 1 (hostWrite .irq q.addr (leBytes 4 q.data.toNat) e)

/-- Signal a vector: a masked one becomes pending (R377). Nothing is sent while not attached. -/
def irqSignal (v : Nat) (e : Eng) : Eng :=
  if (Tab.get {} e.hl.irqs v).mask then
    { e with hl := { e.hl with irqs := Tab.modify {} e.hl.irqs v (fun q => { q with pending := true }) } }
  else if attached e then irqSend v e
  else e

/-- `n` records of a ring are published: count them against its moderation, and signal (R377). -/
def ringSignal (r n : Nat) (irq : Bool) (e : Eng) : Eng :=
  let q := ring e r
  if irq || q.unsignalled + n ≥ q.modCount then
    irqSignal q.vector (setRing r (fun q => { q with unsignalled := 0 }) e)
  else setRing r (fun q => { q with unsignalled := q.unsignalled + n }) e

/-- Publish a ring's index in the status area (R355). -/
def publish (r n : Nat) (irq : Bool) (e : Eng) : Eng :=
  let q := ring e r
  let body := if r < 64 then leBytes 4 q.cons.toNat ++ leBytes 4 q.lastSeq.toNat else leBytes 4 q.prod.toNat ++ zeros 4
  hostWrite (.status r n irq) (e.hl.statusBase + 8 * r) body e

/-! ## Commands and completion records (R369 to R371) -/

/-- The command with an identifier. -/
def findCmd (e : Eng) (id : Nat) : Option RunCmd := e.hl.cmds.find? (fun c => c.id == id)

/-- Change a command. -/
def setCmd (id : Nat) (f : RunCmd → RunCmd) (e : Eng) : Eng :=
  { e with hl := { e.hl with cmds := e.hl.cmds.map (fun c => if c.id = id then f c else c) } }

/-- Set what a command waits for. -/
def setWork (id : Nat) (w : Work) (e : Eng) : Eng := setCmd id (fun c => { c with work := w }) e

/-- The number of the next command that is done (R370). -/
def nextDone (e : Eng) : Nat := e.hl.cmds.foldl (fun n c => max n (c.doneNo + 1)) 1

/-- The command is done, with its record. -/
def finish (id : Nat) (r : Rec) (e : Eng) : Eng :=
  setCmd id (fun c => if c.done.isNone then { c with work := .none, done := some r, doneNo := nextDone e } else c) e

/-- The command completes with OK and a count. -/
def finishOk (id n : Nat) (e : Eng) : Eng := finish id { status := Status.ok, count := n } e

/-- The command fails a check: it completes with its refusal status, having no effect (R360). -/
def refuse (id status detail : Nat) (e : Eng) : Eng :=
  count Ctr.hlCmdsRefused 1 (finish id { status := status, detail := detail } e)

/-- The step a command accepted now belongs to (R21). A member that has opened no step takes the step of the pending
configuration, or 1, until its first STEP_OPEN, which renames it (R138). Log 87. -/
def stepNow (e : Eng) : Nat :=
  match e.steps.openStep with
  | some s => s
  | none => match e.steps.lastOpened with
    | some s => s + 1
    | none => match e.ls.pend with
      | some p => p.1
      | none => 1

/-- A number that no command holds. -/
def freshId (e : Eng) : Nat := e.hl.cmds.foldl (fun n c => max n (c.id + 1)) e.hl.nextId

/-- Add an accepted command, and give its identifier (R360). -/
def addCmd (r : Nat) (d : Desc) (e : Eng) : Eng × Nat :=
  let id := freshId e
  let c : RunCmd :=
    { id, ring := r, seq := BitVec.ofNat 32 (num d 4 4), desc := d, step := stepNow e, work := .none,
      carried := false, partner := false, done := none, recIdx := none,
      skyHalt := [], align := e.setup.outAlign }
  let e := { e with hl := { e.hl with cmds := e.hl.cmds ++ [c], nextId := id + 1 } }
  (count Ctr.hlCmdsAccepted 1 e, id)

/-- The header's IRQ flag (R356). -/
def wantsIrq (d : Desc) : Bool := bit (num d 2 2) 0

/-- The 32 bytes of a completion record (R369). -/
def recordBytes (c : RunCmd) (r : Rec) : List Byte :=
  slice c.desc 8 8 ++ leBytes 4 c.seq.toNat ++ slice c.desc 0 1 ++ leBytes 1 r.status ++ leBytes 2 r.detail ++
    leBytes 6 r.count ++ leBytes 2 r.errTable ++ leBytes 5 r.errRow ++ leBytes 1 (c.ring % 64) ++ [1] ++
    leBytes 1 (flag (r.partner || c.partner) 0 + flag (!r.data.isEmpty) 1)

/-- Write the entries of a record into ring `q`, from its next free entry: one unit, which is published whole (R303). `first` is the index of
its first entry. -/
def putRecordEntries (q : Nat) (first : Word) (irq : Bool) : List (List Byte) → Eng → Eng
  | [], e => e
  | bs :: t, e =>
    let r := ring e q
    let e := hostWrite (.record q first (irq && t.isEmpty)) (r.base + 32 * (r.wr.toNat % r.size)) bs e
    putRecordEntries q first irq t (setRing q (fun r => { r with wr := r.wr + 1 }) e)

/-- The completion ring that takes a command's record (R370, R387). -/
def recordRing (e : Eng) (c : RunCmd) : Nat := if c.carried then 64 else 64 + (ring e c.ring).cq

/-- Every output of the command is acknowledged (R348). -/
def outputsAcked (e : Eng) (id : Nat) : Bool := !e.hl.unacked.contains (.output id)

/-- A record that waits until the engine serves again: that of a run a reset aborted (R309). -/
def heldRecord (e : Eng) (r : Rec) : Bool :=
  r.status == Status.streamAborted && e.rg.state != .paired && e.rg.state != .solo

/-- A command is complete and has its record to come: it is done, no reset is in progress, the host is attached, and its outputs are
visible (R348, R370). -/
def recordDue (e : Eng) (c : RunCmd) : Bool :=
  match c.done with
  | none => false
  | some r => hostUp e && !e.stopped && !heldRecord e r && c.recIdx.isNone && outputsAcked e c.id

/-- A record goes ahead of another: in the order in which the commands completed, and of carried ones by submission ring, then in the order of
acceptance, which is that of seq (R370, R387). A carried and a new one hold each other up in neither order. -/
def doneBefore (a b : RunCmd) : Bool :=
  let lex := fun (x y : Nat) => decide (x < y) || x == y && decide (a.id < b.id)
  if a.carried && b.carried then lex a.ring b.ring else !a.carried && !b.carried && lex a.doneNo b.doneNo

/-- The record of a complete command can be written now: no command that completed before it waits for the same ring, and the ring has free
space (R370, R371). -/
def canRecord (e : Eng) (c : RunCmd) : Bool :=
  match c.done with
  | none => false
  | some r => recordDue e c && (ring e (recordRing e c)).runs && decide (1 + r.data.length ≤ (ring e (recordRing e c)).free) &&
      !e.hl.cmds.any (fun o => doneBefore o c && recordDue e o && recordRing e o == recordRing e c)

/-- FENCEs whose snapshot has every record written complete with OK and count 0 (R366). -/
def settleFences (e : Eng) : Eng :=
  let written := fun id => e.hl.cmds.all (fun c => c.id != id || c.recIdx.isSome)
  { e with hl := { e.hl with cmds := e.hl.cmds.map (fun c =>
      match c.work with
      | .fence snap => if c.done.isNone && snap.all written then { c with work := .none, done := some {}, doneNo := nextDone e } else c
      | _ => c) } }

/-- Write a command's completion record and the data records that follow it (R369, R370). -/
def writeRecord (c : RunCmd) (e : Eng) : Eng :=
  match c.done with
  | none => e
  | some r =>
    if canRecord e c then
      let q := recordRing e c
      let e := putRecordEntries q (ring e q).wr (wantsIrq c.desc) (recordBytes c r :: r.data) e
      let e := setCmd c.id (fun c => { c with recIdx := some (q, (ring e q).wr - 1) }) e
      let e := counts [(Ctr.hlCompletions, 1),
        (Ctr.hlDuplicates, if r.status = Status.duplicate ∨ r.status = Status.seqInvalid then 1 else 0),
        (Ctr.hlHostLostCmds, if r.status = Status.hostLost then 1 else 0)] e
      settleFences e
    else e

/-- The published producer index of a ring, once a write of it is acknowledged: past every entry written but the
oldest unacknowledged one and those after it (R370). -/
def provenProd (e : Eng) (r : Nat) : Word :=
  e.hl.unacked.foldl (fun p u => match u with
    | .record q i _ => if q = r ∧ serialAfter p i then i else p
    | _ => p) (ring e r).wr

/-- Publish what is proven of a ring, and forget the commands whose completions it publishes (R348, R370, R383). -/
def publishProven (r : Nat) (e : Eng) : Eng :=
  let p := provenProd e r
  let n := (p - (ring e r).prod).toNat
  let irq := (ring e r).irqIdx.any (fun i => serialAfter p i)
  if n = 0 then e
  else
    let e := setRing r (fun q => { q with prod := p, irqIdx := q.irqIdx.filter (fun i => !serialAfter p i) }) e
    let e := { e with hl := { e.hl with cmds := e.hl.cmds.filter (fun c =>
      match c.recIdx with | some (q, i) => !(q == r && serialAfter p i) | none => true) } }
    let e := { e with hl := { e.hl with rings := e.hl.rings.map (fun k =>
      (k.1, { k.2 with draining := k.2.draining && e.hl.cmds.any (fun c => c.ring == k.1) })) } }
    publish r n irq e

/-- Firmware core `c` runs (R461). -/
def coreRuns (e : Eng) (c : Nat) : Bool := Tab.get true e.coreUp c

/-! ## Registers behind selectors (R534) -/

/-- The value of a selector on a path. -/
def sel (e : Eng) (p : Path) (offset d : Nat) : Nat :=
  Tab.get d e.sels (2 * offset + (match p with | .host => 0 | .nightwatch => 1))

/-- Set a selector on a path. -/
def setSel (p : Path) (offset v : Nat) (e : Eng) : Eng :=
  { e with sels := Tab.set e.sels (2 * offset + (match p with | .host => 0 | .nightwatch => 1)) v }

/-! ## Turns (R368) -/

/-- One of those that want a shared resource: its priority, context and ring. -/
structure Turn where
  prio : Nat
  ctx : Nat
  ring : Nat
  deriving DecidableEq, Repr

/-- One of `all` may be served: none of them has a higher priority; its context has accesses left in its round, or none of that priority has;
and its ring has not been served in its round, or all of that context have. The order within a round is not stated. Log 52. -/
def mayServe (s : Sched) (all : List Turn) (t : Turn) : Bool :=
  let peers := all.filter (fun u => u.prio == t.prio)
  let credit := fun (c : Nat) => Tab.get 0 s.credit c
  all.all (fun u => decide (u.prio ≤ t.prio)) && (decide (0 < credit t.ctx) || peers.all (fun u => credit u.ctx == 0)) &&
    (!s.served.contains t.ring || peers.all (fun u => u.ctx != t.ctx || s.served.contains u.ring))

/-- The rounds after one of `all` is served: with no access left the contexts begin a new round by their weights, and with every ring
served those of the context begin theirs. -/
def afterServe (weight : Nat → Nat) (s : Sched) (all : List Turn) (t : Turn) : Sched :=
  let peers := all.filter (fun u => u.prio == t.prio)
  let credit := if 0 < Tab.get 0 s.credit t.ctx then s.credit else peers.foldl (fun k u => Tab.set k u.ctx (weight u.ctx)) s.credit
  let served := if s.served.contains t.ring then s.served.filter (fun r => !peers.any (fun u => u.ctx == t.ctx && u.ring == r)) else s.served
  { credit := Tab.set credit t.ctx (Tab.get 0 credit t.ctx - 1), served := t.ring :: served }

/-! ## Local time -/

/-- One local tick: the tick counter, and the tick counters of the states that count them (R20, R390, R460).
Log 5. -/
def tickEng (e : Eng) : Eng :=
  let e := { e with tick := (e.tick + 1) % 2 ^ 64 }
  counts [(Ctr.ctJobAttachedTicks, if attached e then 1 else 0),
    (Ctr.rgSoloTicks, if e.rg.state = .solo then 1 else 0)] e

/-- The block's step on an empty queue. Log 5. -/
def idleTick (s : State) : State := { s with eng := tickEng s.eng }

end Sys2Proof.Machine
end

