-- ==== Sys2Proof/Machine/Meridian.lean ====
section
/-! DEFINITION. Meridian: range tables, the range cache, walks, faults and invalidation (chapter 10). -/

namespace Sys2Proof.Machine

/-- Units of 32 bytes in one pseudo-channel, 1 GiB (R46). -/
def channelUnits : Nat := 2 ^ 25

/-- First stack address of the reserved region (R47, R319). -/
def reservedStart (e : Eng) : Nat := (channelUnits - e.store.reserved) * 32 * e.variant.channels

/-- First address after a table's space (R316). -/
def spaceEnd (table : Nat) : Nat := if table = 0 then 2 ^ 57 else 2 ^ 48

/-- The root of a table. -/
def root (e : Eng) (table : Nat) : Root := Tab.get {} e.mt.roots table

/-- Entries a walk of a table searches: none of a disabled table (R317). -/
def rootCount (e : Eng) (table : Nat) : Nat := if (root e table).enable then (root e table).count else 0

/-- Access kinds of MT_FAULT_INFO: 0 read, 1 write, 2 read-modify-write. A range's flags permit one (R320). -/
def permits (flags acc : Nat) : Bool :=
  match acc with
  | 0 => bit flags 1
  | 1 => bit flags 2
  | _ => bit flags 1 && bit flags 2

/-- A range entry as read from memory (R318). -/
def rangeOf (table : Nat) (bs : List Byte) : Range :=
  { table, start := num bs 0 8, length := num bs 8 8, target := num bs 16 8, flags := num bs 24 1 }

/-- The checks of R318 and R319 on one entry, within the gap bounds of its search. -/
def entryOk (e : Eng) (bs : List Byte) (r : Range) (below above : Nat) : Bool :=
  let stack := bit r.flags 3
  let top := if stack then e.variant.stackBytes else 2 ^ 52
  r.start % 4096 == 0 && r.length % 4096 == 0 && decide (4096 ≤ r.length) && r.target % 4096 == 0 &&
    fld r.flags 4 4 == 0 && num bs 25 1 == 1 && allZero bs 26 6 &&
    decide (r.start + r.length ≤ spaceEnd r.table) && decide (r.target + r.length ≤ top) &&
    (r.table != 0 || !stack) && (r.table != 1 || stack) &&
    (!stack || decide (r.target + r.length ≤ reservedStart e)) &&
    decide (below ≤ r.start) && decide (r.start + r.length ≤ above)

/-- A cached range covers an address of its table. -/
def Range.covers (r : Range) (table a : Nat) : Bool := r.table == table && decide (r.start ≤ a) && decide (a < r.start + r.length)

/-- The cached range that covers an address (R321). -/
def cached (e : Eng) (table a : Nat) : Option Range := e.mt.cache.find? (fun r => r.covers table a)

/-- Put a range at the most recently used place of the 8,192 of the cache (R321). -/
def touchRange (r : Range) (e : Eng) : Eng :=
  { e with mt := { e.mt with cache := (r :: e.mt.cache.filter (fun q => q != r)).take 8192 } }

/-- The fault entry `id`. -/
def faultEntry (e : Eng) (id : Nat) : FaultEntry := Tab.get {} e.mt.faults id

/-- Set the fault entry `id`. -/
def setFault (id : Nat) (f : FaultEntry) (e : Eng) : Eng :=
  { e with mt := { e.mt with faults := Tab.set e.mt.faults id f } }

/-- A pending fault of one kind whose span holds the address (R329). -/
def pendingFault (e : Eng) (table kind a : Nat) : Option Nat :=
  (List.range 32).find? (fun id =>
    let f := faultEntry e id
    f.pending && f.table == table && f.kind == kind && decide (f.start ≤ a) && decide (a < f.fin))

/-- A pending fault that an access meets again without a walk: its span holds the address, and the range of a PERMISSION fault does not permit
the access either (R329). -/
def faultAhead (e : Eng) (table acc a : Nat) : Option Nat :=
  (List.range 32).find? (fun id =>
    let f := faultEntry e id
    f.pending && f.table == table && decide (f.start ≤ a) && decide (a < f.fin) && (f.kind != 1 || !permits f.flags acc))

/-- One command is one waiter of a fault, however many of its accesses fault (R329, R334). -/
def sameWaiter : Waiter → Waiter → Bool
  | .remote h b, .remote h' b' =>
    let id : Body → Nat := fun b => match b with
      | .skyWrite w => w.cmdId
      | .skyRead r => r.cmdId
      | _ => 0
    h.src == h'.src && id b == id b'
  | a, b => a == b

/-- A waiter on another engine. -/
def Waiter.isRemote : Waiter → Bool
  | .remote _ _ => true
  | _ => false

/-- What a faulting requester becomes: a waiter of an entry, or one that waits without being a waiter (R330). -/
inductive FaultJoin
  | entry (id : Nat)
  | starved
  deriving DecidableEq, Repr

/-- A requester that the fault table has no place for waits until an entry is freed (R330). One that waits already is looked at
again, and adds nothing. -/
def starve (w : Waiter) (e : Eng) : Eng :=
  if e.mt.starved.any (sameWaiter w) && !w.isRemote then e
  else count Ctr.mtFaultWaits 1 { e with mt := { e.mt with starved := e.mt.starved ++ [w] } }

/-- Join a pending entry as a waiter, if it has room (R329, R330). A local requester that waits there already is looked at
again, and adds nothing. -/
def joinFault (id : Nat) (w : Waiter) (e : Eng) : Eng × FaultJoin :=
  let f := faultEntry e id
  let same := f.waiters.any (sameWaiter w)
  if same || f.waiters.length < 64 then
    let ws := if same then f.waiters else f.waiters ++ [w]
    (count Ctr.mtFaultsCoalesced (if same && !w.isRemote then 0 else 1) (setFault id { f with waiters := ws } e), .entry id)
  else
    (starve w e, .starved)

/-- Record a fault: join the pending entry it matches, or take a free entry and raise XLATE_FAULT, or wait for one
(R329, R330). -/
def recordFault (table kind start fin flags acc a : Nat) (w : Waiter) (e : Eng) : Eng × FaultJoin :=
  match pendingFault e table kind a with
  | some id => joinFault id w e
  | none =>
    match (List.range 32).find? (fun id => !(faultEntry e id).pending) with
    | none => (starve w e, .starved)
    | some id =>
      let gen := match Tab.find? e.mt.faults id with
        | some f => f.gen + 1
        | none => 0
      let f : FaultEntry := { pending := true, gen, kind, acc, table, addr := a, start, fin, flags, waiters := [w] }
      let e := count Ctr.mtFaults 1 (setFault id f e)
      (raiseEvent { kind := Kind.xlateFault, arg1 := id + at_ gen.toNat 8 } e, .entry id)

/-- Record one fault for each of several waiters, and note who joined which entry, or none. -/
def recordFaults (table kind start fin acc a : Nat) : List Waiter → Eng → Eng
  | [], e => e
  | w :: t, e =>
    let r := recordFault table kind start fin 0 acc a w e
    let entry := match r.2 with
      | .entry id => some id
      | .starved => none
    recordFaults table kind start fin acc a t { r.1 with mt := { r.1.mt with notices := r.1.mt.notices ++ [(w, entry)] } }

/-- A walk at its start (R323). -/
def newWalk (e : Eng) (table a acc : Nat) (prefetch : Bool) (slot : Nat) (ws : List Waiter) : Walk :=
  { table, addr := a, acc, lo := 0, hi := rootCount e table, below := 0, above := spaceEnd table, prefetch, slot
    held := false, waiters := ws }

/-- A walker is free for a walk: one of 16, and for a walk ahead one of 12, and of four of its slot (R323, R325). -/
def walkerFree (e : Eng) (w : Walk) : Bool :=
  decide (e.mt.walks.length < 16) &&
    (!w.prefetch || (decide (e.mt.walks.countP (·.prefetch) < 12) && decide (e.mt.walks.countP (fun k => k.prefetch && k.slot == w.slot) < 4)))

/-- Begin a walk, or end it at once where the table has no entry to probe (R317, R323). A walk in a queue starts when
a walker is free. -/
def startWalk (w : Walk) (e : Eng) : Eng :=
  let started := fun (e : Eng) => counts [(Ctr.mtWalks, 1), (Ctr.mtPrefetchWalks, if w.prefetch then 1 else 0)] e
  if w.lo = w.hi then
    let e := started e
    if w.prefetch then e else recordFaults w.table 0 w.below w.above w.acc w.addr w.waiters e
  else if walkerFree e w then started { e with mt := { e.mt with walks := e.mt.walks ++ [w] } }
  else { e with mt := { e.mt with queued := e.mt.queued ++ [w] } }

/-- Add a waiter to every walk of a list on one table and page; a walk ahead becomes that of the access (R324, R342). -/
def joinWalks (table a acc : Nat) (w : Waiter) (ws : List Walk) : List Walk :=
  ws.map (fun k => if k.table = table ∧ k.addr / 4096 = a / 4096 ∧ !k.waiters.contains w then
    (if k.prefetch then { k with addr := a, acc, waiters := [w], prefetch := false } else { k with waiters := k.waiters ++ [w] }) else k)

/-- A walk in flight or queued on the same table and page (R324). -/
def walkOf (e : Eng) (table a : Nat) : Bool :=
  (e.mt.walks ++ e.mt.queued).any (fun k => k.table == table && k.addr / 4096 == a / 4096)

/-- How a lookup ends. -/
inductive Lookup
  | hit (r : Range)
  | walking
  | faulted (j : FaultJoin)
  deriving DecidableEq, Repr

/-- A requester that still waits or acts, so that what Meridian told it is kept. -/
def liveWaiter (e : Eng) : Waiter → Bool
  | .cmd id => match findCmd e id with
    | some c => c.done.isNone
    | none => false
  | _ => true

/-- The key of an answer to a lookup of an address, and of the answer a walk gives to every miss of a page that joined it (R324). -/
def addrKey (a : Nat) : Nat := 2 * a
/-- As addrKey, of a page. -/
def pageKey (a : Nat) : Nat := 2 * (a / 4096) + 1

/-- What Meridian answered to a requester for an address, while its access goes on (R344). -/
def answered (e : Eng) (w : Waiter) (table a : Nat) : Option Range :=
  (e.mt.served.find? (fun s => s.1 == w && (s.2.1 == addrKey a || s.2.1 == pageKey a) && s.2.2.covers table a)).map (·.2.2)

/-- Note an answer under a key, in place of the page's. -/
def noteServed (w : Waiter) (a key : Nat) (r : Range) (e : Eng) : Eng :=
  { e with mt := { e.mt with
    served := (w, key, r) :: e.mt.served.filter (fun s => liveWaiter e s.1 && !(s.1 == w && (s.2.1 == key || s.2.1 == pageKey a))) } }

/-- The access of a requester is complete. -/
def unserve (w : Waiter) (e : Eng) : Eng := { e with mt := { e.mt with served := e.mt.served.filter (fun s => s.1 != w) } }

/-- One lookup by a requester (R321, R323, R324, R329). An access that tries again after a stop is not answered anew. -/
def lookup (w : Waiter) (table a acc : Nat) (e : Eng) : Eng × Lookup :=
  let hit := fun (r : Range) (e : Eng) =>
    if permits r.flags acc then (noteServed w a (addrKey a) r e, Lookup.hit r)
    else
      let q := recordFault table 1 r.start (r.start + r.length) r.flags acc a w e
      (q.1, .faulted q.2)
  match answered e w table a with
  | some r => hit r e
  | none =>
    let e := count Ctr.mtLookups 1 e
    match cached e table a with
    | some r => hit r (count Ctr.mtHits 1 (touchRange r e))
    | none =>
      match faultAhead e table acc a with
      | some id => let q := joinFault id w e; (q.1, .faulted q.2)
      | none =>
        if walkOf e table a then
          ({ e with mt := { e.mt with walks := joinWalks table a acc w e.mt.walks, queued := joinWalks table a acc w e.mt.queued } }, .walking)
        else if rootCount e table = 0 then
          let q := recordFault table 0 0 (spaceEnd table) 0 acc a w (count Ctr.mtWalks 1 e)
          (q.1, .faulted q.2)
        else (startWalk (newWalk e table a acc false 256 [w]) e, .walking)

/-- One translated piece of an access: its address, its bytes, and whether it is stack memory. -/
structure Piece where
  addr : Nat
  len : Nat
  stack : Bool
  deriving DecidableEq, Repr

/-- How a translation of a span ends: its pieces in order and what the requester holds then, or the lookup that stopped it. -/
inductive Xlate
  | ok (ps : List Piece) (h : Held)
  | stopped (l : Lookup)
  deriving DecidableEq, Repr

/-- The range among those held that serves an access (R322). -/
def Held.find (h : Held) (table a acc : Nat) : Option Range :=
  (h.last.toList ++ h.ahead).find? (fun r => r.covers table a && permits r.flags acc)

/-- What is held once a range has translated an access. -/
def Held.use (h : Held) (r : Range) : Held := { last := some r, ahead := h.ahead.filter (· != r) }

/-- Translate `n` bytes from `a`, cut at 4 KiB boundaries (R320). Ranges held are used without a lookup (R322). `fuel` bounds the number
of pages. -/
def translateF (w : Waiter) (table acc : Nat) : Nat → Held → Nat → Nat → Eng → Eng × Xlate
  | 0, h, _, _, e => (e, .ok [] h)
  | f + 1, h, a, n, e =>
    if n = 0 then (e, .ok [] h)
    else
      let k := min n (4096 - a % 4096)
      let q : Eng × Lookup := match h.find table a acc with
        | some r => (e, .hit r)
        | none => lookup w table a acc e
      match q.2 with
      | .hit r =>
        let rest := translateF w table acc f (h.use r) (a + k) (n - k) q.1
        match rest.2 with
        | .ok ps h => (rest.1, .ok ({ addr := r.target + (a - r.start), len := k, stack := bit r.flags 3 } :: ps) h)
        | .stopped l => (rest.1, .stopped l)
      | l => (q.1, .stopped l)

/-- Offsets of the host-virtual address fields of a command (R68, R78, R221, R233, R237, R244). -/
def addrFields (d : Desc) : List Nat :=
  match num d 0 1 with
  | 0x10 => [32, 40, 48]
  | 0x11 => [32, 40]
  | 0x40 => [32, 40, 48]
  | 0x41 => [32, 40]
  | 0x42 => [32, 40, 48, 56]
  | 0x43 => [32, 40, 56]
  | _ => []

/-- The field of a running command that an access of a table goes by: of those at or below the address, the nearest one. A skylight or the
device space is a field of its own. Log 144. -/
def fieldOf (e : Eng) (w : Waiter) (table a : Nat) : Option Nat :=
  match w with
  | .cmd id =>
    if table ≠ 0 then some (64 + table)
    else (findCmd e id).bind (fun c => (addrFields c.desc).foldl (fun (best : Option Nat) o =>
      let x := num c.desc o 8
      if a < x then best
      else match best with
        | some b => if num c.desc b 8 < x then some o else best
        | none => some o) none)
  | _ => none

/-- The range a field holds (R322). -/
def heldRange (e : Eng) (w : Waiter) (field : Nat) : Option Range :=
  (e.mt.holds.find? (fun h => h.1 == w && h.2.1 == field)).map (·.2.2)

/-- A field holds the range of its last translation (R322). -/
def holdRange (w : Waiter) (field : Nat) (r : Range) (e : Eng) : Eng :=
  { e with mt := { e.mt with holds := (w, field, r) :: e.mt.holds.filter (fun h => liveWaiter e h.1 && !(h.1 == w && h.2.1 == field)) } }

/-- Translate a span of one table (R320, R322). -/
def translate (w : Waiter) (table acc a n : Nat) (e : Eng) : Eng × Xlate :=
  let f := fieldOf e w table a
  let q := translateF w table acc (n / 4096 + 2) { last := f.bind (heldRange e w) } a n e
  match q.2, f with
  | .ok ps h, some f => (match h.last with | some r => holdRange w f r q.1 | none => q.1, .ok ps h)
  | _, _ => q

/-- The addresses of a span, of one access kind. -/
structure Span where
  addr : Nat
  len : Nat
  acc : Nat
  deriving DecidableEq, Repr

/-- Translate several host-virtual spans (table 0); the pieces of each in order. -/
def translateHost (w : Waiter) : List Span → Eng → Eng × Option (List (List Piece))
  | [], e => (e, some [])
  | s :: t, e =>
    let q := translate w 0 s.acc s.addr s.len e
    match q.2 with
    | .stopped _ => (q.1, none)
    | .ok ps _ =>
      let r := translateHost w t q.1
      (r.1, r.2.map (fun l => ps :: l))

/-- The bytes of host memory that pieces name. -/
def readPieces (e : Eng) (ps : List Piece) : List Byte := ps.flatMap (fun p => hostRead e p.addr p.len)

/-- Write bytes over pieces of host memory, as outputs of a command (R346, R348). -/
def writePieces (id : Nat) : List Piece → List Byte → Eng → Eng
  | [], _, e => e
  | p :: t, bs, e => writePieces id t (bs.drop p.len) (hostWrites (.output id) p.addr (bs.take p.len) e)

/-- Two spans overlap. -/
def overlaps (a n b m : Nat) : Bool := decide (a < b + m) && decide (b < a + n)

/-- Ranges a side holds that keep a condition. -/
def Held.keep (p : Range → Bool) (h : Held) : Held := { last := h.last.filter p, ahead := h.ahead.filter p }

/-- Start queued walks that do not wait for an invalidation, in arrival order, while a walker is free for them (R324, R325). -/
def startQueued (e : Eng) : Eng :=
  let ready := e.mt.queued.filter (fun w => !w.held)
  let wait := e.mt.queued.filter (fun w => w.held)
  ready.foldl (fun e w => startWalk { w with hi := rootCount e w.table } e) { e with mt := { e.mt with queued := wait } }

/-- Remove the ranges of a table that overlap a span, cached and held, and hold the table's walks for a restart (R326 steps 1 and 2). The
walkers they leave take the walks that wait (R324). -/
def dropRanges (table a n : Nat) (e : Eng) : Eng :=
  let hit := e.mt.walks.filter (fun w => w.table == table)
  let kept := fun (r : Range) => !(r.table == table && overlaps a n r.start r.length)
  let restart := hit.map (fun w => { newWalk e w.table w.addr w.acc w.prefetch w.slot w.waiters with held := true })
  startQueued { e with
    mt := { e.mt with
      cache := e.mt.cache.filter kept
      holds := e.mt.holds.filter (fun h => kept h.2.2)
      served := e.mt.served.filter (fun s => kept s.2.2)
      walks := e.mt.walks.filter (fun w => w.table != table)
      queued := e.mt.queued ++ restart }
    st := { e.st with slots := e.st.slots.map (fun s => (s.1, { s.2 with
      run := s.2.run.map (fun u => { u with heldSrc := u.heldSrc.keep kept, heldDst := u.heldDst.keep kept }) })) } }

/-- Invalidate a span of a table; BUSY until the accesses that use it are over (R326). -/
def invalidate (table a n : Nat) (e : Eng) : Eng :=
  let e := dropRanges table a n e
  count Ctr.mtInvalidations 1 { e with mt := { e.mt with busy := true } }

/-- Give waiters their turn again. -/
def wake (ws : List Waiter) (e : Eng) : Eng := { e with mt := { e.mt with resume := e.mt.resume ++ ws } }

/-- Remove walk `k` from those in flight. -/
def dropWalk (k : Nat) (e : Eng) : Eng := { e with mt := { e.mt with walks := e.mt.walks.eraseIdx k } }

/-- The walk's result that ends it: fault its waiters, unless it walked ahead (R323, R325). -/
def walkFault (k kind start fin : Nat) (w : Walk) (e : Eng) : Eng :=
  let e := dropWalk k e
  startQueued (if w.prefetch then e else recordFaults w.table kind start fin w.acc w.addr w.waiters e)

/-- A range found by a walk ahead is held by the sides of its slot's run that use its table, four at most (R322, R325). -/
def holdAhead (slot : Nat) (r : Range) (e : Eng) : Eng :=
  let add := fun (tables : List Nat) (h : Held) => if tables.contains r.table then { h with ahead := (r :: h.ahead.filter (· != r)).take 4 } else h
  { e with st := { e.st with slots := e.st.slots.map (fun s => (s.1, if s.1 = slot then { s.2 with
      run := s.2.run.map (fun u => { u with heldSrc := add (sideTables u.desc false) u.heldSrc, heldDst := add (sideTables u.desc true) u.heldDst }) }
    else s.2)) } }
where
  /-- The table a side of a run uses on this engine, if any (R282). -/
  sideTables (d : List Byte) (dst : Bool) : List Nat :=
    match num d (if dst then 5 else 4) 1 with
    | 0 => [0]
    | 1 => [1]
    | 2 => [2 + num d (if dst then 7 else 6) 1]
    | _ => []

/-- A walk finds a valid range: it is cached, and serves every joined miss, or is held ahead (R321, R324, R325). -/
def walkHit (k : Nat) (w : Walk) (r : Range) (e : Eng) : Eng :=
  let e := touchRange r (dropWalk k e)
  if w.prefetch then startQueued (holdAhead w.slot r e)
  else startQueued (wake w.waiters (w.waiters.foldl (fun e x => noteServed x w.addr (pageKey w.addr) r e) e))

/-- One probe of walk `k` returns (R323): the search narrows, hits, or faults. Waiters of a hit are woken. While the host
is lost nothing is read (R386), and while Meridian is in quarantine the probe waits at its edge (R470). -/
def walkProbe (k : Nat) (e : Eng) : Eng :=
  match (if hostLost e || shutOut e .io 0 6 then none else e.mt.walks[k]?) with
  | none => e
  | some w =>
    let m := w.lo + (w.hi - w.lo) / 2
    let bs := hostRead e ((root e w.table).base + 32 * m) 32
    let r := rangeOf w.table bs
    let e := hostIn 32 (count Ctr.mtProbes 1 e)
    if !entryOk e bs r w.below w.above then walkFault k 2 0 (spaceEnd w.table) w e
    else
      let next : Option Walk :=
        if w.addr < r.start then some { w with hi := m, above := r.start }
        else if r.start + r.length ≤ w.addr then some { w with lo := m + 1, below := r.start + r.length }
        else none
      match next with
      | some w' =>
        if w'.lo < w'.hi then { e with mt := { e.mt with walks := e.mt.walks.set k w' } }
        else walkFault k 0 w'.below w'.above w' e
      | none => if bit r.flags 0 then walkHit k w r e else walkFault k 0 r.start (r.start + r.length) w e

/-- Walk ahead for an address of a slot (R325): not where it is cached or walked for. -/
def prefetchWalk (slot table a : Nat) (e : Eng) : Eng :=
  if (cached e table a).isSome || walkOf e table a then e else startWalk (newWalk e table a 0 true slot []) e

/-- MT_INVAL_CMD written while BUSY is 0 (R326, R341). -/
def invalCmd (v : Nat) (e : Eng) : Eng :=
  if e.mt.busy then e
  else if bit v 31 then invalidate (fld v 0 9) 0 (2 ^ 64) e
  else invalidate (fld v 0 9) (e.mt.invalAddr / 4096 * 4096) (ceilDiv e.mt.invalLen 4096 * 4096) e

/-- MT_TABLE_CTRL written: the staged base, count and enable become the root, and every range of the table is
invalidated (R327, R340). A count above 2²⁰ makes the write ignored. -/
def tableCtrl (p : Path) (v : Nat) (e : Eng) : Eng :=
  let t := sel e p 0x5000 0
  if fld v 0 21 > 2 ^ 20 then e
  else
    let r := root e t
    let r := { r with base := r.staged, count := fld v 0 21, enable := bit v 31 }
    invalidate t 0 (2 ^ 64) { e with mt := { e.mt with roots := Tab.set e.mt.roots t r } }

end Sys2Proof.Machine
end

