-- ==== Sys2Proof/Machine/Num.lean ====
section
/-! DEFINITION. Number formats and rounding (chapter 06, R186 to R193): values are exact dyadic numbers, and every
narrowing rounds to nearest with ties away from zero, saturating. -/

namespace Sys2Proof.Machine

/-- A value: NaN, an infinity, or ±m × 2ᵉ. Zero keeps its sign. -/
inductive FV
  | nan
  | inf (neg : Bool)
  | fin (neg : Bool) (m : Nat) (e : Int)
  deriving DecidableEq, Repr

/-- What narrowing and encoding count (R193, R196, R209, R216). -/
structure Tally where
  sat : Nat := 0
  nonfinite : Nat := 0
  clipped : Nat := 0
  flushed : Nat := 0
  reencoded : Nat := 0
  refused : Nat := 0
  deriving DecidableEq, Repr

/-- A computation that counts. -/
abbrev N := StateM Tally

/-- Run a counting computation on the engine's counters. -/
def tallied (x : N α) (e : Eng) : α × Eng :=
  let r := x.run {}
  (r.1, counts [(Ctr.quNarrowSat, r.2.sat), (Ctr.quNonfinite, r.2.nonfinite), (Ctr.quElemsClipped, r.2.clipped),
    (Ctr.quGroupsFlushed, r.2.flushed), (Ctr.quBlocksReencoded, r.2.reencoded), (Ctr.quBlocksRefused, r.2.refused)] e)

/-- Plus zero. -/
def FV.zero : FV := .fin false 0 0

/-- One. -/
def FV.one : FV := .fin false 1 0

/-- Finite. -/
def FV.finite : FV → Bool
  | .fin _ _ _ => true
  | _ => false

/-- NaN. -/
def FV.isNan : FV → Bool
  | .nan => true
  | _ => false

/-- Zero of either sign. -/
def FV.isZero : FV → Bool
  | .fin _ m _ => m == 0
  | _ => false

/-- The sign bit. -/
def FV.neg? : FV → Bool
  | .nan => false
  | .inf n => n
  | .fin n _ _ => n

/-- The negation. -/
def FV.negate : FV → FV
  | .nan => .nan
  | .inf n => .inf !n
  | .fin n m e => .fin (!n) m e

/-- The magnitude. -/
def FV.abs : FV → FV
  | .nan => .nan
  | .inf _ => .inf false
  | .fin _ m e => .fin false m e

/-- `m × 2ᵉ` as a multiple of `2ᵇ`, for `b ≤ e`. -/
def shiftTo (m : Nat) (e b : Int) : Nat := m * 2 ^ (e - b).toNat

/-- The whole number of units `2ᵇ` in a signed dyadic. -/
def signedAt (n : Bool) (m : Nat) (e b : Int) : Int := if n then -(shiftTo m e b : Int) else (shiftTo m e b : Int)

/-- Exact sum by IEEE rules. A zero sum is +0 unless both addends are −0 (R188). -/
def FV.add : FV → FV → FV
  | .nan, _ => .nan
  | _, .nan => .nan
  | .inf a, .inf b => if a = b then .inf a else .nan
  | .inf a, _ => .inf a
  | _, .inf b => .inf b
  | .fin a m e, .fin b n f =>
    let g := min e f
    let s := signedAt a m e g + signedAt b n f g
    if s = 0 then .fin (a && b && m == 0 && n == 0) 0 0 else .fin (decide (s < 0)) s.natAbs g

/-- Exact difference. -/
def FV.sub (a b : FV) : FV := a.add b.negate

/-- Exact product by IEEE rules. -/
def FV.mul : FV → FV → FV
  | .nan, _ => .nan
  | _, .nan => .nan
  | .inf a, b => if b.isZero then .nan else .inf (a != b.neg?)
  | a, .inf b => if a.isZero then .nan else .inf (a.neg? != b)
  | .fin a m e, .fin b n f => .fin (a != b) (m * n) (if m * n = 0 then 0 else e + f)

/-- Times a power of two. -/
def FV.scale (x : FV) (k : Int) : FV :=
  match x with
  | .fin n m e => .fin n m (if m = 0 then 0 else e + k)
  | x => x

/-- Compare magnitudes of two finite values. -/
def magLt (m : Nat) (e : Int) (n : Nat) (f : Int) : Bool :=
  let g := min e f
  decide (shiftTo m e g < shiftTo n f g)

/-- Strictly less, as numbers; false where either is NaN. -/
def FV.lt : FV → FV → Bool
  | .nan, _ => false
  | _, .nan => false
  | .inf a, .inf b => a && !b
  | .inf a, _ => a
  | _, .inf b => !b
  | .fin a m e, .fin b n f =>
    let g := min e f
    decide (signedAt a m e g < signedAt b n f g)

/-- The larger magnitude of two finite values, as a magnitude. -/
def maxMag (a b : FV) : FV :=
  match a, b with
  | .fin _ m e, .fin _ n f => if magLt m e n f then .fin false n f else .fin false m e
  | .fin _ m e, _ => .fin false m e
  | _, .fin _ n f => .fin false n f
  | _, _ => .zero

/-- The largest magnitude among the finite elements, or zero. -/
def amax (l : List FV) : FV := l.foldl (fun a x => if x.finite then maxMag a x else a) .zero

/-- ⌊log₂(n / d)⌋ for positive n and d. -/
def ratLog2 (n d : Nat) : Int :=
  let k : Int := (n.log2 : Int) - d.log2
  let low := if 0 ≤ k then decide (n < d * 2 ^ k.toNat) else decide (n * 2 ^ (-k).toNat < d)
  if low then k - 1 else k

/-- Nearest whole number to n / d × 2ᵉ, ties upward in magnitude (R192). -/
def ratRound (n d : Nat) (e : Int) : Nat :=
  let a := if 0 ≤ e then n * 2 ^ e.toNat else n
  let b := if 0 ≤ e then d else d * 2 ^ (-e).toNat
  (2 * a + b) / (2 * b)

/-- A binary floating format: significand bits, exponent of its smallest positive value, and its largest finite
value (R186). -/
structure Fmt where
  p : Nat
  emin : Int
  maxM : Nat
  maxE : Int
  deriving DecidableEq, Repr

/-- binary32. -/
def fmt32 : Fmt := ⟨24, -149, 2 ^ 24 - 1, 104⟩
/-- BF16. -/
def fmtBf16 : Fmt := ⟨8, -133, 255, 120⟩
/-- binary16. -/
def fmt16 : Fmt := ⟨11, -24, 2047, 5⟩
/-- FP8 E4M3. -/
def fmtE4m3 : Fmt := ⟨4, -9, 14, 5⟩
/-- FP8 E5M2. -/
def fmtE5m2 : Fmt := ⟨3, -16, 7, 13⟩
/-- F24: FP32 without its low 8 fraction bits (R193). -/
def fmtF24 : Fmt := ⟨16, -141, 2 ^ 16 - 1, 112⟩

/-- n / d × 2ᵉ rounded to a format with its exponent range unbounded above (R192). -/
def ratNear (f : Fmt) (neg : Bool) (n d : Nat) (e : Int) : FV :=
  if n = 0 then .fin neg 0 0
  else
    let q := max f.emin (ratLog2 n d + e - f.p + 1)
    .fin neg (ratRound n d (e - q)) q

/-- The format's largest finite value. -/
def Fmt.max (f : Fmt) (neg : Bool) : FV := .fin neg f.maxM f.maxE

/-- The magnitude passes the format's largest finite value. -/
def Fmt.overflows (f : Fmt) : FV → Bool
  | .fin _ m e => magLt f.maxM f.maxE m e
  | _ => false

/-- n / d × 2ᵉ rounded and saturated; a saturation is counted (R193). -/
def rndRat (f : Fmt) (neg : Bool) (n d : Nat) (e : Int) : N FV := do
  let x := ratNear f neg n d e
  if f.overflows x then
    modify fun t => { t with sat := t.sat + 1 }
    return f.max neg
  else return x

/-- rnd_F: round to a format (R192, R193). -/
def rnd (f : Fmt) (x : FV) : N FV :=
  match x with
  | .fin n m e => rndRat f n m 1 e
  | x => pure x

/-- Round to FP32. -/
def rnd32 (x : FV) : N FV := rnd fmt32 x

/-- The quotient of two values by IEEE rules, rounded once to a format. -/
def quotient (f : Fmt) (a b : FV) : N FV :=
  match a, b with
  | .nan, _ => pure .nan
  | _, .nan => pure .nan
  | .inf _, .inf _ => pure .nan
  | .inf n, b => pure (.inf (n != b.neg?))
  | .fin n _ _, .inf k => pure (.fin (n != k) 0 0)
  | .fin n m e, .fin k d g =>
    if d = 0 then pure (if m = 0 then .nan else .inf (n != k)) else rndRat f (n != k) m d (e - g)

/-- Whole number square root, by digits. -/
def isqrtF : Nat → Nat → Nat → Nat
  | 0, _, r => r
  | b + 1, n, r => let c := r + 2 ^ b; isqrtF b n (if c * c ≤ n then c else r)

/-- ⌊√n⌋. -/
def isqrt (n : Nat) : Nat := isqrtF (n.log2 / 2 + 1) n 0

/-- The square root rounded once to FP32; NaN below zero. A root of a value scaled by an even power of two keeps 40
bits, and one sticky bit makes the last rounding exact. -/
def sqrt32 (x : FV) : N FV :=
  match x with
  | .nan => pure .nan
  | .inf n => pure (if n then .nan else .inf false)
  | .fin n m e =>
    if m = 0 then pure (.fin n 0 0)
    else if n then pure .nan
    else
      let k : Nat := 80 + (if (e - 80) % 2 = 0 then 0 else 1)
      let a := m * 2 ^ k
      let r := isqrt a
      let r2 := 2 * r + (if r * r = a then 0 else 1)
      rnd32 (.fin false r2 ((e - k) / 2 - 1))

/-- An IEEE encoding with `eb` exponent bits and `mb` fraction bits as a value. -/
def fromBits (eb mb : Nat) (v : Nat) : FV :=
  let neg := bit v (eb + mb)
  let ex := fld v mb eb
  let fr := fld v 0 mb
  let bias : Int := 2 ^ (eb - 1) - 1
  if ex = 2 ^ eb - 1 then (if fr = 0 then .inf neg else .nan)
  else if ex = 0 then .fin neg fr (if fr = 0 then 0 else 1 - bias - mb)
  else .fin neg (2 ^ mb + fr) (ex - bias - mb)

/-- A value of a format as its IEEE encoding; NaN is the quiet NaN of R193. -/
def toBits (eb mb : Nat) (x : FV) : Nat :=
  let bias : Int := 2 ^ (eb - 1) - 1
  match x with
  | .nan => at_ (2 ^ eb - 1) mb + 2 ^ (mb - 1)
  | .inf n => flag n (eb + mb) + at_ (2 ^ eb - 1) mb
  | .fin n m e =>
    if m = 0 then flag n (eb + mb)
    else
      let k : Int := m.log2 + e
      let q := max (1 - bias) k - mb
      let f := if q ≤ e then m * 2 ^ (e - q).toNat else m / 2 ^ (q - e).toNat
      if f < 2 ^ mb then flag n (eb + mb) + f
      else flag n (eb + mb) + at_ (q + mb + bias).toNat mb + (f - 2 ^ mb)

/-- The value of FP32 bits. -/
def ofWord (w : Word) : FV := fromBits 8 23 w.toNat
/-- The FP32 bits of a value. -/
def toWord (x : FV) : Word := BitVec.ofNat 32 (toBits 8 23 x)
/-- The value of BF16 bits. -/
def ofBf16 (v : Nat) : FV := fromBits 8 7 v
/-- The BF16 bits of a value. -/
def toBf16 (x : FV) : Nat := toBits 8 7 x

/-- The value of an E4M3 byte: no infinity, 0x7F and 0xFF NaN (R186). -/
def ofE4m3 (v : Nat) : FV :=
  if fld v 0 7 = 0x7F then .nan
  else if fld v 3 4 = 0 then .fin (bit v 7) (fld v 0 3) (if fld v 0 3 = 0 then 0 else -9)
  else .fin (bit v 7) (8 + fld v 0 3) (fld v 3 4 - 10)

/-- An E4M3 byte of a value of the format. -/
def toE4m3 (x : FV) : Nat :=
  match x with
  | .nan => 0x7F
  | .inf n => flag n 7 + 0x7E
  | .fin n m e =>
    if m = 0 then flag n 7
    else
      let q : Int := max (-6) (m.log2 + e) - 3
      let f := if q ≤ e then m * 2 ^ (e - q).toNat else m / 2 ^ (q - e).toNat
      if f < 8 then flag n 7 + f else flag n 7 + at_ (q + 10).toNat 3 + (f - 8)

/-- A whole number as a value. -/
def ofInt (v : Int) : FV := .fin (decide (v < 0)) v.natAbs 0

/-- A whole number in `w` two's complement bits. -/
def sext (w v : Nat) : Int := if v < 2 ^ (w - 1) then v else (v : Int) - 2 ^ w

/-- The low `w` two's complement bits of a whole number. -/
def twos (w : Nat) (v : Int) : Nat := (v % 2 ^ w).toNat

/-- Nearest whole number to a finite value, ties away from zero, or none for NaN and infinities. -/
def roundInt : FV → Option Int
  | .fin n m e => some (if n then -(ratRound m 1 e : Int) else ratRound m 1 e)
  | _ => none

/-- Map a counting function over a list. -/
def mapN (f : α → N β) : List α → N (List β)
  | [] => pure []
  | a :: t => do
    let b ← f a
    let bs ← mapN f t
    return b :: bs

/-- Combine two lists element by element. -/
def zipN (f : α → β → N γ) : List α → List β → N (List γ)
  | a :: s, b :: t => do
    let c ← f a b
    let cs ← zipN f s t
    return c :: cs
  | _, _ => pure []

/-- FP32 sum of two FP32 values (R192). -/
def add32 (a b : FV) : N FV := rnd32 (a.add b)

/-- One fused multiply-add: rounded once (R90). -/
def fma32 (acc a b : FV) : N FV := rnd32 (acc.add (a.mul b))

/-! ## Walsh-Hadamard rotation (R199) -/

/-- One stage with half-length `h` over a group, in blocks of 2h. -/
def rotStage (h : Nat) (x : List FV) : N (List FV) := do
  let bs ← mapN (fun blk => do
    let a := blk.take h
    let b := blk.drop h
    let s ← zipN (fun p q => rnd32 (p.add q)) a b
    let d ← zipN (fun p q => rnd32 (p.sub q)) a b
    return s ++ d) (pieces (2 * h) x)
  return bs.flatten

/-- The stages in ascending h. -/
def rotStages : List Nat → List FV → N (List FV)
  | [], x => pure x
  | h :: t, x => do
    let y ← rotStage h x
    rotStages t y

/-- The constant c_G (R199). -/
def rotConst (g : Nat) : FV :=
  if g = 32 then ofWord 0x3E3504F3 else if g = 64 then ofWord 0x3E000000 else ofWord 0x3DB504F3

/-- The stages of a G-point rotation. -/
def rotHs (g : Nat) : List Nat := [1, 2, 4, 8, 16, 32, 64].filter (fun h => decide (h < g))

/-- The G-point rotation of one group, its own inverse (R199). -/
def rotGroup (g : Nat) (x : List FV) : N (List FV) := do
  let y ← rotStages (rotHs g) x
  mapN (fun v => rnd32 ((rotConst g).mul v)) y

/-- The rotation of every group of a vector. -/
def rotate (g : Nat) (x : List FV) : N (List FV) := do
  let gs ← mapN (rotGroup g) (pieces g x)
  return gs.flatten

end Sys2Proof.Machine
end

