-- ==== Sys2Proof/Machine/Quant.lean ====
section
/-! DEFINITION. Group-scaled encodings and scale slots (chapter 06, R187 to R215). -/

namespace Sys2Proof.Machine

/-- Element formats of encoded blocks (R196). A codebook format carries its entries as BF16 bits. -/
inductive Elem
  | int8
  | uint8
  | int4
  | e4m3
  | e5m2
  | cb (entries : List Nat)
  deriving DecidableEq, Repr

/-- A group-scaled block: BF16 scale2, one code a group, one raw element code an element (R191). -/
structure Block where
  scale2 : Nat
  codes : List Nat
  elems : List Nat
  deriving DecidableEq, Repr

/-- The decoded element of a raw code (R187, R190). -/
def Elem.decode (f : Elem) (v : Nat) : FV :=
  match f with
  | .int8 => ofInt (sext 8 v)
  | .uint8 => ofInt v
  | .int4 => ofInt (sext 4 v)
  | .e4m3 => ofE4m3 v
  | .e5m2 => fromBits 5 2 v
  | .cb es => ofBf16 (nth es v)

/-- The target magnitude Q (R194); the codebook maximum for codebooks. -/
def Elem.q : Elem → FV
  | .int8 => ofInt 127
  | .uint8 => ofInt 254
  | .int4 => ofInt 7
  | .e4m3 => ofInt 448
  | .e5m2 => ofInt 57344
  | .cb es => amax (es.map ofBf16)

/-- Count clipped elements (R196). -/
def clip (n : Nat) : N Unit := modify fun t => { t with clipped := t.clipped + n }

/-- Count non-finite values. -/
def nonfin (n : Nat) : N Unit := modify fun t => { t with nonfinite := t.nonfinite + n }

/-- Clamp a rounded magnitude, counting a clip. -/
def quantInt (bound : Nat) (w : Nat) (neg : Bool) (r : Nat) : N Nat := do
  if r > bound then clip 1
  let k := min r bound
  return twos w (if neg then -(k : Int) else k)

/-- Round to an FP8 format with the exponent range unbounded above, clipping past the largest value (R196). -/
def quantF (f : Fmt) (enc : FV → Nat) (neg : Bool) (n d : Nat) (e : Int) : N Nat := do
  let x := ratNear f neg n d e
  if f.overflows x then
    clip 1
    return enc (f.max neg)
  else return enc x

/-- |x − entry| for x = ±n/d × 2ᵉ, times d: exact. -/
def cbDist (neg : Bool) (n d : Nat) (e : Int) (entry : Nat) : FV :=
  ((FV.fin neg n e).sub ((ofBf16 entry).mul (ofInt d))).abs

/-- The code of the entry nearest to ±n/d × 2ᵉ, ties to the lower code (R196). -/
def cbNearest (es : List Nat) (neg : Bool) (n d : Nat) (e : Int) : Nat :=
  (es.zipIdx.foldl (fun (best : Option (Nat × FV)) p =>
    let x := cbDist neg n d e p.1
    match best with
    | none => some (p.2, x)
    | some b => if x.lt b.2 then some (p.2, x) else some b) none).elim 0 (·.1)

/-- quant() of ±n/d × 2ᵉ (R196). -/
def Elem.quant (f : Elem) (neg : Bool) (n d : Nat) (e : Int) : N Nat :=
  match f with
  | .int8 => quantInt 127 8 neg (ratRound n d e)
  | .uint8 => quantInt 255 8 neg (ratRound n d e)
  | .int4 => quantInt 7 4 neg (ratRound n d e)
  | .e4m3 => quantF fmtE4m3 toE4m3 neg n d e
  | .e5m2 => quantF fmtE5m2 (toBits 5 2) neg n d e
  | .cb es => pure (cbNearest es neg n d e)

/-- enc_nf(x): a NaN as the format's quiet NaN or 0, an infinity as quant(±Q) (R196). Both are counted. -/
def Elem.encNf (f : Elem) (x : FV) : N Nat := do
  nonfin 1
  match x with
  | .inf n =>
    match f.q with
    | .fin _ m e => f.quant n m 1 e
    | _ => return 0
  | _ =>
    match f with
    | .e4m3 => return 0x7F
    | .e5m2 => return 0x7E
    | _ => return 0

/-- clampbf: into 2⁻¹³³ to 0x7F7F (R194). -/
def clampBf (x : FV) : FV :=
  match x with
  | .fin _ m e => if m = 0 then .fin false 1 (-133) else if magLt 255 120 m e then fmtBf16.max false else x
  | _ => fmtBf16.max false

/-- clampbf(rnd_bf16(a / q)) for magnitudes a = m × 2ᵉ and q. -/
def scaleOf (a q : FV) : FV :=
  match a, q with
  | .fin _ m e, .fin _ d g => if d = 0 then clampBf .zero else clampBf (ratNear fmtBf16 false m d (e - g))
  | _, _ => clampBf .zero

/-- Largest k ≥ 0 with a × 2ᵏ ≤ s × Q, or 0 if there is none (R194). -/
def groupCode (a s q : FV) : Nat :=
  match a, s.mul q with
  | .fin _ m e, .fin _ n f => if m = 0 ∨ n = 0 then 0 else (ratLog2 n m + (f - e)).toNat
  | _, _ => 0

/-- v × 2ᵏ ÷ scale2, rounded by quant(). -/
def quantAt (f : Elem) (s : FV) (k : Nat) (v : FV) : N Nat :=
  match v, s with
  | .fin n m e, .fin _ d g => if d = 0 then pure 0 else f.quant n m d (e + k - g)
  | x, _ => f.encNf x

/-- Encode one group under a scale2 (R194). -/
def encGroup (f : Elem) (s : FV) (v : List FV) : N (Nat × List Nat) := do
  let a := amax v
  if a.isZero && v.all (·.finite) then return (255, v.map (fun _ => 0))
  let k := if a.isZero then 0 else groupCode a s f.q
  if k > 255 then
    modify fun t => { t with flushed := t.flushed + 1 }
    let q ← mapN (fun x => if x.finite then pure 0 else f.encNf x) v
    return (255, q)
  else
    let q ← mapN (quantAt f s k) v
    return (k, q)

/-- The zero block (R57, R194). -/
def zeroBlock (d g : Nat) : Block := { scale2 := 0x3F80, codes := List.replicate (d / g) 0, elems := List.replicate d 0 }

/-- Encode a block under a given scale2: every group by R194 (R208). -/
def encScaled (f : Elem) (g : Nat) (s : FV) (v : List FV) : N Block := do
  let gs ← mapN (encGroup f s) (pieces g v)
  return { scale2 := toBf16 s, codes := gs.map (·.1), elems := gs.flatMap (·.2) }

/-- The own-maximum encoder (R194). -/
def encOwn (f : Elem) (g : Nat) (v : List FV) : N Block :=
  let a := amax v
  if a.isZero && v.all (·.finite) then pure (zeroBlock v.length g)
  else encScaled f g (if a.isZero then .one else scaleOf a f.q) v

/-- The values of a block's elements: element × 2⁻ᵏ × scale2, exact (R38). -/
def Block.values (f : Elem) (g : Nat) (b : Block) : List FV :=
  b.elems.zipIdx.map (fun p => ((f.decode p.1).scale (-(nth b.codes (p.2 / g) : Int))).mul (ofBf16 b.scale2))

/-- Pack 4-bit codes two to a byte, low first (R40). -/
def packNibbles : List Nat → List Byte
  | a :: b :: t => BitVec.ofNat 8 (a % 16 + 16 * (b % 16)) :: packNibbles t
  | [a] => [BitVec.ofNat 8 (a % 16)]
  | [] => []

/-- Unpack bytes into 4-bit codes. -/
def unpackNibbles : List Byte → List Nat
  | [] => []
  | b :: t => fld b.toNat 0 4 :: fld b.toNat 4 4 :: unpackNibbles t

/-! ## Asymmetric operands (R201 to R204) -/

/-- A group of an operand vector: code, zero point, elements, sum. -/
structure OpGroup where
  code : Nat
  zero : Int
  sum : Int
  elems : List Int
  deriving DecidableEq, Repr

/-- The span of a group: max(0, max v) − min(0, min v), and −min(0, min v). -/
def spanOf (v : List FV) : FV × FV :=
  let lo := v.foldl (fun a x => if x.lt a then x else a) .zero
  let hi := v.foldl (fun a x => if a.lt x then x else a) .zero
  (hi.sub lo, lo.negate)

/-- Least whole number at or above n / d × 2ᵉ. -/
def ratCeil (n d : Nat) (e : Int) : Nat :=
  let a := if 0 ≤ e then n * 2 ^ e.toNat else n
  let b := if 0 ≤ e then d else d * 2 ^ (-e).toNat
  (a + b - 1) / b

/-- Encode one group asymmetrically under a scale2 (R202). -/
def encAsymGroup (s : FV) (v : List FV) : N OpGroup := do
  let p := spanOf v
  let zeroG : OpGroup := { code := 255, zero := 0, sum := 0, elems := v.map (fun _ => 0) }
  if p.1.isZero then return zeroG
  let k := groupCode p.1 s (ofInt 253)
  if k > 255 then
    modify fun t => { t with flushed := t.flushed + 1 }
    return zeroG
  match p.2, s with
  | .fin _ m e, .fin _ d g =>
    let z : Int := (ratCeil m d (e + k - g) : Int) - 128
    let q := v.map (fun x => match x with
      | .fin n a b => (if n then -(ratRound a d (b + k - g) : Int) else ratRound a d (b + k - g)) + z
      | _ => z)
    return { code := k, zero := z, sum := q.foldl (· + ·) 0, elems := q }
  | _, _ => return zeroG

/-- The asymmetric encoder (R202): scale2 and the groups. -/
def encAsym (g : Nat) (v : List FV) : N (Nat × List OpGroup) := do
  let gs := pieces g v
  let r := gs.foldl (fun a x => maxMag a (spanOf x).1) .zero
  if r.isZero then return (0x3F80, gs.map (fun x => { code := 0, zero := 0, sum := 0, elems := x.map (fun _ => 0) }))
  let s := scaleOf r (ofInt 253)
  let os ← mapN (encAsymGroup s) gs
  return (toBf16 s, os)

/-- The symmetric operand vector: R194 with INT8, every z 0, the sums computed (R203). -/
def encSym (g : Nat) (v : List FV) : N (Nat × List OpGroup) := do
  let b ← encOwn .int8 g v
  let es := pieces g (b.elems.map (sext 8))
  return (b.scale2, (es.zip b.codes).map (fun p => { code := p.2, zero := 0, sum := p.1.foldl (· + ·) 0, elems := p.1 }))

/-- The bytes of a quantised operand vector, padded to a multiple of 64 (R203). -/
def operandBytes (asym rotated : Bool) (g : Nat) (o : Nat × List OpGroup) : List Byte :=
  let gc := if g = 32 then 0 else if g = 64 then 1 else 2
  let b := leBytes 2 o.1 ++ leBytes 1 (flag asym 0 + flag rotated 1) ++ leBytes 1 gc ++
    o.2.flatMap (fun p => leBytes 1 p.code ++ leBytes 1 (twos 8 p.zero) ++ leBytes 2 (twos 16 p.sum)) ++
    o.2.flatMap (fun p => p.elems.flatMap (fun q => leBytes 1 (twos 8 q)))
  b ++ zeros (align64 b.length - b.length)

/-! ## Scale slots (R205 to R211) -/

/-- Policy of a slot in one step: L, m, policy, CLIP_SHARE, RESET_HISTORY. -/
structure SlotPolicy where
  len : Nat
  margin : Nat
  policy : Nat
  share : Bool
  reset : Bool
  deriving DecidableEq, Repr

/-- The policy a descriptor sets (R205). -/
def slotPolicyOf (d : List Byte) : SlotPolicy :=
  { len := num d 4 1, margin := num d 5 1, policy := num d 6 1, share := bit (num d 1 1) 0, reset := bit (num d 1 1) 1 }

/-- The scale slot `n`. -/
def qslot (e : Eng) (n : Nat) : QSlot := Tab.get {} e.qu n

/-- Change the scale slot `n`. -/
def setQslot (n : Nat) (f : QSlot → QSlot) (e : Eng) : Eng := { e with qu := Tab.modify {} e.qu n f }

/-- The policy of the image's defaults, or of a descriptor (R205). -/
def policyOf (e : Eng) (d : List Byte) : SlotPolicy :=
  if d.isEmpty then { len := e.quDefault.1, margin := e.quDefault.2.1, policy := e.quDefault.2.2, share := false, reset := false }
  else slotPolicyOf d

/-- The policy of slot `n` in the active configuration. -/
def activePolicy (e : Eng) (n : Nat) : SlotPolicy := policyOf e (Tab.get [] e.ls.active.slots n)

/-- The descriptors of slot `n` with the step from which each holds, the latest first: the pending configuration's, then those activated
(R211). -/
def slotDescs (e : Eng) (n : Nat) : List (Nat × List Byte) :=
  (match e.ls.pend with
    | some (m, c) => if c.freshSlots.contains n then [(m, Tab.get [] c.slots n)] else []
    | none => []) ++ (qslot e n).descs

/-- The policy of slot `n` for a block of step `s`: the descriptor of its own step (R205, R211). -/
def slotPolicy (e : Eng) (n s : Nat) : SlotPolicy :=
  match (slotDescs e n).find? (fun d => decide (d.1 ≤ s)) with
  | some d => policyOf e d.2
  | none => activePolicy e n

/-- A descriptor takes effect at step `m`; what held before is kept for blocks of earlier steps (R211). -/
def newDesc (n m : Nat) (before d : List Byte) (e : Eng) : Eng :=
  setQslot n (fun q => { q with descs := (m, d) :: (if q.descs.isEmpty then [(0, before)] else q.descs) }) e

/-- A descriptor that takes effect in a step after `l`, up to `s`, empties the history. -/
def resetsHistory (e : Eng) (n l s : Nat) : Bool :=
  (slotDescs e n).any (fun d => decide (l < d.1 ∧ d.1 ≤ s) && (policyOf e d.2).reset)

/-- The statistics of a step that moves into the history, by the descriptor of that step (R210). -/
def clipShare (e : Eng) (n l : Nat) (q : QSlot) : Nat :=
  if e.variant.clipShare && (slotPolicy e n l).share && q.elems != 0 then min 65535 (q.clipped * 65536 / q.elems) else 0

/-- Before the first block of a later step, the running maximum enters the history (R207), under the new length where
a descriptor takes effect; RESET_HISTORY has emptied it before that (R211). Log 23. -/
def rollSlot (n s : Nat) (e : Eng) : Eng :=
  let q := qslot e n
  let descs := q.descs.filter (fun d => decide (s < d.1)) ++ (q.descs.filter (fun d => decide (d.1 ≤ s))).take 1
  match q.last with
  | none => setQslot n (fun q => { q with last := some s, descs }) e
  | some l =>
    if s ≤ l then e
    else
      let old := if resetsHistory e n l s then [] else q.hist
      setQslot n (fun q => { q with
        hist := ((old ++ [q.run]).reverse.take (slotPolicy e n s).len).reverse
        run := 0, last := some s, clipped := 0, elems := 0, share := clipShare e n l q, descs }) e

/-- The derived scale of R208, if the history is not empty. -/
def derivedScale (q : QSlot) (margin : Nat) (qmax : FV) : Option FV :=
  match q.hist with
  | [] => none
  | h => some (scaleOf ((amax (h.map ofWord)).scale margin) qmax)

/-- The format code of QU_SLOT_SCALE (R215). -/
def slotFmt : Elem → Nat
  | .e4m3 => 1
  | .e5m2 => 2
  | _ => 0

/-- How a block came out under a slot: its bytes to write, and the CLIPPED status; none where ERROR refused it. -/
structure SlotEnc where
  block : Option Block
  clipped : Bool
  deriving DecidableEq, Repr

/-- Encode a block of step `s` under slot `n` (R207 to R209). -/
def encSlot (n s : Nat) (f : Elem) (g : Nat) (v : List FV) (e : Eng) : SlotEnc × Eng :=
  let e := rollSlot n s e
  let q := qslot e n
  let p := slotPolicy e n s
  let seen := fun (clipped : Nat) (e : Eng) => setQslot n (fun q => { q with
    run := toWord (maxMag (ofWord q.run) (amax v)), fmt := slotFmt f
    clipped := q.clipped + clipped, elems := q.elems + v.length }) e
  match derivedScale q p.margin f.q with
  | none =>
    let r := (encOwn f g v).run {}
    let t := tallied (encOwn f g v) (seen 0 e)
    ({ block := some t.1, clipped := decide (0 < r.2.flushed) }, t.2)
  | some sc =>
    let r := (encScaled f g sc v).run {}
    let bad := decide (0 < r.2.clipped + r.2.flushed)
    let t := tallied (encScaled f g sc v) (seen r.2.clipped e)
    if !bad then ({ block := some t.1, clipped := false }, t.2)
    else match p.policy with
      | 0 => ({ block := some t.1, clipped := true }, t.2)
      | 1 =>
        let r2 := (encOwn f g v).run {}
        let t2 := tallied (do
          let b ← encOwn f g v
          modify fun t => { t with reencoded := t.reencoded + 1, nonfinite := 0 }
          return b) t.2
        ({ block := some t2.1, clipped := decide (0 < r2.2.flushed) }, t2.2)
      | _ => ({ block := none, clipped := false }, count Ctr.quBlocksRefused 1 t.2)

end Sys2Proof.Machine
end

