-- ==== Sys2Proof/Machine/Tables.lean ====
section
/-! DEFINITION. Tables, shards, row slots, placement and the Almanac (chapter 02). -/

namespace Sys2Proof.Machine

/-! ## Configurations by step -/

/-- The configuration of step `s`: the pending one from its step on (R419), and for steps before a recent change the one
before it (R60). -/
def confAt (e : Eng) (s : Nat) : Conf :=
  match (e.ls.prev.filter (fun p => decide (s < p.1))).getLast? with
  | some p => p.2
  | none =>
    match e.ls.pend with
    | some (n, c) => if n ≤ s then c else e.ls.active
    | none => e.ls.active

/-- A table descriptor, parsed (R35). -/
structure TD where
  id : Nat
  indirect : Bool
  rotated : Bool
  dim : Nat
  groupCode : Nat
  mask : Nat
  fmtH : Nat
  fmtW : Nat
  fmtC : Nat
  init : Nat
  mode : Nat
  cb : Nat
  shards : Nat
  rows : Nat
  bandOff : Nat
  bandLen : Nat
  scale : Nat
  profile : Nat
  deriving DecidableEq, Repr

/-- Parse a 64-byte table descriptor (R35). -/
def parseTD (d : List Byte) : TD :=
  { id := num d 2 2, indirect := bit (num d 1 1) 0, rotated := bit (num d 1 1) 1, dim := num d 4 2
    groupCode := num d 6 1, mask := num d 7 1, fmtH := num d 8 1, fmtW := num d 9 1, fmtC := num d 10 1
    init := num d 11 1, mode := num d 12 1, cb := num d 13 1, shards := num d 14 2, rows := num d 16 5
    bandOff := num d 24 4, bandLen := num d 28 4, scale := num d 32 2, profile := num d 34 1 }

/-- The group size G (R32, R35). -/
def TD.group (t : TD) : Nat := 32 * 2 ^ t.groupCode

/-- Groups of a row. -/
def TD.groups (t : TD) : Nat := t.dim / t.group

/-- The format of a class: 0 H, 1 W, 2 C, 3 I16 (R35, R38). -/
def TD.fmtOf (t : TD) (cls : Nat) : Nat :=
  match cls with
  | 0 => t.fmtH
  | 1 => t.fmtW
  | 2 => t.fmtC
  | _ => 9

/-- The class of a format code (R38). -/
def classOf (fmt : Nat) : Nat := if fmt ≤ 2 then 0 else if fmt ≤ 6 then 1 else if fmt ≤ 8 then 2 else 3

/-- A class is permitted by the class mask. -/
def TD.permits (t : TD) (cls : Nat) : Bool := bit t.mask cls

/-- The permitted classes. -/
def TD.classes (t : TD) : List Nat := [0, 1, 2, 3].filter t.permits

/-- A format code is the table's format of a permitted class (R45). -/
def TD.hasFmt (t : TD) (fmt : Nat) : Bool := t.classes.any (fun c => t.fmtOf c == fmt)

/-- Formats 0x3 to 0x8 are group-scaled (R38). -/
def grouped (fmt : Nat) : Bool := decide (3 ≤ fmt ∧ fmt ≤ 8)

/-- Payload bytes p (R40). -/
def payloadLen (dim fmt : Nat) : Nat :=
  match fmt with
  | 1 => dim * 4
  | 2 => dim * 2
  | 9 => dim * 2
  | 7 => dim / 2
  | 8 => dim / 2
  | _ => dim

/-- Group codes c of a slot (R39). -/
def TD.codeLen (t : TD) (fmt : Nat) : Nat := if grouped fmt then t.groups else 0

/-- The slot size S in bytes (R40). -/
def TD.slotSize (t : TD) (fmt : Nat) : Nat := (8 + t.codeLen fmt + payloadLen t.dim fmt + 31) / 32 * 32

/-- Slot size of a format in 32-byte units. -/
def TD.slotUnits (t : TD) (fmt : Nat) : Nat := t.slotSize fmt / 32

/-- The format of a direct-placed table's one class. -/
def TD.directFmt (t : TD) : Nat := t.fmtOf (t.classes.headD 3)

/-- The descriptor of a table in a configuration. -/
def tdIn (c : Conf) (t : Nat) : Option TD := (Tab.find? c.tables t).map parseTD

/-- The descriptor of a table for commands of step `s` (R60). -/
def tdAt (e : Eng) (s t : Nat) : Option TD := tdIn (confAt e s) t

/-! ## Shards and local indices (R34) -/

/-- L = ⌈R ÷ n⌉. -/
def TD.perShard (t : TD) : Nat := ceilDiv t.rows (max 1 t.shards)

/-- Shard and shard-local index of a global row (R34). -/
def TD.shardOf (t : TD) (i : Nat) : Nat × Nat :=
  match t.mode with
  | 0 => (0, i)
  | 1 => (i / t.perShard, i % t.perShard)
  | _ => (i % t.shards, i / t.shards)

/-- The pair that owns a shard, by its even node ID. -/
def ownerOf (c : Conf) (t s : Nat) : Option Nat :=
  (c.shardMap.find? (fun m => m.table == t && m.shard == s)).map (·.owner)

/-- Put `x` into an ascending list. -/
def insertNat (x : Nat) : List Nat → List Nat
  | [] => [x]
  | y :: t => if x ≤ y then x :: y :: t else y :: insertNat x t

/-- A list in ascending order. -/
def sortNat (l : List Nat) : List Nat := l.foldr insertNat []

/-- The shards of a table that a pair owns, in ascending number. -/
def shardsOwned (c : Conf) (t pair : Nat) : List Nat :=
  sortNat ((c.shardMap.filter (fun m => m.table == t && m.owner / 2 == pair)).map (·.shard))

/-- Local index of a global row at the pair that owns its shard (R34). -/
def localIndex (c : Conf) (t : TD) (i : Nat) : Nat :=
  let s := t.shardOf i
  let pair := (ownerOf c t.id s.1).getD 0 / 2
  ((shardsOwned c t.id pair).findIdx (· == s.1)) * t.perShard + s.2

/-- Global row of a local index of a pair. -/
def globalRow (c : Conf) (t : TD) (pair li : Nat) : Nat :=
  let L := max 1 t.perShard
  let s := nth (shardsOwned c t.id pair) (li / L)
  match t.mode with
  | 0 => li
  | 1 => s * L + li % L
  | _ => li % L * t.shards + s

/-- This engine's pair. -/
def ownPair (e : Eng) : Nat := e.fb.node / 2

/-- Rows of one shard (R34). -/
def TD.shardRows (t : TD) (s : Nat) : Nat :=
  match t.mode with
  | 0 => t.rows
  | 1 => min t.perShard (t.rows - s * t.perShard)
  | _ => if s < t.rows then (t.rows - s + t.shards - 1) / t.shards else 0

/-- One more than the largest local index of a pair, 0 where it has no row (R34). -/
def localTop (c : Conf) (t : TD) (pair : Nat) : Nat :=
  (shardsOwned c t.id pair).zipIdx.foldl (fun a p => if t.shardRows p.1 = 0 then a else max a (p.2 * t.perShard + t.shardRows p.1)) 0

/-- Every local row this engine's pair owns of a table. -/
def localRows (c : Conf) (t : TD) (pair : Nat) : List Nat :=
  (shardsOwned c t.id pair).zipIdx.flatMap (fun p =>
    (List.range (t.shardRows p.1)).map (fun j => p.2 * t.perShard + j))

/-- Lₛ = k × L, with k the most shards of the table any pair owns (R48). -/
def localSpace (c : Conf) (t : TD) : Nat :=
  let owners := (c.shardMap.filter (fun m => m.table == t.id)).map (·.owner)
  let k := owners.foldl (fun a o => max a (owners.countP (· == o))) 0
  k * t.perShard

/-! ## CRC-32C (R42) -/

/-- One bit of the reflected CRC-32C. -/
def crcBits : Nat → Nat → Nat
  | 0, c => c
  | k + 1, c => crcBits k (if c % 2 = 1 then (c / 2) ^^^ 0x82F63B78 else c / 2)

/-- CRC-32C over bytes: initial value all ones, result inverted (R42). -/
def crc32c (bs : List Byte) : Nat :=
  (bs.foldl (fun c b => crcBits 8 (c ^^^ b.toNat)) 0xFFFFFFFF) ^^^ 0xFFFFFFFF

/-! ## Slots (R39 to R45) -/

/-- A complete slot: header, codes, payload, zero padding, computed crc (R39, R43). -/
def mkSlot (t : TD) (fmt ver scale2 : Nat) (codes : List Nat) (payload : List Byte) : List Byte :=
  let b := leBytes 2 scale2 ++ leBytes 1 ver ++ leBytes 1 fmt ++ codes.flatMap (fun k => leBytes 1 k) ++ payload
  let b := b ++ zeros (t.slotSize fmt - 4 - b.length)
  leBytes 4 (crc32c b) ++ b

/-- The crc of a slot checks. -/
def slotCrcOk (s : List Byte) : Bool := crc32c (s.drop 4) == num s 0 4

/-- The format field: bits 3:0 of byte 7; bits 7:4 are reserved, and the engine does not check them (R39, R43). -/
def slotFormat (s : List Byte) : Nat := num s 7 1 % 16

/-- The row_version field. -/
def slotVersion (s : List Byte) : Nat := num s 6 1

/-- The same slot under another row_version, with its crc recomputed (R44, R125). -/
def withVersion (v : Nat) (s : List Byte) : List Byte :=
  let b := slice s 4 2 ++ leBytes 1 v ++ s.drop 7
  leBytes 4 (crc32c b) ++ b

/-- The poison pattern and a lost row are slots no read accepts; a lost row has format field 0 (R174). -/
def lostSlot (t : TD) (fmt ver : Nat) : List Byte :=
  let b := zeros 2 ++ leBytes 1 ver ++ zeros (t.slotSize fmt - 7)
  leBytes 4 (crc32c b) ++ b

/-- The bytes of an FP8 block (R74, R168). -/
def blockBytes (b : Block) : List Byte :=
  leBytes 2 b.scale2 ++ b.codes.flatMap (fun k => leBytes 1 k) ++ b.elems.flatMap (fun q => leBytes 1 q)

/-- The codebook entries a format of the table uses (R37, R190). -/
def codebook (c : Conf) (t : TD) (n : Nat) : List Nat :=
  match Tab.find? c.codebooks t.cb with
  | some d => (List.range n).map (fun i => num d (2 * i) 2)
  | none => []

/-- The element format of a group-scaled format code (R38). -/
def elemOf (c : Conf) (t : TD) (fmt : Nat) : Elem :=
  match fmt with
  | 3 => .int8
  | 4 => .e4m3
  | 5 => .e5m2
  | 6 => .cb (codebook c t 256)
  | 7 => .int4
  | _ => .cb (codebook c t 16)

/-- The raw element codes of a payload. -/
def elemCodes (fmt : Nat) (p : List Byte) : List Nat :=
  if fmt = 7 ∨ fmt = 8 then unpackNibbles p else p.map (·.toNat)

/-- The payload of raw element codes. -/
def elemBytes (fmt : Nat) (q : List Nat) : List Byte :=
  if fmt = 7 ∨ fmt = 8 then packNibbles q else q.map (BitVec.ofNat 8)

/-- The element values of a slot (R38): exact. -/
def slotValues (c : Conf) (t : TD) (s : List Byte) : List FV :=
  let fmt := slotFormat s
  let cl := t.codeLen fmt
  let pl := slice s (8 + cl) (payloadLen t.dim fmt)
  let s2 := ofBf16 (num s 4 2)
  match fmt with
  | 1 => (pieces 4 pl).map (fun b => (fromBits 8 23 (leNat b)).mul s2)
  | 2 => (pieces 2 pl).map (fun b => (ofBf16 (leNat b)).mul s2)
  | 9 => (pieces 2 pl).map (fun b => (ofInt (sext 16 (leNat b))).mul (ofBf16 t.scale))
  | _ => Block.values (elemOf c t fmt) t.group
      { scale2 := num s 4 2, codes := (slice s 8 cl).map (·.toNat), elems := elemCodes fmt pl }

/-- Write every non-finite value as 0, counted (R198). -/
def dropNonfinite (v : List FV) : N (List FV) :=
  mapN (fun x => if x.finite then pure x else do nonfin 1; return .zero) v

/-- One I16 element: the quotient rounded, clamped, a clamp counted as a clip (R198). -/
def i16Elem (scale : FV) (x : FV) : N (List Byte) :=
  match x, scale with
  | .fin n m e, .fin k d g => do
    let r : Int := if d = 0 then 0 else ratRound m d (e - g)
    let v := if n != k then -r else r
    let w := max (-32768) (min 32767 v)
    if v ≠ w then clip 1
    return leBytes 2 (twos 16 w)
  | _, _ => pure [0, 0]

/-- A row the engine writes: values narrowed to a format and laid out as a slot (R197, R198). -/
def encodeRow (c : Conf) (t : TD) (fmt ver : Nat) (v : List FV) : N (List Byte) := do
  let v ← dropNonfinite v
  match fmt with
  | 1 =>
    let w ← mapN rnd32 v
    return mkSlot t fmt ver 0x3F80 [] (w.flatMap (fun x => leBytes 4 (toWord x).toNat))
  | 2 =>
    let w ← mapN (rnd fmtBf16) v
    return mkSlot t fmt ver 0x3F80 [] (w.flatMap (fun x => leBytes 2 (toBf16 x)))
  | 9 =>
    let w ← mapN (i16Elem (ofBf16 t.scale)) v
    return mkSlot t fmt ver 0 [] w.flatten
  | _ =>
    let b ← encOwn (elemOf c t fmt) t.group v
    return mkSlot t fmt ver b.scale2 b.codes (elemBytes fmt b.elems)

/-- The zero row of a format (R57). -/
def zeroSlot (t : TD) (fmt : Nat) : List Byte :=
  mkSlot t fmt 0 (if fmt = 9 then 0 else 0x3F80) (List.replicate (t.codeLen fmt) 0) (zeros (payloadLen t.dim fmt))

/-- A supplied slot is complete: format permitted, version 0, padding and reserved bits zero, crc right (R124, R155). -/
def slotComplete (t : TD) (s : List Byte) (anyVersion : Bool) : Bool :=
  let fmt := slotFormat s
  let size := t.slotSize fmt
  let used := 8 + t.codeLen fmt + payloadLen t.dim fmt
  t.hasFmt fmt && decide (size ≤ s.length) && slotCrcOk (s.take size) && allZero s used (size - used) &&
    (anyVersion || slotVersion s == 0) && (fmt != 9 || num s 4 2 == 0) && num s 7 1 / 16 == 0

/-! ## Placement (R46 to R51, R255, R256) -/

/-- The stack address of a unit of a channel (R256). -/
def stackAddr (e : Eng) (ch o : Nat) : Nat := (((o / 8) * e.variant.channels + ch) * 8 + o % 8) * 32

/-- Channel and offset, in 32-byte units, of a stack address (R256). -/
def unitOf (e : Eng) (a : Nat) : Nat × Nat :=
  let u := a / 32
  let w := u / 8
  (w % e.variant.channels, w / e.variant.channels * 8 + u % 8)

/-- Global stack number of a channel (R46, R254). -/
def stackOf (ch : Nat) : Nat := ch / 64

/-- Where a unit lies in its stack: HBM4 channel, pseudo-channel half, column, row, bank, and the parts of the bank number (R254, R255). -/
structure BankPlace where
  stack : Nat
  channel : Nat
  half : Nat
  column : Nat
  row : Nat
  bank : Nat
  bankGroup : Nat
  bankInGroup : Nat
  stackId : Nat
  deriving DecidableEq, Repr

/-- The place of offset `o`, in 32-byte units, of global channel `ch` (R254, R255). -/
def bankPlace (ch o : Nat) : BankPlace :=
  let bank := (fld o 5 6 + fld o 11 6) % 64
  { stack := stackOf ch, channel := ch % 64 / 2, half := ch % 2, column := fld o 0 5, row := fld o 11 14, bank
    bankGroup := fld bank 0 2, bankInGroup := fld bank 2 2, stackId := fld bank 4 2 }

/-- Die of a channel (R46). -/
def dieOf (ch : Nat) : Nat := ch / 256

/-- Read `n` units from a channel's offset. -/
def readUnits (e : Eng) (ch o : Nat) : Nat → List Byte
  | 0 => []
  | n + 1 => stackRead e (stackAddr e ch o) 32 ++ readUnits e ch (o + 1) n

/-- Write units from a channel's offset. -/
def writeUnits (ch o : Nat) : List (List Byte) → Eng → Eng
  | [], e => e
  | u :: t, e => writeUnits ch (o + 1) t (stackPut (stackAddr e ch o) u e)

/-- Stack bytes read or written, counted (R390). -/
def stackBytes (n : Nat) (e : Eng) : Eng := count Ctr.ctJobStackBytes n e

/-- Write a slot at a place. -/
def writeSlotAt (ch o : Nat) (s : List Byte) (e : Eng) : Eng :=
  stackBytes s.length (writeUnits ch o (pieces 32 s) e)

/-- The ID that places a table: a remapped table keeps its source's (R49, R129). Log 12. -/
def placeId (e : Eng) (t : Nat) : Nat := Tab.get t e.store.place t

/-- Channel and offset of stripe item `i` with `units` units each (R49). -/
def bandPlace (e : Eng) (t : TD) (i units : Nat) : Nat × Nat :=
  let P := e.variant.channels
  let q := i / P
  let x := (q * 0x9E3779B9 + placeId e t.id * 0x85EBCA6B) % 2 ^ 32
  ((i % P + x / 2 ^ 16 % P) % P, t.bandOff + q * units)

/-- Where a granule lies (R51). -/
def granulePlace (e : Eng) (t : TD) (g : Nat) : Nat × Nat := bandPlace e t g 1

/-- The home die of a row: its slot's, or its granule's (R52, R106). -/
def homeDie (e : Eng) (t : TD) (i : Nat) : Nat :=
  if t.indirect then dieOf (granulePlace e t (i / 4)).1 else dieOf (bandPlace e t i (t.slotUnits t.directFmt)).1

/-! ## Almanac entries (R53, R54) -/

/-- An Almanac entry (R53). -/
structure AlEntry where
  version : Nat
  valid : Bool
  epoch : Bool
  fmt : Nat
  units : Nat
  channel : Nat
  offset : Nat
  deriving DecidableEq, Repr

/-- The bits of an entry above its check. -/
def AlEntry.bits (a : AlEntry) : Nat :=
  at_ a.version 56 + flag a.valid 55 + flag a.epoch 54 + at_ a.fmt 50 + at_ (a.units - 1) 43 + at_ a.channel 32 + at_ a.offset 7

/-- The check of an entry: over it, the table ID and the local row (R53). -/
def alCheck (bits t i : Nat) : Nat := crc32c (leBytes 8 bits ++ leBytes 2 t ++ leBytes 6 i) % 128

/-- The 64 bits of an entry with its check. -/
def AlEntry.word (a : AlEntry) (t i : Nat) : Nat := a.bits + alCheck a.bits t i

/-- The fields of an entry's bits. -/
def parseEntry (w : Nat) : AlEntry :=
  { version := fld w 56 8, valid := bit w 55, epoch := bit w 54, fmt := fld w 50 4, units := fld w 43 7 + 1
    channel := fld w 32 11, offset := fld w 7 25 }

/-- The entry is valid and passes its check (R45, R53). -/
def entryGood (w t i : Nat) : Bool := bit w 55 && alCheck (w - w % 128) t i == w % 128

/-- Stack address of a row's Almanac entry (R51). -/
def entryAddr (e : Eng) (t : TD) (i : Nat) : Nat :=
  let p := granulePlace e t (i / 4)
  stackAddr e p.1 p.2 + 8 * (i % 4)

/-- The bits of a row's entry. -/
def readEntry (e : Eng) (t : TD) (i : Nat) : Nat := leNat (stackRead e (entryAddr e t i) 8)

/-- Write a row's entry, as one 8-byte write (R54). -/
def writeEntry (t : TD) (i w : Nat) (e : Eng) : Eng := stackBytes 8 (stackPut (entryAddr e t i) (leBytes 8 w) e)

/-! ## Rows -/

/-- Where a row's slot lies: channel, offset, format and version. None where the entry fails (R45). -/
structure Loc where
  channel : Nat
  offset : Nat
  fmt : Nat
  units : Nat
  version : Nat
  deriving DecidableEq, Repr

/-- The slot a row's placement or entry names. -/
def rowLoc (e : Eng) (t : TD) (i : Nat) : Option Loc :=
  if t.indirect then
    let w := readEntry e t i
    let a := parseEntry w
    if entryGood w (placeId e t.id) i then some ⟨a.channel, a.offset, a.fmt, a.units, a.version⟩ else none
  else
    let p := bandPlace e t i (t.slotUnits t.directFmt)
    some ⟨p.1, p.2, t.directFmt, t.slotUnits t.directFmt, 0⟩

/-- A slot read by a location passes R45. -/
def slotGood (t : TD) (l : Loc) (s : List Byte) : Bool :=
  slotCrcOk s && t.hasFmt (slotFormat s) && (!t.indirect || (slotFormat s == l.fmt && slotVersion s == l.version)) &&
    s.length == t.slotSize (slotFormat s)

/-- The slot bytes at a location. -/
def slotAt (e : Eng) (l : Loc) : List Byte := readUnits e l.channel l.offset l.units

/-- The slot of a row, if its entry and it pass R45. -/
def readRow (e : Eng) (t : TD) (i : Nat) : Option (List Byte) :=
  match rowLoc e t i with
  | some l => if slotGood t l (slotAt e l) then some (slotAt e l) else none
  | none => none

end Sys2Proof.Machine
end

