-- ==== Sys2Proof/Machine/Digest.lean ====
section
/-! DEFINITION. The configuration digest and the route hash (R417), with SHA-384 as FIPS 180-4 defines it (log 17). -/

namespace Sys2Proof.Machine

/-- A 64-bit word of SHA-384. -/
abbrev W64 := BitVec 64

/-- `n` words from one number, the most significant first. -/
def wordsOf : Nat → Nat → List W64
  | 0, _ => []
  | n + 1, v => BitVec.ofNat 64 (v / 2 ^ (64 * n)) :: wordsOf n v

/-- Round constants, five to a row: the first 64 fractional bits of the cube roots of the first 80 primes. -/
def shaK : List W64 :=
  ([0x428a2f98d728ae227137449123ef65cdb5c0fbcfec4d3b2fe9b5dba58189dbbc3956c25bf348b538,
    0x59f111f1b605d019923f82a4af194f9bab1c5ed5da6d8118d807aa98a303024212835b0145706fbe,
    0x243185be4ee4b28c550c7dc3d5ffb4e272be5d74f27b896f80deb1fe3b1696b19bdc06a725c71235,
    0xc19bf174cf692694e49b69c19ef14ad2efbe4786384f25e30fc19dc68b8cd5b5240ca1cc77ac9c65,
    0x2de92c6f592b02754a7484aa6ea6e4835cb0a9dcbd41fbd476f988da831153b5983e5152ee66dfab,
    0xa831c66d2db43210b00327c898fb213fbf597fc7beef0ee4c6e00bf33da88fc2d5a79147930aa725,
    0x06ca6351e003826f142929670a0e6e7027b70a8546d22ffc2e1b21385c26c9264d2c6dfc5ac42aed,
    0x53380d139d95b3df650a73548baf63de766a0abb3c77b2a881c2c92e47edaee692722c851482353b] ++
    [0xa2bfe8a14cf10364a81a664bbc423001c24b8b70d0f89791c76c51a30654be30d192e819d6ef5218,
    0xd69906245565a910f40e35855771202a106aa07032bbd1b819a4c116b8d2d0c81e376c085141ab53,
    0x2748774cdf8eeb9934b0bcb5e19b48a8391c0cb3c5c95a634ed8aa4ae3418acb5b9cca4f7763e373,
    0x682e6ff3d6b2b8a3748f82ee5defb2fc78a5636f43172f6084c87814a1f0ab728cc702081a6439ec,
    0x90befffa23631e28a4506cebde82bde9bef9a3f7b2c67915c67178f2e372532bca273eceea26619c,
    0xd186b8c721c0c207eada7dd6cde0eb1ef57d4f7fee6ed17806f067aa72176fba0a637dc5a2c898a6,
    0x113f9804bef90dae1b710b35131c471b28db77f523047d8432caab7b40c724933c9ebe0a15c9bebc,
    0x431d67c49c100d4c4cc5d4becb3e42b6597f299cfc657e2a5fcb6fab3ad6faec6c44198c4a475817]).flatMap (wordsOf 5)

/-- Initial hash value, four to a row: the first 64 fractional bits of the square roots of the ninth to sixteenth primes. -/
def shaIv : List W64 :=
  [0xcbbb9d5dc1059ed8629a292a367cd5079159015a3070dd17152fecd8f70e5939, 0x67332667ffc00b318eb44a8768581511db0c2e0d64f98fa747b5481dbefa4fa4].flatMap (wordsOf 4)

/-- A whole number from bytes, most significant first. -/
def beNat (bs : List Byte) : Nat := bs.foldl (fun a b => a * 256 + b.toNat) 0

/-- `n` bytes of a whole number, most significant first. -/
def beBytes (n v : Nat) : List Byte := (leBytes n v).reverse

/-- The exclusive or of a word's rotations right by some amounts, with `z`: all four sigma functions. -/
def rotXor (z x : W64) (by_ : List Nat) : W64 := by_.foldl (fun acc n => acc ^^^ x.rotateRight n) z

/-- The next word of the schedule, from the sixteen before it with the oldest first. -/
def shaNext (w : List W64) : W64 :=
  match w with
  | [w0, w1, _, _, _, _, _, _, _, w9, _, _, _, _, w14, _] => w0 + rotXor (w1 >>> 7) w1 [1, 8] + w9 + rotXor (w14 >>> 6) w14 [19, 61]
  | _ => 0

/-- What a round makes of the eight working words, given the round's constant and schedule word added. Where `e` has a 1 its choice
takes `f`, elsewhere `g`; the majority of three is what two of them have. -/
def shaRound (kw : W64) (h : List W64) : List W64 :=
  match h with
  | [a, b, c, d, e, f, g, x] =>
    let t := x + kw + rotXor 0 e [14, 18, 41] + (g ^^^ (e &&& (f ^^^ g)))
    [t + rotXor 0 a [28, 34, 39] + ((a &&& b) ||| (c &&& (a ||| b))), a, b, c, d + t, e, f, g]
  | _ => h

/-- The rounds of a block over the constants: the schedule window moves by one word a round. -/
def shaRounds : List W64 → List W64 → List W64 → List W64
  | [], _, h => h
  | _ :: _, [], h => h
  | k :: ks, w :: ws, h => shaRounds ks (ws ++ [shaNext (w :: ws)]) (shaRound (k + w) h)

/-- One 128-byte block is added into the hash value. -/
def shaBlock (h : List W64) (blk : List Byte) : List W64 :=
  List.zipWith (· + ·) h (shaRounds shaK (wordsOf 16 (beNat blk)) h)

/-- A message with its padding. -/
def shaPad (m : List Byte) : List Byte :=
  let z := (128 - (m.length + 17) % 128) % 128
  m ++ [0x80] ++ zeros z ++ beBytes 16 (8 * m.length)

/-- SHA-384: 48 bytes. -/
def sha384 (m : List Byte) : List Byte :=
  (((pieces 128 (shaPad m)).foldl shaBlock shaIv).take 6).flatMap (fun w => beBytes 8 w.toNat)

/-- One section of the canonical string (R417). -/
def digestItem (n : Nat) (c : List Byte) : List Byte := leBytes 4 n ++ leBytes 4 c.length ++ c

/-- The membership item, as it was staged (R418). -/
def membershipItem (c : Conf) : List Byte :=
  if c.members.isEmpty then []
  else leBytes 8 c.jobId ++ leBytes 4 c.members.length ++ zeros 4 ++ c.members.flatMap (leBytes 4)

/-- The order of the shard map: by table, then shard. -/
def shardLe (a b : ShardEntry) : Bool := decide (a.table < b.table) || (a.table == b.table && decide (a.shard ≤ b.shard))

/-- Put an entry into a sorted shard map. -/
def insertShard (x : ShardEntry) : List ShardEntry → List ShardEntry
  | [] => [x]
  | y :: t => if shardLe x y then x :: y :: t else y :: insertShard x t

/-- A shard map in order. -/
def sortShards (l : List ShardEntry) : List ShardEntry := l.foldr insertShard []

/-- The canonical string of a configuration on this engine (R417). -/
def canonical (e : Eng) (c : Conf) : List Byte :=
  digestItem 1 (leBytes 8 e.build.toNat) ++ digestItem 2 (membershipItem c) ++ digestItem 3 c.plan ++
    digestItem 4 ((sortShards c.shardMap).flatMap (fun m => leBytes 2 m.table ++ leBytes 2 m.shard ++ leBytes 4 m.owner)) ++
    digestItem 5 (c.tables.flatMap (·.2)) ++
    digestItem 6 (c.codebooks.flatMap (fun p => leBytes 1 p.1 ++ zeros 63 ++ p.2)) ++
    digestItem 7 (c.profiles.flatMap (·.2)) ++
    digestItem 8 (leBytes 1 e.quDefault.1 ++ leBytes 1 e.quDefault.2.1 ++ leBytes 1 e.quDefault.2.2 ++ [0] ++ c.slots.flatMap (·.2))

/-- The digest of a configuration: bytes 0 to 7 of the hash, read little-endian (R417). -/
def digestOf (e : Eng) (c : Conf) : BitVec 64 := BitVec.ofNat 64 (leNat ((sha384 (canonical e c)).take 8))

/-- The digest a pending configuration will have: an activated build is reported from the step it opens (R417, R486). -/
def pendDigest (e : Eng) (c : Conf) : BitVec 64 := digestOf { e with build := e.nextBuild.getD e.build } c

/-- The hash of the engine's own route entries, as they are staged, in ascending order; 0 before any (R417, R427).
Log 37. -/
def routeHash (r : Tab Nat) : BitVec 64 :=
  if r.isEmpty then 0
  else BitVec.ofNat 64 (leNat ((sha384 (r.flatMap (fun p => leBytes 4 p.1 ++ zeros 4 ++ leBytes 8 p.2))).take 8))

end Sys2Proof.Machine
end

