-- ==== Sys2Proof/Machine/Operands.lean ====
section
/-! DEFINITION. Operand forms of the host commands: descriptor fields, reserved-field checks (R11, R359), index list
blocks (R69 to R71), and reading and writing the host memory a descriptor names. -/

namespace Sys2Proof.Machine

/-! ## Descriptor fields -/

/-- The opcode of a descriptor (R356). -/
def opcode (d : Desc) : Nat := num d 0 1

/-- The bytes after the header that a command reserves, as (offset, length), by opcode (each command's descriptor
table). Fields that are zero unless a flag is set are reserved while it is clear. -/
def reservedBytes (d : Desc) : List (Nat × Nat) :=
  match opcode d with
  | 0x00 => [(16, 48)]
  | 0x01 => [(22, 42)]
  | 0x02 => [(22, 2), (28, 36)]
  | 0x03 => [(24, 40)]
  | 0x10 => [(60, 4)]
  | 0x11 => [(18, 1), (28, 4), (48, 16)]
  | 0x18 => [(22, 2), (48, 16)]
  | 0x19 => [(19, 1), (28, 4), (48, 16)]
  | 0x20 => [(23, 1), (28, 4), (40, 24)]
  | 0x21 => [(18, 46)]
  | 0x22 => [(19, 1), (22, 2), (28, 4), (40, 24)]
  | 0x23 => [(18, 2), (28, 4), (48, 16)]
  | 0x24 => [(20, 44)]
  | 0x30 => [(19, 1), (22, 2), (32, 32), if num d 18 1 = 0 then (20, 2) else (24, 8)]
  | 0x31 => [(17, 47)]
  | 0x32 => if num d 18 1 = 2 then [] else [(19, 5)]
  | 0x33 => (32, 32) :: (if num d 18 1 = 2 then [] else [(19, 5)])
  | 0x34 => [(19, 1), (22, 2), (28, 4), (56, 8)]
  | 0x40 =>
    (if num d 21 1 = 0 then [(40, 8)] else []) ++ (if bit (num d 24 2) 6 then [] else [(26, 2)]) ++
      (if bit (num d 24 2) 3 then [] else [(60, 4)])
  | 0x41 => [(56, 8)]
  | 0x42 => (25, 1) :: ((if bit (num d 24 1) 1 then [] else [(26, 2)]) ++ (if bit (num d 24 1) 2 then [] else [(56, 8)]))
  | 0x43 => (23, 1) :: (52, 4) :: (if bit (num d 21 1) 1 then [] else [(56, 8)])
  | 0x50 => [(17, 3), (24, 8), (40, 24)]
  | 0x51 => [(24, 40)]
  | _ => []

/-- The reserved bits inside a byte field, as (offset, bytes, first bit, bits), by opcode. -/
def reservedBits (d : Desc) : List (Nat × Nat × Nat × Nat) :=
  match opcode d with
  | 0x10 => [(21, 1, 6, 2), (22, 2, 10, 6)]
  | 0x11 => [(21, 1, 1, 7), (22, 2, 10, 6)]
  | 0x18 => [(21, 1, 5, 3)]
  | 0x19 => [(21, 1, 2, 6)]
  | 0x20 => [(21, 1, 1, 7)]
  | 0x22 => [(21, 1, 1, 7)]
  | 0x23 => [(21, 1, 1, 7)]
  | 0x32 => [(20, 4, 20, 12)]
  | 0x33 => [(20, 4, 20, 12)]
  | 0x34 => [(18, 1, 2, 6)]
  | 0x40 => [(23, 1, 5, 3), (24, 2, 7, 9), (26, 2, 10, 6)]
  | 0x41 => [(17, 1, 1, 7)]
  | 0x42 => [(23, 1, 3, 5), (24, 1, 3, 5), (26, 2, 10, 6)]
  | 0x43 => [(21, 1, 2, 6), (24, 2, 10, 6)]
  | _ => []

/-- Every reserved field of the header and descriptor is zero (R359 item 4). A field that a descriptor table says is zero in
some forms counts as reserved in those forms. Log 48. -/
def reservedOk (d : Desc) : Bool :=
  num d 2 2 / 2 == 0 && (reservedBytes d).all (fun r => allZero d r.1 r.2) &&
    (reservedBits d).all (fun r => fld (num d r.1 r.2.1) r.2.2.1 r.2.2.2 == 0)

/-- The opcodes of R358. -/
def opcodes : List Nat :=
  [0x00, 0x01, 0x02, 0x03, 0x10, 0x11, 0x18, 0x19, 0x20, 0x21, 0x22, 0x23, 0x24, 0x30, 0x31, 0x32, 0x33, 0x34, 0x40,
    0x41, 0x42, 0x43, 0x50, 0x51]

/-- State-changing opcodes (R358). -/
def stateChanging (d : Desc) : Bool :=
  [0x01, 0x02, 0x18, 0x19, 0x20, 0x21, 0x22, 0x23, 0x24, 0x34, 0x50, 0x51].contains (opcode d)

/-- A refusal a command's own checks give: status, detail, and what else its record holds. -/
structure Refuse where
  status : Nat
  detail : Nat := 0
  count : Nat := 0
  errTable : Nat := 0xFFFF
  errRow : Nat := 0xFFFFFFFFFF
  deriving DecidableEq, Repr

/-- The first check of a list that fails. -/
def firstFail : List (Bool × Refuse) → Option Refuse
  | [] => none
  | (ok, r) :: t => if ok then firstFail t else some r

/-- The header checks after seq, in their order (R359). -/
def headerFail (d : Desc) : Option Refuse :=
  firstFail [(opcodes.contains (opcode d), { status := Status.opcodeInvalid }), (num d 1 1 == 1, { status := Status.versionInvalid }),
    (reservedOk d, { status := Status.reservedField })]

/-- Complete with a refusal. -/
def refuseWith (id : Nat) (r : Refuse) (e : Eng) : Eng :=
  count Ctr.hlCmdsRefused 1 (finish id
    { status := r.status, detail := r.detail, count := r.count, errTable := r.errTable, errRow := r.errRow } e)

/-- The accepted command cannot go on yet: it is run again when it is woken. -/
def park (id : Nat) (e : Eng) : Eng := setWork id .parked e

/-- The step of a command accepted now is known; before the first STEP_OPEN it is not (R138 item 3). -/
def stepKnown (e : Eng) : Bool := e.steps.openStep.isSome || e.steps.lastOpened.isSome

/-! ## Host memory named by a descriptor -/

/-- A write of host memory: host-virtual address and bytes. -/
structure HWrite where
  addr : Nat
  data : List Byte
  deriving DecidableEq, Repr

/-- Write host memory at host-virtual addresses, once every one of them translates; false where the command waits
(R320, R330). -/
def writeHost (id : Nat) (ws : List HWrite) (e : Eng) : Eng × Bool :=
  let q := translateHost (.cmd id) (ws.map (fun w => ⟨w.addr, w.data.length, 1⟩)) e
  match q.2 with
  | none => (q.1, false)
  | some ps => ((ps.zip ws).foldl (fun e p => writePieces id p.1 p.2.data e) q.1, true)

/-- Read host memory at host-virtual spans, once every one of them translates; none where the requester waits. -/
def readHost (w : Waiter) (ss : List (Nat × Nat)) (e : Eng) : Eng × Option (List (List Byte)) :=
  let q := translateHost w (ss.map (fun s => ⟨s.1, s.2, 0⟩)) e
  match q.2 with
  | none => (q.1, none)
  | some ps => (hostIn (ps.flatten.foldl (fun a p => a + readBytes p.addr p.len) 0) q.1, some (ps.map (readPieces q.1)))

/-! ## Index list blocks (R69 to R71) -/

/-- One position of an index list: its bag, its place in the bag, its global row, its weight. -/
structure Pos where
  bag : Nat
  pos : Nat
  row : Nat
  weight : Option FV
  deriving DecidableEq, Repr

/-- Parameters of an index list block. -/
structure ListForm where
  bags : Nat
  n : Nat
  wide : Bool
  weights : Bool
  wbf16 : Bool
  pred : Bool
  high : Nat
  deriving DecidableEq, Repr

/-- The form that the flags of LOOKUP_POOL and UPDATE_GRAD select (R72, R142). -/
def listForm (d : Desc) : ListForm :=
  let f := num d 21 1
  { bags := num d 24 4, n := num d 28 4, wide := bit f 0, weights := bit f 1, wbf16 := bit f 2, pred := bit f 3
    high := num d 20 1 }

/-- Bytes of an index entry. -/
def ListForm.entry (f : ListForm) : Nat := if f.wide then 8 else 4

/-- Offset of the indices array (R69). -/
def ListForm.offIdx (f : ListForm) : Nat := align64 (4 * (f.bags + 1))

/-- Offset of the weights array (R69). -/
def ListForm.offW (f : ListForm) : Nat := f.offIdx + align64 (f.entry * f.n)

/-- Bytes of one weight. -/
def ListForm.wsize (f : ListForm) : Nat := if f.wbf16 then 2 else 4

/-- Offset of the predicate (R69). -/
def ListForm.offP (f : ListForm) : Nat := f.offW + (if f.weights then align64 (f.wsize * f.n) else 0)

/-- Bytes of the block, to the end of its last array. -/
def ListForm.size (f : ListForm) : Nat :=
  if f.pred then f.offP + (f.bags + 7) / 8
  else if f.weights then f.offW + f.wsize * f.n
  else f.offIdx + f.entry * f.n

/-- offsets[b]. -/
def ListForm.offset (_f : ListForm) (d : List Byte) (b : Nat) : Nat := num d (4 * b) 4

/-- The offsets array keeps R70. -/
def ListForm.offsetsOk (f : ListForm) (d : List Byte) : Bool :=
  f.offset d 0 == 0 && f.offset d f.bags == f.n && (List.range f.bags).all (fun b =>
    decide (f.offset d b ≤ f.offset d (b + 1)) && decide (f.offset d (b + 1) - f.offset d b ≤ 2 ^ 20))

/-- The raw index entry at position `j`. -/
def ListForm.raw (f : ListForm) (d : List Byte) (j : Nat) : Nat := num d (f.offIdx + f.entry * j) f.entry

/-- The global row index at position `j` (R70). -/
def ListForm.row (f : ListForm) (d : List Byte) (j : Nat) : Nat := if f.wide then f.raw d j else at_ f.high 32 + f.raw d j

/-- The weight at position `j` (R70). -/
def ListForm.weight (f : ListForm) (d : List Byte) (j : Nat) : Option FV :=
  if !f.weights then none
  else if f.wbf16 then some (ofBf16 (num d (f.offW + 2 * j) 2))
  else some (fromBits 8 23 (num d (f.offW + 4 * j) 4))

/-- Bag `b` is live (R70). -/
def ListForm.live (f : ListForm) (d : List Byte) (b : Nat) : Bool :=
  !f.pred || bit (num d (f.offP + b / 8) 1) (b % 8)

/-- The first index entry that fails INDEX_FORMAT or INDEX_RANGE, in ascending position: true for format, and the
index (R101, R180). -/
def badIndex (wide : Bool) (rows : Nat) (idx : List Nat) : Option (Bool × Nat) :=
  (idx.find? (fun i => (wide && decide (2 ^ 40 ≤ i)) || decide (rows ≤ i))).map (fun i => (wide && decide (2 ^ 40 ≤ i), i))

/-- The positions of bag `b`. -/
def ListForm.positions (f : ListForm) (d : List Byte) (b : Nat) : List Pos :=
  let lo := f.offset d b
  (List.range (f.offset d (b + 1) - lo)).map (fun k =>
    { bag := b, pos := k, row := f.row d (lo + k), weight := f.weight d (lo + k) })

/-- The indices of a plain array of `k` entries (R70, R79, R111). -/
def plainIndices (wide : Bool) (high k : Nat) (d : List Byte) : List Nat :=
  (List.range k).map (fun j => if wide then num d (8 * j) 8 else at_ high 32 + num d (4 * j) 4)

/-- Bytes of a plain array of indices. -/
def plainSize (wide : Bool) (k : Nat) : Nat := if wide then 8 * k else 4 * k

/-- The index entry check of R101 and R180, as a refusal. -/
def indexFail (status : Nat) (wide : Bool) (rows : Nat) (idx : List Nat) : Option Refuse :=
  (badIndex wide rows idx).map (fun p => if p.1 then { status, detail := 6 } else { status, detail := 5, errRow := p.2 })

/-- Alignment to 64 bytes. -/
def aligned64 (a : Nat) : Bool := a % 64 == 0

end Sys2Proof.Machine
end

