-- ==== Sys2Proof/Machine/Wire.lean ====
section
/-! DEFINITION. The bytes of packets and frames: the header of R402, the payloads of R405, R439 and the layouts this
model gives the other classes (log 6), link frames (R400) and Ethernet frames (R398). -/

namespace Sys2Proof.Machine

/-- The class of a body (R404, R432). -/
def bodyCls : Body → Nat
  | .index _ => 0x01
  | .result _ => 0x02
  | .record _ => 0x03
  | .recordAck _ => 0x04
  | .fence _ => 0x05
  | .restep _ _ => 0x06
  | .skyWrite _ => 0x07
  | .skyRead _ => 0x08
  | .skyData _ => 0x09
  | .skyWriteAck _ | .faultPending _ _ | .skyResume _ | .aborted _ | .denied _ _ => 0x0A
  | .sync | .syncAck | .stale | .redirect | .hold | .epochReject _ _ _ => 0x0B
  | .ack => 0x0C
  | .beacon _ => 0x0D
  | .journal _ => 0x40
  | .journalAck _ _ => 0x41
  | .forward _ => 0x42
  | .forwardAck _ => 0x43
  | .repair _ | .repairReply _ _ => 0x44
  | .status _ => 0x45
  | .join _ | .copy _ | .cutover _ | .jobClear => 0x46

/-- Request classes need credit (R404). -/
def needsCredit : Body → Bool
  | .index _ | .record _ | .skyWrite _ | .skyRead _ => true
  | _ => false

/-- Unsequenced bodies (R404). -/
def unsequenced : Body → Bool
  | .sync | .syncAck | .stale | .ack | .beacon _ => true
  | _ => false

/-! ## Payloads -/

/-- One index entry with its weight (R405). -/
def idxEntryBytes (wide : Bool) (x : IdxEntry) : List Byte :=
  (if wide then leBytes 8 (x.row + at_ x.pos 34) else leBytes 4 x.row) ++
    (match x.weight with | some w => leBytes 4 w.toNat | none => [])

/-- Runs of equal bags, in order. -/
def runsOf : List IdxEntry → List (List IdxEntry)
  | [] => []
  | x :: t =>
    match runsOf t with
    | (y :: r) :: rest => if x.bag = y.bag then (x :: y :: r) :: rest else [x] :: (y :: r) :: rest
    | rest => [x] :: rest

/-- The positions of a run are 0, 1, 2 and on, and no local index reaches 2³²: it needs no WIDE (R405). -/
def narrowRun (r : List IdxEntry) : Bool := r.map (·.pos) == List.range r.length && r.all (fun x => decide (x.row < 2 ^ 32))

/-- Runs that need no WIDE: one for each bag, each from position 0 (R405). -/
def narrowRuns (rs : List (List IdxEntry)) : Bool :=
  let bags := rs.map (fun r => r.head?.map (·.bag))
  rs.all narrowRun && (nub bags).length == bags.length

/-- The bag of a run. -/
def runBag (r : List IdxEntry) : Nat := (r.head?.map (·.bag)).getD 0

/-- The size of the bags of runs that may travel as UNIFORM: complete bags of one size, one after the other (R405). -/
def uniformSize (lasts : List Nat) : List (List IdxEntry) → Option Nat
  | [] => none
  | r :: t =>
    let rs := r :: t
    if narrowRuns rs && rs.zipIdx.all (fun p => p.1.length == r.length && runBag p.1 == runBag r + p.2 && lasts.contains (runBag p.1))
    then some r.length else none

/-- The payload of an INDEX packet (R405): UNIFORM where it can be, else NARROW runs, else WIDE ones. Log 6. -/
def indexBytes (b : IndexBody) : List Byte :=
  let ws := b.entries.any (fun x => x.weight.isSome)
  let rs := runsOf b.entries
  let wide := !narrowRuns rs
  let size := uniformSize b.lasts rs
  let first := match size with
    | some _ => (rs.head?.map runBag).getD 0
    | none => 0
  leBytes 2 b.table ++ leBytes 2 b.shard ++ leBytes 4 b.cmdId ++
    leBytes 4 (first + flag size.isSome 20 + flag wide 21 + flag ws 22 + flag b.transport16 23 + at_ b.kind 24) ++
    leBytes 4 (b.entries.length + at_ (size.getD 0) 12) ++
    rs.flatMap (fun r =>
      (if size.isSome then [] else leBytes 4 (runBag r + at_ r.length 20 + flag (b.lasts.contains (runBag r)) 31)) ++
        r.flatMap (idxEntryBytes wide))

/-- Read `n` index entries from bytes: rows, positions, weights; and the rest. -/
def readEntries (wide ws : Bool) (bag : Nat) : Nat → Nat → List Byte → List IdxEntry × List Byte
  | 0, _, bs => ([], bs)
  | n + 1, pos, bs =>
    let k := if wide then 8 else 4
    let v := num bs 0 k
    let w := if ws then some (BitVec.ofNat 32 (num bs k 4)) else none
    let x : IdxEntry := { row := if wide then fld v 0 34 else v, bag, pos := if wide then fld v 34 20 else pos, weight := w }
    let r := readEntries wide ws bag n (pos + 1) (bs.drop (k + if ws then 4 else 0))
    (x :: r.1, r.2)

/-- Read runs; NARROW positions follow on from the previous run of the bag (R405). -/
def readRuns (wide ws : Bool) : Nat → Tab Nat → List Byte → List IdxEntry × List Nat
  | 0, _, _ => ([], [])
  | f + 1, next, bs =>
    if bs.length < 4 then ([], [])
    else
      let w := num bs 0 4
      let bag := fld w 0 20
      let n := fld w 20 11
      let r := readEntries wide ws bag n (Tab.get 0 next bag) (bs.drop 4)
      let q := readRuns wide ws f (Tab.set next bag (Tab.get 0 next bag + n)) r.2
      (r.1 ++ q.1, if bit w 31 then bag :: q.2 else q.2)

/-- Read complete bags of one size from `bag` up (R405 UNIFORM). -/
def readUniform (wide ws : Bool) (size : Nat) : Nat → Nat → List Byte → List IdxEntry × List Nat
  | 0, _, _ => ([], [])
  | n + 1, bag, bs =>
    let r := readEntries wide ws bag size 0 bs
    let q := readUniform wide ws size n (bag + 1) r.2
    (r.1 ++ q.1, bag :: q.2)

/-- An INDEX payload (R405). -/
def readIndex (p : List Byte) : IndexBody :=
  let a := num p 8 4
  let n := fld (num p 12 4) 0 11
  let size := max 1 (fld (num p 12 4) 12 20)
  let wide := bit a 21
  let ws := bit a 22
  let r := if bit a 20 then readUniform wide ws size (n / size) (fld a 0 20) (p.drop 16)
    else readRuns wide ws p.length [] (p.drop 16)
  { table := num p 0 2, shard := num p 2 2, cmdId := num p 4 4, kind := fld a 24 3, transport16 := bit a 23
    entries := r.1, lasts := r.2 }

/-- The payload of a RESULT packet (R405). -/
def resultBytes (b : ResultBody) : List Byte :=
  leBytes 2 b.table ++ leBytes 2 b.shard ++ leBytes 4 b.cmdId ++ leBytes 2 b.items.length ++ leBytes 1 b.form ++ zeros 5 ++
    b.items.flatMap (fun i => leBytes 4 (i.bag + flag i.poisoned 20 + flag i.saturated 21) ++ i.data)

/-- Bytes of a result item's body: the transport form, BF16 elements, or the slot (R82, R95, R405). -/
def itemLen (t : TD) (form : Nat) (bs : List Byte) : Nat :=
  match form with
  | 0 => 2 + t.groups + t.dim
  | 1 => 2 * t.dim
  | _ => t.slotSize (slotFormat bs)

/-- Read result items. -/
def readItems (t : TD) (form : Nat) : Nat → List Byte → List ResItem
  | 0, _ => []
  | n + 1, bs =>
    let k := itemLen t form (bs.drop 4)
    let v := num bs 0 4
    { bag := fld v 0 20, poisoned := bit v 20, saturated := bit v 21, data := slice bs 4 k } ::
      readItems t form n (bs.drop (4 + k))

/-- A RESULT payload, with the table's shape. -/
def readResult (t : TD) (p : List Byte) : ResultBody :=
  { table := num p 0 2, shard := num p 2 2, cmdId := num p 4 4, form := num p 10 1
    items := readItems t (num p 10 1) (num p 8 2) (p.drop 16) }

/-- Bytes padded to a multiple of 8. -/
def pad8 (b : List Byte) : List Byte := b ++ zeros ((b.length + 7) / 8 * 8 - b.length)

/-- An entry: bytes 23:0 of R148, then its body. -/
def entryBytes (x : Entry) : List Byte :=
  pad8 (leBytes 2 x.table ++ leBytes 1 x.kind ++ leBytes 1 x.round ++ leBytes 4 x.srcSeq ++ leBytes 5 x.row ++ [0] ++
    leBytes 2 x.positions ++ leBytes 4 x.srcNode ++ zeros 4 ++ x.data)

/-- Bytes of an entry's body, by its kind (R148, R405). -/
def entryBodyLen (t : TD) (kind : Nat) (bs : List Byte) : Nat :=
  match kind with
  | 1 => 2 + t.groups + t.dim
  | 2 =>
    match num bs 0 1 with
    | 0 => 8 + 4 * t.dim
    | 1 => 8 + 2 * t.dim
    | _ => 8 + t.slotSize (slotFormat (bs.drop 8))
  | 5 => 8 + t.slotSize (slotFormat (bs.drop 8))
  | _ => 8

/-- Bytes of an entry's body; those that depend on the row's table need its descriptor (R405). -/
def bodyLen (td : Nat → Option TD) (table kind : Nat) (bs : List Byte) : Option Nat :=
  match td table with
  | some t => some (entryBodyLen t kind bs)
  | none => if kind = 1 ∨ kind = 2 ∨ kind = 5 then none else some 8

/-- Read entries; none where the length of one hangs on a table without a descriptor. -/
def readRecords (td : Nat → Option TD) : Nat → List Byte → Option (List Entry)
  | 0, _ => some []
  | n + 1, bs =>
    match bodyLen td (num bs 0 2) (num bs 2 1) (bs.drop 24) with
    | none => none
    | some k =>
      let x : Entry :=
        { table := num bs 0 2, kind := num bs 2 1, round := num bs 3 1, srcSeq := num bs 4 4, row := num bs 8 5
          positions := num bs 14 2, srcNode := fld (num bs 16 4) 0 20, data := slice bs 24 k }
      (readRecords td n (bs.drop ((24 + k + 7) / 8 * 8))).map (fun r => x :: r)

/-- A FENCE payload (R405). -/
def fenceBytes (b : FenceBody) : List Byte :=
  leBytes 4 b.lrScale.toNat ++ leBytes 1 b.round ++ leBytes 1 (flag b.last 0) ++ leBytes 2 b.tables.length ++ zeros 8 ++
    b.tables.flatMap (fun p => leBytes 2 p.1 ++ leBytes 1 (int8 p.2) ++ [0])

/-- Read a FENCE payload. -/
def readFence (p : List Byte) : FenceBody :=
  { lrScale := BitVec.ofNat 32 (num p 0 4), round := num p 4 1, last := bit (num p 5 1) 0
    tables := (List.range (num p 6 2)).map (fun k => (num p (16 + 4 * k) 2, ofInt8 (num p (18 + 4 * k) 1))) }

/-- A RECORD_ACK payload (R439). -/
def recordAckBytes (b : RecordAckBody) : List Byte :=
  leBytes 6 b.step ++ leBytes 1 b.round ++ leBytes 1 (flag b.settled 0) ++ leBytes 2 b.ranges.length ++ zeros 6 ++
    b.ranges.flatMap (fun r => leBytes 4 r.1 ++ leBytes 4 r.2)

/-- Read a RECORD_ACK payload. -/
def readRecordAck (p : List Byte) : RecordAckBody :=
  { step := num p 0 6, round := num p 6 1, settled := bit (num p 7 1) 0
    ranges := (List.range (num p 8 2)).map (fun k => (num p (16 + 8 * k) 4, num p (20 + 8 * k) 4)) }

/-- The payload of a body. Classes without a layout in R405 or R439 take this model's (log 6): their fields in
order, 4 bytes each, then data; the ridge classes travel as structures and have an empty payload here. -/
def bodyPayload : Body → List Byte
  | .index b => indexBytes b
  | .result b => resultBytes b
  | .record es => leBytes 2 es.length ++ zeros 14 ++ es.flatMap entryBytes
  | .recordAck b => recordAckBytes b
  | .fence b => fenceBytes b
  | .restep t r => leBytes 4 t ++ leBytes 4 r
  | .skyWrite b => leBytes 4 b.sky ++ leBytes 8 b.offset ++ leBytes 4 b.cmdId ++ b.data
  | .skyRead b => leBytes 4 b.sky ++ leBytes 8 b.offset ++ leBytes 4 b.length ++ leBytes 4 b.cmdId ++
      (match b.transform with | some (d, g) => leBytes 4 d ++ leBytes 4 g | none => zeros 8)
  | .skyData b => leBytes 4 b.cmdId ++ leBytes 8 b.offset ++ b.data
  | .skyWriteAck c => leBytes 4 0 ++ leBytes 4 c ++ leBytes 4 0
  | .faultPending c f => leBytes 4 1 ++ leBytes 4 c ++ leBytes 4 f
  | .skyResume c => leBytes 4 2 ++ leBytes 4 c ++ leBytes 4 0
  | .aborted c => leBytes 4 3 ++ leBytes 4 c ++ leBytes 4 0
  | .denied c r => leBytes 4 4 ++ leBytes 4 c ++ leBytes 4 r
  | .sync => leBytes 4 0
  | .syncAck => leBytes 4 1
  | .stale => leBytes 4 2
  | .redirect => leBytes 4 3
  | .hold => leBytes 4 4
  | .epochReject ep c k => leBytes 4 5 ++ leBytes 2 ep.toNat ++ leBytes 2 c ++ leBytes 4 k
  | .ack => []
  | .beacon b => leBytes 4 b.node ++ leBytes 2 b.epoch.toNat ++ leBytes 2 b.pendEpoch.toNat ++ leBytes 8 b.digest.toNat ++
      leBytes 8 b.pendDigest.toNat ++ leBytes 8 b.pendStep
  | _ => []

/-- A body from its class and payload; none for a class that does not travel on the fabric. -/
def readBody (td : Nat → Option TD) (cls : Nat) (p : List Byte) : Option Body :=
  match cls with
  | 0x01 => some (.index (readIndex p))
  | 0x02 => (td (num p 0 2)).map (fun t => .result (readResult t p))
  | 0x03 => (readRecords td (num p 0 2) (p.drop 16)).map .record
  | 0x04 => some (.recordAck (readRecordAck p))
  | 0x05 => some (.fence (readFence p))
  | 0x06 => some (.restep (num p 0 4) (num p 4 4))
  | 0x07 => some (.skyWrite { sky := num p 0 4, offset := num p 4 8, cmdId := num p 12 4, data := p.drop 16 })
  | 0x08 => some (.skyRead { sky := num p 0 4, offset := num p 4 8, length := num p 12 4, cmdId := num p 16 4
                             transform := if num p 20 4 = 0 then none else some (num p 20 4, num p 24 4) })
  | 0x09 => some (.skyData { cmdId := num p 0 4, offset := num p 4 8, data := p.drop 12 })
  | 0x0A =>
    match num p 0 4 with
    | 0 => some (.skyWriteAck (num p 4 4))
    | 1 => some (.faultPending (num p 4 4) (num p 8 4))
    | 2 => some (.skyResume (num p 4 4))
    | 3 => some (.aborted (num p 4 4))
    | _ => some (.denied (num p 4 4) (num p 8 4))
  | 0x0B =>
    match num p 0 4 with
    | 0 => some .sync
    | 1 => some .syncAck
    | 2 => some .stale
    | 3 => some .redirect
    | 4 => some .hold
    | _ => some (.epochReject (BitVec.ofNat 16 (num p 4 2)) (num p 6 2) (num p 8 4))
  | 0x0C => some .ack
  | 0x0D => some (.beacon { node := num p 0 4, epoch := BitVec.ofNat 16 (num p 4 2), digest := BitVec.ofNat 64 (num p 8 8)
                            pendEpoch := BitVec.ofNat 16 (num p 6 2), pendDigest := BitVec.ofNat 64 (num p 16 8)
                            pendStep := num p 24 8 })
  | _ => none

/-! ## Packets (R402, R403) -/

/-- The 32-byte header (R402). -/
def hdrBytes (h : PktHdr) (cls len : Nat) : List Byte :=
  [1] ++ leBytes 1 cls ++ leBytes 1 (flag h.unseq 0 + flag h.retransmit 1 + flag h.reissued 2) ++ leBytes 1 h.hops.toNat ++
    leBytes 3 h.src ++ leBytes 1 h.srcGen.toNat ++ leBytes 3 h.dst ++ leBytes 1 h.dstGen.toNat ++ leBytes 2 h.epoch.toNat ++
    leBytes 2 len ++ leBytes 4 h.seq.toNat ++ leBytes 4 h.ack.toNat ++ leBytes 6 h.step ++ leBytes 2 h.credit.toNat

/-- The bytes of a packet: header, payload and e2e_crc, which takes hops as zero (R403). -/
def packetBytes (p : Packet) : List Byte :=
  let pl := bodyPayload p.body
  let z := hdrBytes { p.hdr with hops := 0 } (bodyCls p.body) pl.length ++ pl
  hdrBytes p.hdr (bodyCls p.body) pl.length ++ pl ++ leBytes 4 (crc32c z)

/-- The header of packet bytes. -/
def readHdr (b : List Byte) : PktHdr :=
  let fl := num b 2 1
  { src := fld (num b 4 3) 0 20, dst := fld (num b 8 3) 0 20, srcGen := BitVec.ofNat 8 (num b 7 1)
    dstGen := BitVec.ofNat 8 (num b 11 1), epoch := BitVec.ofNat 16 (num b 12 2), seq := BitVec.ofNat 32 (num b 16 4)
    ack := BitVec.ofNat 32 (num b 20 4), step := num b 24 6, credit := BitVec.ofNat 16 (num b 30 2)
    hops := BitVec.ofNat 8 (num b 3 1), unseq := bit fl 0, retransmit := bit fl 1, reissued := bit fl 2 }

/-- The bytes a packet takes at the front of `b`. -/
def packetLen (b : List Byte) : Nat := 36 + num b 14 2

/-- The e2e_crc checks (R403). -/
def packetOk (b : List Byte) : Bool :=
  let n := 32 + num b 14 2
  decide (n + 4 ≤ b.length) && crc32c (b.take 3 ++ [0] ++ slice b 4 (n - 4)) == num b n 4

/-- The packet in packet bytes, if its version is 1 and its class is one the fabric carries (R402, R404). -/
def readPacket (td : Nat → Option TD) (b : List Byte) : Option Packet :=
  if num b 0 1 = 1 then (readBody td (num b 1 1) (slice b 32 (num b 14 2))).map (fun x => { hdr := readHdr b, body := x }) else none

/-! ## Frames -/

/-- One bit of the reflected IEEE 802.3 CRC-32. -/
def crc32Bits : Nat → Nat → Nat
  | 0, c => c
  | k + 1, c => crc32Bits k (if c % 2 = 1 then (c / 2) ^^^ 0xEDB88320 else c / 2)

/-- The IEEE 802.3 CRC-32 (R398, R400). -/
def crc32 (bs : List Byte) : Nat :=
  (bs.foldl (fun c b => crc32Bits 8 (c ^^^ b.toNat)) 0xFFFFFFFF) ^^^ 0xFFFFFFFF

/-- The MAC address of a node (R398). -/
def macOf (e : Eng) (n : Nat) : List Byte :=
  let p := e.fb.macPrefix
  let o0 := fld p 16 8 / 4 * 4 + 2
  leBytes 1 o0 ++ leBytes 1 (fld p 8 8) ++ leBytes 1 (fld p 0 8) ++ leBytes 1 (fld n 16 4) ++ leBytes 1 (fld n 8 8) ++
    leBytes 1 (fld n 0 8)

/-- Two bytes, most significant first, as IEEE 802.3 orders them. -/
def be2 (v : Nat) : List Byte := leBytes 1 (v / 256) ++ leBytes 1 v

/-- The Ethernet frame of a packet (R398). -/
def etherFrame (e : Eng) (p : Packet) : List Byte :=
  let tag := if e.fb.vlanEn then be2 0x8100 ++ be2 (at_ e.fb.pcp 13 + e.fb.vid) else []
  let b := macOf e p.hdr.dst ++ macOf e p.hdr.src ++ tag ++ be2 e.fb.ethertype ++ packetBytes p
  let b := b ++ zeros (60 - b.length)
  b ++ leBytes 4 (crc32 b)

/-- Frame types of the link header: 0 packet, 1 negative acknowledgement, 2 acknowledgement (R400). Log 6. -/
def linkHdr (seq ack ty : Nat) : List Byte := leBytes 2 (seq % 4096) ++ leBytes 2 (ack % 4096) ++ leBytes 1 ty ++ zeros 3

/-- A link frame: 8-byte link header, packet bytes, CRC-32 over both (R400). -/
def linkFrame (seq ack ty : Nat) (pkt : List Byte) : List Byte :=
  let b := linkHdr seq ack ty ++ pkt
  b ++ leBytes 4 (crc32 b)

end Sys2Proof.Machine
end

