-- ==== Sys2Proof/Machine/Send.lean ====
section
/-! DEFINITION. Sending and sessions: routes (R412 to R414), generations (R406), sequence numbers and credit (R407,
R408), and what the header of a received packet changes. -/

namespace Sys2Proof.Machine

/-- The other member of a node's pair (R429). -/
def mate (n : Nat) : Nat := if n % 2 = 0 then n + 1 else n - 1

/-- The session with a peer. -/
def session (e : Eng) (peer : Nat) : Session := Tab.get {} e.fb.sessions peer

/-- Change the session with a peer. -/
def setSession (peer : Nat) (f : Session → Session) (e : Eng) : Eng :=
  { e with fb := { e.fb with sessions := Tab.modify {} e.fb.sessions peer f } }

/-- The epoch of a step, as this engine holds it (R416); none for a step older than its recorded activations. -/
def epochAt? (e : Eng) (s : Nat) : Option (BitVec 16) :=
  match e.ls.pend with
  | some (n, c) => if n ≤ s then some c.epoch else (e.ls.recent.find? (fun p => decide (p.1 ≤ s))).map (·.2)
  | none => (e.ls.recent.find? (fun p => decide (p.1 ≤ s))).map (·.2)

/-- The epoch a packet of a step carries (R416). -/
def epochAt (e : Eng) (s : Nat) : BitVec 16 := (epochAt? e s).getD e.ls.active.epoch

/-- The routing-table entry of a destination (R412); none where it is unroutable. -/
def routeIndex (e : Eng) (n : Nat) : Option Nat :=
  if e.fb.groupMode then
    let g := 2 ^ e.fb.shift
    if n / g = e.fb.node / g then some (n % g) else some (16384 + n / g)
  else if n < 2 ^ 15 then some n else none

/-- The usable slots of a route entry: link and weight, links that are up (R413, R414). -/
def usableSlots (e : Eng) (v : Nat) : List (Nat × Nat × Nat) :=
  if !bit v 63 then []
  else ((List.range 4).map (fun k => (k, fld v (10 * k + 4) 6, fld v (10 * k) 4))).filter
    (fun s => decide (0 < s.2.2) && e.fb.linksUp.contains s.2.1)

/-- The slots of a destination. -/
def slotsTo (e : Eng) (n : Nat) : List (Nat × Nat × Nat) :=
  match routeIndex e n with
  | some i => usableSlots e (Tab.get 0 e.fb.routes i)
  | none => []

/-- The slot that weighted turn `k` picks: each slot holds as many turns as its weight (R414). -/
def pickTurn (ss : List (Nat × Nat × Nat)) (k : Nat) : Option (Nat × Nat × Nat) :=
  let turns := ss.flatMap (fun s => List.replicate s.2.2 s)
  if turns.isEmpty then none else turns[k % turns.length]?

/-- The next usable slot after slot `k` (R414). -/
def nextSlot (ss : List (Nat × Nat × Nat)) (k : Nat) : Option (Nat × Nat × Nat) :=
  match ss.find? (fun s => decide (k < s.1)) with
  | some s => some s
  | none => ss.head?

/-- The link mode of a logical link: 0 disabled, 1 Ethernet, 2 direct (R426). -/
def linkMode (e : Eng) (l : Nat) : Nat := fld (Tab.get {} e.fb.ports (l / 4)).linkMode (2 * (l % 4)) 2

/-- Put a frame on a link. -/
def putWire (l : Nat) (bs : List Byte) (e : Eng) : Eng := { e with fb := { e.fb with wire := e.fb.wire ++ [(l, bs)] } }

/-- Put packet bytes on a direct-mode link: a link frame, kept among the last 64 for replay (R400). -/
def putDirect (l : Nat) (pkt : List Byte) (e : Eng) : Eng :=
  let d := Tab.get {} e.fb.links l
  let f := linkFrame d.txSeq d.rxSeq 0 pkt
  let keep := (d.replay ++ [(d.txSeq, f)])
  let d := { d with txSeq := (d.txSeq + 1) % 4096, replay := keep.drop (keep.length - 64) }
  putWire l f { e with fb := { e.fb with links := Tab.set e.fb.links l d } }

/-- The slot a packet takes: by weighted round robin, or for a retransmission the next usable one after that of the previous transmission
(R414). -/
def slotFor (e : Eng) (p : Packet) : Option (Nat × Nat × Nat) :=
  let ss := slotsTo e p.hdr.dst
  if p.hdr.retransmit then nextSlot ss p.slot else pickTurn ss (Tab.get 0 e.fb.rr p.hdr.dst)

/-- Put a packet on its route (R414). A packet with no usable slot is dropped and counted. -/
def emit (p : Packet) (e : Eng) : Eng :=
  match slotFor e p with
  | none => count Ctr.fbUnroutable 1 e
  | some (_, l, _) =>
    let n := (bodyPayload p.body).length
    let e := counts [(Ctr.fbPktsTx, 1), (Ctr.fbBytesTx, n), (Ctr.ctJobFabricBytes, if unsequenced p.body then 0 else n),
      (Ctr.lsBeaconsTx, if bodyCls p.body = 0x0D then 1 else 0)] e
    let rr := if p.hdr.retransmit then e.fb.rr else Tab.set e.fb.rr p.hdr.dst (Tab.get 0 e.fb.rr p.hdr.dst + 1)
    let e := { e with fb := { e.fb with rr, tx := e.fb.tx ++ [p] } }
    if linkMode e l = 2 then putDirect l (packetBytes p) e else putWire l (etherFrame e p) e

/-- The header of a packet to a peer, before its sequence number. -/
def hdrTo (e : Eng) (peer step : Nat) (b : Body) (reissued : Bool) : PktHdr :=
  let s := session e peer
  { src := e.fb.node, dst := peer, srcGen := e.fb.gen, dstGen := s.peerGen, epoch := epochAt e step, seq := 0
    ack := s.rxNext, step, credit := s.granted, hops := BitVec.ofNat 8 e.fb.hopLimit, unseq := unsequenced b
    retransmit := false, reissued }

/-- Send an unsequenced packet at once. -/
def sendUnseq (peer : Nat) (b : Body) (e : Eng) : Eng := emit { hdr := hdrTo e peer 0 b false, body := b } e

/-- A standalone ACK (R408). -/
def sendAck (peer : Nat) (e : Eng) : Eng := setSession peer (fun s => { s with sinceAck := 0 }) (sendUnseq peer .ack e)

/-- Transmit a waiting packet in the session: it takes the next sequence number (R407). -/
def transmit (peer : Nat) (p : Packet) (e : Eng) : Eng :=
  let s := session e peer
  let h := { hdrTo e peer p.hdr.step p.body p.hdr.reissued with seq := s.txSeq }
  let p := { p with hdr := h }
  let p := { p with slot := ((slotFor e p).map (·.1)).getD p.slot }
  let e := setSession peer (fun s => { s with
    txSeq := s.txSeq + 1, unacked := s.unacked ++ [p], sinceAck := 0
    reqSent := if needsCredit p.body then s.reqSent + 1 else s.reqSent }) e
  emit p e

/-- A packet of the waiting list may go now: window and credit (R407, R408), FENCE and RESTEP behind the step's INDEX
and RECORD packets (R410). `before` are the packets that stay ahead of it. -/
def mayGo (s : Session) (before : List Packet) (p : Packet) : Bool :=
  let fenceLike := bodyCls p.body == 5 || bodyCls p.body == 6
  decide (s.unacked.length < 1024) &&
    (!needsCredit p.body || (creditBefore s.reqSent s.limit && !before.any (fun q => needsCredit q.body))) &&
    (!fenceLike || !before.any (fun q => (bodyCls q.body == 1 || bodyCls q.body == 3) && q.hdr.step == p.hdr.step))

/-- Send what may go of a waiting list, keeping order. -/
def pumpList (peer : Nat) : List Packet → List Packet → Eng → Eng × List Packet
  | before, [], e => (e, before)
  | before, p :: t, e =>
    if mayGo (session e peer) before p then pumpList peer before t (transmit peer p e)
    else pumpList peer (before ++ [p]) t e

/-- Send what may go to a peer whose session is open. -/
def pump (peer : Nat) (e : Eng) : Eng :=
  let s := session e peer
  if !s.isOpen then e
  else
    let r := pumpList peer [] s.waiting e
    setSession peer (fun s => { s with waiting := r.2 }) r.1

/-- Queue a packet for a peer; open the session where it is not open (R406), and send what may go. -/
def sendPacket (peer step : Nat) (b : Body) (reissued : Bool) (e : Eng) : Eng :=
  if unsequenced b then sendUnseq peer b e
  else
    let p : Packet := { hdr := hdrTo e peer step b reissued, body := b }
    let s := session e peer
    let stall := s.isOpen && needsCredit b && !creditBefore s.reqSent s.limit
    let e := count Ctr.fbCreditStalls (if stall then 1 else 0) (setSession peer (fun s => { s with waiting := s.waiting ++ [p] }) e)
    if s.isOpen then pump peer e
    else if s.syncSent then e
    else sendUnseq peer .sync (setSession peer (fun s => { s with syncSent := true }) e)

/-- STATUS and JOIN are sent anew when the link returns. -/
def statusLike : Body → Bool
  | .status _ | .join _ => true
  | _ => false

/-- Put a packet on the ridge link; while no port is up it waits (R98, R432). Ridge rows carry no header of their own, so
their sequence numbers are not modelled. Log 25. -/
def sendRidge (b : Body) (e : Eng) : Eng :=
  if e.rg.portsUp.isEmpty then (if statusLike b then e else { e with rg := { e.rg with waiting := e.rg.waiting ++ [b] } })
  else
    let p : Packet := { hdr := { hdrTo e e.fb.partner (stepNow e) b false with seq := 0, ack := 0 }, body := b }
    { e with fb := { e.fb with tx := e.fb.tx ++ [p] } }

/-- Packets acknowledged by `ack` leave the unacknowledged list (R407, R408). -/
def releaseAcked (peer : Nat) (ack : Word) (e : Eng) : Eng :=
  let s := session e peer
  let rest := s.unacked.filter (fun p => !serialAfter ack p.hdr.seq)
  if rest.length < s.unacked.length then
    setSession peer (fun s => { s with unacked := rest, tries := 0, dupAcks := 0, lastAck := ack }) e
  else e

/-- A received header's ack and credit take effect, and what they free is sent (R408). -/
def takeHdr (h : PktHdr) (e : Eng) : Eng :=
  let e := releaseAcked h.src h.ack e
  let e := setSession h.src (fun s => if creditBefore s.limit h.credit then { s with limit := h.credit } else s) e
  pump h.src e

/-- A delivered packet: counted; a sequenced one advances the expected sequence number, and after 16 deliveries an ACK
is sent (R407, R408). -/
def takeDelivery (h : PktHdr) (b : Body) (e : Eng) : Eng :=
  let n := (bodyPayload b).length
  let e := counts [(Ctr.fbPktsRx, 1), (Ctr.fbBytesRx, n), (Ctr.ctJobFabricBytes, if unsequenced b then 0 else n)] e
  if unsequenced b then e
  else
    let e := setSession h.src (fun s => { s with
      rxNext := if serialAfter (h.seq + 1) s.rxNext then h.seq + 1 else s.rxNext
      sinceAck := s.sinceAck + 1 }) e
    if 16 ≤ (session e h.src).sinceAck then sendAck h.src e else e

/-- A request packet of a peer is consumed: its credit limit rises (R408). Log 27. -/
def consume (peer : Nat) (e : Eng) : Eng :=
  if peer = e.fb.node then e else setSession peer (fun s => { s with granted := s.granted + 1 }) e

/-- A request packet that was held is consumed: the peer learns its credit from an ACK (R86, R408). -/
def consumeHeld (peer : Nat) (e : Eng) : Eng := if peer = e.fb.node then e else sendAck peer (consume peer e)

/-- A session ends: its unacknowledged packets other than requests wait for the next one, and the session opens anew
when something is to be sent (R406). -/
def closeSession (peer : Nat) (e : Eng) : Eng :=
  setSession peer (fun s => { s with
    isOpen := false, syncSent := false, txSeq := 0, reqSent := 0, limit := 2, tries := 0, dupAcks := 0
    waiting := (s.unacked ++ s.waiting).filter (fun p => !needsCredit p.body), unacked := [] }) e

/-- The peer's generation is `g`: a change ends both directions and raises PEER_RESYNC (R406). -/
def learnGen (peer : Nat) (g : BitVec 8) (e : Eng) : Eng :=
  let s := session e peer
  if s.peerGen = g ∧ (s.isOpen ∨ s.rxOpen ∨ s.syncSent) then e
  else
    let e := if s.isOpen || s.rxOpen then closeSession peer e else e
    let e := setSession peer (fun s => { s with peerGen := g, known := true, rxOpen := false, rxNext := 0, buffered := [] }) e
    if s.known && s.peerGen != g then raiseEvent { kind := Kind.peerResync, node := some peer, arg1 := g.toNat } e else e

/-- The SYNC of a session that opens (R406). -/
def startSync (peer : Nat) (e : Eng) : Eng :=
  sendUnseq peer .sync (setSession peer (fun s => { s with syncSent := true }) e)

/-- SYNC received: the receiving session starts at seq 0, and SYNC_ACK answers with this engine's generation. -/
def opSync (h : PktHdr) (e : Eng) : Eng :=
  let e := learnGen h.src h.srcGen e
  let e := setSession h.src (fun s => { s with rxOpen := true, rxNext := 0, buffered := [], granted := 2, peerGen := h.srcGen, known := true }) e
  sendUnseq h.src .syncAck e

/-- SYNC_ACK received: the sending session opens with seq 0 and a credit of 2 (R406, R408). -/
def opSyncAck (h : PktHdr) (e : Eng) : Eng :=
  if (session e h.src).syncSent then
    let e := setSession h.src (fun s => { s with
      isOpen := true, syncSent := false, unreachable := false, tries := 0, peerGen := h.srcGen, known := true
      txSeq := 0, reqSent := 0, limit := 2, unacked := [] }) e
    let e := pump h.src e
    count Ctr.fbCreditStalls ((session e h.src).waiting.countP (fun p => needsCredit p.body)) e
  else e

/-- Retransmit the oldest unacknowledged packet of a peer (R409). -/
def resendOldest (peer : Nat) (e : Eng) : Eng :=
  match (session e peer).unacked with
  | p :: t =>
    let p := { p with hdr := { hdrTo e peer p.hdr.step p.body p.hdr.reissued with seq := p.hdr.seq, retransmit := true } }
    let q := { p with slot := ((slotFor e p).map (·.1)).getD p.slot }
    setSession peer (fun s => { s with unacked := q :: t }) (emit p e)
  | [] => e

/-- A standalone ACK's ack value, counted against fast retransmission (R409). -/
def countAck (h : PktHdr) (e : Eng) : Eng :=
  let s := session e h.src
  if s.unacked.any (fun p => p.hdr.seq == h.ack) then
    let n := if s.lastAck = h.ack then s.dupAcks + 1 else 1
    if 3 ≤ n then
      let e := setSession h.src (fun s => { s with dupAcks := 0, lastAck := h.ack }) e
      count Ctr.fbFastRetransmits 1 (resendOldest h.src e)
    else setSession h.src (fun s => { s with dupAcks := n, lastAck := h.ack }) e
  else e

/-- No reverse packet went within 2 µs of a delivery: send an ACK (R408). -/
def opAckDelay (peer : Nat) (e : Eng) : Eng := if 0 < (session e peer).sinceAck then sendAck peer e else e

end Sys2Proof.Machine
end

