-- ==== Sys2Proof/Machine/Results.lean ====
section
/-! DEFINITION. The requester's result joiner: parts of bags, joining, rotation, output encoding and the completion of
look-ups (chapter 03, R74 to R82, R94, R98, R100). -/

namespace Sys2Proof.Machine

/-- The bags of a running look-up. -/
def lookupBags (c : RunCmd) : List BagItem :=
  match c.work with
  | .lookup _ bs => bs
  | _ => []

/-- Result bytes of an output format (R74); RAW takes the largest permitted slot (R81). -/
def outSize (t : TD) (fmt : Nat) : Nat :=
  match fmt with
  | 0 => 4 * t.dim
  | 1 => 2 * t.dim
  | 0xF => t.classes.foldl (fun a c => max a (t.slotSize (t.fmtOf c))) 0
  | _ => 2 + t.groups + t.dim

/-- The result stride for an alignment granule (R75). -/
def outStride (size align : Nat) : Nat := ceilDiv size align * align

/-- The alignment granule of PL_CONFIG.OUT_ALIGN (R102). -/
def alignOf (code : Nat) : Nat := 64 * 2 ^ code

/-- A poisoned result (R98). -/
def poisonBytes (t : TD) (fmt : Nat) : List Byte :=
  match fmt with
  | 0 => (List.replicate t.dim (leBytes 4 0x7FC00000)).flatten
  | 1 => (List.replicate t.dim (leBytes 2 0x7FC0)).flatten
  | 2 => leBytes 2 0x7FC0 ++ zeros t.groups ++ List.replicate t.dim 0x7F
  | 3 => leBytes 2 0x7FC0 ++ zeros t.groups ++ List.replicate t.dim 0x7E
  | _ => zeros (outSize t 0xF)

/-- Encode a result in an output format; the scale slot's policy may refuse it (R74, R209). -/
def encodeOut (t : TD) (fmt slot step : Nat) (v : List FV) (e : Eng) : (Option (List Byte) × Bool) × Eng :=
  match fmt with
  | 0 => ((some (v.flatMap (fun x => leBytes 4 (toWord x).toNat)), false), e)
  | 1 =>
    let r := tallied (mapN (rnd fmtBf16) v) e
    ((some (r.1.flatMap (fun x => leBytes 2 (toBf16 x))), false), r.2)
  | _ =>
    let r := encSlot slot step (if fmt = 2 then .e4m3 else .e5m2) t.group v e
    ((r.1.block.map blockBytes, r.1.clipped), r.2)

/-- The values of a part: FP32. -/
def PartData.floats (p : PartData) : List FV := p.vals.map ofWord

/-- The parts of a bag joined in ascending shard number, divided for MEAN (R94 stage 5). -/
def joinParts (mean : Bool) (n : Nat) (ps : List (List FV)) : N (List FV) := do
  match ps with
  | [] => return []
  | [p] => return p
  | p :: t =>
    let s ← t.foldlM (fun a b => zipN add32 a b) p
    if mean then mapN (fun x => quotient fmt32 x (ofInt n)) s else return s

/-- Stage 6: a ROTATED table's result is rotated back once (R94). -/
def unrotate (t : TD) (v : List FV) : N (List FV) := if t.rotated then rotate t.group v else pure v

/-- A partial record (R77). -/
def partialRecord (t : TD) (b : BagItem) (p : PartItem) (bad sat : Bool) (v : List FV) : List Byte :=
  let body := if bad then poisonBytes t 0 else v.flatMap (fun x => leBytes 4 (toWord x).toNat)
  let r := leBytes 4 b.bag ++ leBytes 2 p.shard ++ leBytes 1 (flag bad 0 + flag sat 1) ++ [0] ++ leBytes 4 p.n ++ zeros 4 ++ body
  r ++ zeros (align64 r.length - r.length)

/-- What the outputs of a look-up have come to. -/
structure OutAcc where
  writes : List HWrite := []
  status : List Byte := []
  parts : List (List Byte) := []
  poisoned : List (Option Nat) := []
  down : List Nat := []
  refused : Nat := 0
  deriving DecidableEq, Repr

/-- Parameters of a look-up's outputs. -/
structure OutForm where
  t : TD
  conf : Conf
  rows : Bool
  fmt : Nat
  slot : Nat
  step : Nat
  join : Bool
  mean : Bool
  out : Nat
  stride : Nat
  deriving DecidableEq, Repr

/-- The failing row of a part, with its position, where it is known (R100). Log 31. -/
def partBadRow (p : PartItem) : Option (Nat × Nat) :=
  match p.data with
  | some d => if d.poisoned then (match d.errRow with
      | some r => some r
      | none => if p.n = 1 ∧ !d.unavail then some (p.firstPos, p.firstRow) else none) else none
  | none => none

/-- The row a poisoned bag's record names: its lowest-position failing row (R100). Log 31. -/
def badRow (b : BagItem) : Option Nat :=
  ((b.parts.filterMap partBadRow).foldl (fun (a : Option (Nat × Nat)) r => match a with
    | some q => if r.1 < q.1 then some r else a
    | none => some r) none).map (·.2)

/-- The values of a row output, FP32, in the unrotated basis (R80). -/
def rowValues (f : OutForm) (slot : List Byte) : N (List FV) := do
  let v := slotValues f.conf f.t slot
  nonfin (v.countP (fun x => !x.finite))
  let w ← mapN rnd32 v
  unrotate f.t w

/-- The outputs of one bag (R75 to R77, R80 to R82, R94 stages 5 to 7). -/
def outBag (f : OutForm) (acc : OutAcc) (b : BagItem) (e : Eng) : OutAcc × Eng :=
  let at' := f.out + b.bag * f.stride
  let ds := b.parts.filterMap (·.data)
  let bad := ds.any (·.poisoned)
  let sat := ds.any (fun d => d.saturated && !d.poisoned)
  let down := (b.parts.filter (fun p => match p.data with | some d => d.unavail | none => false)).map (·.shard)
  let acc := { acc with down := acc.down ++ down, poisoned := if bad then acc.poisoned ++ [badRow b] else acc.poisoned }
  let put := fun (st : Nat) (acc : OutAcc) => { acc with status := acc.status ++ [BitVec.ofNat 8 st] }
  if b.skipped then (put (4 + flag (b.total == 0) 5) acc, e)
  else if 1 < b.parts.length ∧ !f.join ∧ !f.rows then
    let r := b.parts.foldl (fun (a : List (List Byte) × Eng) p =>
      match p.data with
      | none => a
      | some d =>
        let q := tallied (if d.poisoned then pure [] else unrotate f.t d.floats) a.2
        (a.1 ++ [partialRecord f.t b p d.poisoned d.saturated q.1], q.2)) (([] : List (List Byte)), e)
    (put (8 + flag bad 0) { acc with parts := acc.parts ++ r.1 }, r.2)
  else if bad then (put (1 + flag sat 1 + flag (b.total == 0) 5) { acc with writes := acc.writes ++ [⟨at', poisonBytes f.t f.fmt⟩] }, e)
  else if f.fmt = 0xF then
    (put 0 { acc with writes := acc.writes ++ ds.map (fun d => ⟨at', d.slot⟩) }, e)
  else
    let v : N (List FV) :=
      if f.rows then rowValues f ((ds.head?.map (·.slot)).getD [])
      else if ds.isEmpty then pure (List.replicate f.t.dim .zero)
      else do
        let s ← joinParts f.mean b.total (ds.map (·.floats))
        unrotate f.t s
    let r := tallied v e
    let o := encodeOut f.t f.fmt f.slot f.step r.1 r.2
    match o.1.1 with
    | none => (put (64 + flag sat 1 + flag (b.total == 0) 5) { acc with refused := acc.refused + 1 }, o.2)
    | some bs =>
      (put (flag sat 1 + flag o.1.2 4 + flag (b.total == 0) 5) { acc with writes := acc.writes ++ [⟨at', bs⟩] }, o.2)

/-- The outputs of every bag in ascending order. -/
def outBags (f : OutForm) : List BagItem → OutAcc → Eng → OutAcc × Eng
  | [], acc, e => (acc, e)
  | b :: t, acc, e =>
    let r := outBag f acc b e
    outBags f t r.1 r.2

/-- The completion record of a look-up (R85, R100). -/
def lookupRec (t : Nat) (a : OutAcc) : Rec :=
  match sortNat a.down, a.poisoned with
  | s :: _, ps => { status := Status.shardUnavailable, detail := s, count := ps.length, errTable := t }
  | [], r :: ps =>
    { status := Status.poisoned, count := ps.length + 1, errTable := t, errRow := r.getD 0xFFFFFFFFFF }
  | [], [] => if 0 < a.refused then { status := Status.scaleRefused, count := a.refused } else {}

/-- The record of a look-up that a reset stopped after its step's STEP_CLOSE (R473). -/
def poisonRec (t : Nat) (a : OutAcc) : Rec :=
  { status := Status.poisoned, count := a.poisoned.length, errTable := t, errRow := 0xFFFFFFFFFF }

/-- Every part of the look-up has arrived. -/
def partsIn (bs : List BagItem) : Bool := bs.all (fun b => b.parts.all (fun p => p.data.isSome))

/-- The FP8 scale slot a look-up encodes under, if it does. -/
def fp8Slot (d : Desc) : Option Nat :=
  if (opcode d = 0x10 ∨ opcode d = 0x11) ∧ (num d 19 1 = 2 ∨ num d 19 1 = 3) then some (fld (num d 22 2) 0 10) else none

/-! ## Scale slots of commands (R205, R207) -/

/-- A flag of byte 3. -/
def sdFlag (d : List Byte) (k : Nat) : Bool := bit (num d 3 1) k

/-- CONVERT is set. -/
def sdConv (d : List Byte) : Bool := sdFlag d 1

/-- The run quantises. -/
def sdQuant (d : List Byte) : Bool := sdConv d && num d 115 1 == 0

/-- The scale slots a command or its run encodes under (R205). -/
def slotsOf (e : Eng) (c : RunCmd) : List Nat :=
  match opcode c.desc with
  | 0x10 | 0x11 => (fp8Slot c.desc).toList
  | 0x30 =>
    (e.st.slots.flatMap (fun s => s.2.run.toList ++ s.2.waiting.toList)).filterMap (fun r =>
      if r.cmdId = c.id ∧ sdQuant r.desc ∧ sdFlag r.desc 3 then some (fld (num r.desc 116 2) 0 10) else none)
  | 0x40 => if bit (num c.desc 24 2) 6 then [fld (num c.desc 26 2) 0 10] else []
  | 0x42 => if bit (num c.desc 24 1) 1 then [fld (num c.desc 26 2) 0 10] else []
  | 0x43 => if num c.desc 20 1 = 2 ∨ num c.desc 20 1 = 3 then [fld (num c.desc 24 2) 0 10] else []
  | _ => []

/-- A command of an earlier step still encodes under a slot (R207). -/
def slotBusy (e : Eng) (id step n : Nat) : Bool :=
  e.hl.cmds.any (fun o => o.id != id && o.done.isNone && !o.carried && decide (o.step < step) && (slotsOf e o).contains n)

/-- The slots of a command are free of earlier steps' blocks (R207). -/
def slotsFree (e : Eng) (c : RunCmd) : Bool := (slotsOf e c).all (fun n => !slotBusy e c.id c.step n)

/-- A command waits until other commands, or its outputs, let it go on. -/
def tryAgain (id : Nat) (e : Eng) : Eng := setCmd id (fun c => { c with retry := true }) e

/-- A spanning bag whose joined result has SATURATED set (R104); its partials were counted where they were pooled. -/
def joinedSaturated (b : BagItem) : Bool :=
  decide (1 < b.parts.length) && (b.parts.filterMap (·.data)).any (fun d => d.saturated && !d.poisoned)

/-- Write the outputs of a look-up whose parts are in, and complete it (R78). It waits while an output address does not
translate. -/
def writeLookup (c : RunCmd) (align : Nat) (bs : List BagItem) (t : TD) (e : Eng) : Eng :=
  let d := c.desc
  let rows := opcode d == 0x11
  let fmt := num d 19 1
  let f : OutForm :=
    { t, conf := confAt e c.step, rows, fmt, slot := fld (num d 22 2) 0 10, step := c.step
      join := bit (num d 21 1) 4, mean := num d 18 1 == 1, out := num d 40 8, stride := outStride (outSize t fmt) align }
  let size := align64 (16 + 4 * t.dim)
  let all := fun (a : OutAcc) =>
    a.writes ++ [(⟨f.out + align64 (bs.length * f.stride), a.status⟩ : HWrite)] ++
      a.parts.zipIdx.map (fun p => (⟨num d 48 8 + p.2 * size, p.1⟩ : HWrite))
  let q := translateHost (.cmd c.id) ((all (outBags f bs {} e).1).map (fun w => ⟨w.addr, w.data.length, 1⟩)) e
  match q.2 with
  | none => q.1
  | some ps =>
    let r := outBags f bs {} q.1
    let e := (ps.zip (all r.1)).foldl (fun e p => writePieces c.id p.1 p.2.data e) r.2
    let e := count Ctr.plBagsSaturated (if f.join && !rows then bs.countP joinedSaturated else 0) e
    finish c.id (if c.poison then poisonRec t.id r.1 else lookupRec t.id r.1) e

/-- Finish a look-up if everything it needs is there. -/
def tryLookup (id : Nat) (e : Eng) : Eng :=
  match findCmd e id with
  | none => e
  | some c =>
    match c.work with
    | .lookup align bs =>
      if !partsIn bs || c.carried then e
      else if !slotsFree e c then tryAgain id e
      else
        match tdAt e c.step (num c.desc 16 2) with
        | some t => writeLookup c align bs t e
        | none => refuseWith id { status := Status.tableUnknown } e
    | _ => e

/-- Put a part's data where none has arrived (R441). -/
def setPart (shard bag : Nat) (d : PartData) (bs : List BagItem) : List BagItem :=
  bs.map (fun b => if b.bag = bag then
    { b with parts := b.parts.map (fun p => if p.shard = shard ∧ p.data.isNone then { p with data := some d } else p) } else b)

/-- A part arrives for a bag and shard of a command (R94, R441). -/
def gotPart (id shard bag : Nat) (d : PartData) (e : Eng) : Eng :=
  let e := setCmd id (fun c => match c.work with
    | .lookup a bs => { c with work := .lookup a (setPart shard bag d bs) }
    | _ => c) e
  tryLookup id e

/-- Decode a RESULT item's transport form to FP32; a table that is not ROTATED is rotated back once (R94 stage 4). -/
def decodeTransport (t : TD) (form : Nat) (bs : List Byte) : N (List FV) := do
  let v := if form = 1 then (pieces 2 bs).map (fun b => ofBf16 (leNat b))
    else Block.values .int8 t.group
      { scale2 := num bs 0 2, codes := (slice bs 2 t.groups).map (·.toNat), elems := (slice bs (2 + t.groups) t.dim).map (·.toNat) }
  let w ← mapN rnd32 v
  if t.rotated then return w else rotate t.group w

/-- One RESULT item at the requester. -/
def gotItem (t : TD) (b : ResultBody) (i : ResItem) (e : Eng) : Eng :=
  if i.poisoned then
    gotPart b.cmdId b.shard i.bag
      { poisoned := true, unavail := false, saturated := i.saturated, errRow := none, vals := [], slot := [] } e
  else if b.form = 2 then
    gotPart b.cmdId b.shard i.bag
      { poisoned := false, unavail := false, saturated := i.saturated, errRow := none, vals := [], slot := i.data } e
  else
    let r := tallied (decodeTransport t b.form i.data) e
    gotPart b.cmdId b.shard i.bag
      { poisoned := false, unavail := false, saturated := i.saturated, errRow := none, vals := r.1.map toWord, slot := [] } r.2

/-- The command of a request has every part of one shard sent to `peer`. -/
def requestDone (e : Eng) (r : Req) : Bool :=
  match r.body, findCmd e r.cmdId with
  | .index b, some c =>
    (lookupBags c).all (fun bg => bg.parts.all (fun p => p.shard != b.shard || p.data.isSome || !b.entries.any (fun x => x.bag == bg.bag)))
  | .index _, none => true
  | _, _ => false

/-- Forget requests that are finished (R411). -/
def dropDone (e : Eng) : Eng := { e with fb := { e.fb with reqs := e.fb.reqs.filter (fun r => !requestDone e r) } }

/-- RESULT delivered (R94, R441). -/
def opResult (b : ResultBody) (e : Eng) : Eng :=
  match findCmd e b.cmdId with
  | none => e
  | some c =>
    match tdAt e c.step b.table with
    | none => e
    | some t => dropDone (b.items.foldl (fun e i => gotItem t b i e) e)

end Sys2Proof.Machine
end

