-- ==== Sys2Proof/Machine/Storage.lean ====
section
/-! DEFINITION. What the tables are stored in: the last-level memory and its caches, the heap, optimiser state, and the storage of tables
that come and go (R52, R55, R57, R60, R105, R119 to R122, R166 to R169, R264 to R267). -/

namespace Sys2Proof.Machine

/-! ## The last-level memory (R105, R264 to R267) -/

/-- A table of the member has a hot set, so the thatch's units are the thatch's (R266). -/
def anyHotSet (e : Eng) : Bool := e.store.hotSets.any (fun p => !p.2.rows.isEmpty)

/-- Bytes of the thatch on one die (R105). -/
def thatchBytes (e : Eng) : Nat := e.setup.thatchSize * 2 ^ 25

/-- Bytes of replicas on one die: slot and 16-byte directory entry each (R105). -/
def thatchUsed (e : Eng) (d : Nat) : Nat :=
  (e.store.replicas.filter (fun r => r.die == d)).foldl (fun a r => a + r.slot.length + 16) 0

/-- What a unit of a die's last-level memory belongs to (R264). -/
inductive Area
  | buffer
  | staging
  | thatch
  | cache
  deriving DecidableEq, Repr

/-- The halves of a die's last-level memory (R264). -/
inductive Half
  | a
  | b
  deriving DecidableEq, Repr

/-- The half of a unit: units 0 to 3 form half A, units 4 to 7 half B (R264). -/
def unitHalf (u : Nat) : Half := if u < 4 then .a else .b

/-- The area of a unit: the areas are placed from unit 7 downward, buffers, then staging, then the thatch while a table has a hot set; the
cache takes every other unit (R264 to R266). -/
def unitArea (e : Eng) (u : Nat) : Area :=
  let b := e.setup.buffers
  let s := b + e.setup.staging
  if 8 ≤ u + b then .buffer
  else if 8 ≤ u + s then .staging
  else if anyHotSet e && decide (8 ≤ u + s + e.setup.thatchSize) then .thatch
  else .cache

/-- Units of the cache partition (R265, R266, R273). -/
def cacheUnits (e : Eng) : Nat := (List.range 8).countP (fun u => unitArea e u == .cache)

/-- Sets of one die's cache: 16 lines of 32 bytes each in its units of 32 MiB (R267). -/
def cacheSets (e : Eng) : Nat := cacheUnits e * 2 ^ 16

/-- The die of a line. -/
def lineDie (e : Eng) (a : Nat) : Nat := dieOf (unitOf e (32 * a)).1

/-- The set of a line on its die: lines of the die's channels in turn. Log 101. -/
def lineSet (e : Eng) (a : Nat) : Nat :=
  let p := unitOf e (32 * a)
  (p.2 * 256 + p.1 % 256) % max 1 (cacheSets e)

/-- Ways of a set for a share: streams and the window have STREAM_WAYS, granules the others (R267). -/
def shareWays (e : Eng) (stream : Bool) : Nat := if stream then e.setup.streamWays else 16 - e.setup.streamWays

/-- Lines of one set and share after the first `n` go. -/
def keepWays (p : Line → Bool) : Nat → List Line → List Line
  | _, [] => []
  | n, x :: t =>
    if p x then
      match n with
      | 0 => keepWays p 0 t
      | k + 1 => x :: keepWays p k t
    else x :: keepWays p n t

/-- A line becomes the latest used; of its set and share those beyond the ways go, the least recently used first (R267). -/
def useLine (e : Eng) (c : List Line) (x : Line) : List Line :=
  keepWays (fun y => y.set == x.set && y.stream == x.stream && lineDie e y.addr == lineDie e x.addr) (shareWays e x.stream)
    (x :: c.filter (fun y => y != x))

/-- A line as it stands in the cache now. -/
def lineOf (e : Eng) (stream : Bool) (a : Nat) : Line := { addr := a, set := lineSet e a, stream }

/-- The lines fit the cache partition and the shares: what lies in units that are no longer the cache's is dropped (R266, R273). -/
def trimCaches (e : Eng) : Eng :=
  { e with store := { e.store with cache :=
      (e.store.cache.filter (fun x => x.set == lineSet e x.addr)).foldr (fun x c => useLine e c x) [] } }

/-- Cached lines of a span of stack addresses are invalid (R55, R286). -/
def dropLines (a n : Nat) (e : Eng) : Eng :=
  { e with store := { e.store with cache := e.store.cache.filter (fun x => !overlaps a n (32 * x.addr) 32) } }

/-- A table has a hot set, so its filter is probed (R107). -/
def hasHotSet (e : Eng) (t : Nat) : Bool :=
  match Tab.find? e.store.hotSets t with
  | some h => !h.rows.isEmpty
  | none => false

/-- A granule is read, from its die's cache or from a stack; a read that bypasses the cache goes to the stack (R55, R65, R98). -/
def countGranule (t : TD) (row : Nat) (bypass : Bool) (e : Eng) : Eng :=
  let p := granulePlace e t (row / 4)
  let x := lineOf e false (stackAddr e p.1 p.2 / 32)
  let hit := !bypass && e.store.cache.contains x
  let e := { e with store := { e.store with cache := useLine e e.store.cache x } }
  if hit then count Ctr.alDirHit 1 e else stackBytes 32 (count Ctr.alDirMiss 1 e)

/-- The slot a row's placement or entry names, its granule read, and a failed entry counted (R65). -/
def seekRow (t : TD) (row : Nat) (e : Eng) : Option Loc × Eng :=
  if !t.indirect then (rowLoc e t row, e)
  else
    let e := countGranule t row false e
    (rowLoc e t row, count Ctr.alEntryErr (if (rowLoc e t row).isSome then 0 else 1) e)

/-- A row's slot as a close or the partner's repair reads it, with the counters of its granule and of a failure (R45, R65, R104). -/
def fetchRow (t : TD) (row : Nat) (e : Eng) : Option (List Byte) × Eng :=
  let r := seekRow t row e
  let s := readRow e t row
  let e := stackBytes (((r.1.map (fun l => 32 * l.units))).getD 0) r.2
  (s, count Ctr.geIntegrityErr (if s.isSome then 0 else 1) e)

/-! ## The heap (R46, R52, R120, R121). Log 9 -/

/-- First unit after the heap. -/
def heapEnd (e : Eng) : Nat := channelUnits - e.store.reserved

/-- Heap units of one die. -/
def heapUnits (e : Eng) : Nat := 256 * (heapEnd e - e.store.bandTop)

/-- Allocations of one die. -/
def dieAllocs (e : Eng) (d : Nat) : List Alloc := e.store.allocs.filter (fun a => dieOf a.channel == d)

/-- First offset of a channel at which `units` fit among its allocations, in at most `fuel` tries. -/
def firstFit (as : List Alloc) (top units : Nat) : Nat → Nat → Option Nat
  | 0, _ => none
  | f + 1, o =>
    if top < o + units then none
    else match as.find? (fun a => overlaps o units a.offset a.units) with
      | none => some o
      | some a => firstFit as top units f (a.offset + a.units)

/-- A place for `units` on a die: channels in turn from the die's next one, first fit (R52). -/
def findHeap (e : Eng) (d units : Nat) : Option Alloc :=
  (List.range 256).findSome? (fun k =>
    let ch := d * 256 + (Tab.get 0 e.store.allocNext d + k) % 256
    let as := e.store.allocs.filter (fun a => a.channel == ch)
    (firstFit as (heapEnd e) units (as.length + 1) e.store.bandTop).map (fun o => ⟨ch, o, units⟩))

/-- Take an allocation. -/
def takeHeap (a : Alloc) (e : Eng) : Eng :=
  { e with store := { e.store with allocs := a :: e.store.allocs
                                   allocNext := Tab.set e.store.allocNext (dieOf a.channel) ((a.channel + 1) % 256) } }

/-- A slot left by a directory flip goes on the pending list of the current drain epoch (R121). -/
def retire (l : Loc) (e : Eng) : Eng :=
  let a : Alloc := ⟨l.channel, l.offset, l.units⟩
  if e.store.epoch then { e with store := { e.store with free1 := e.store.free1 ++ [a] } }
  else { e with store := { e.store with free0 := e.store.free0 ++ [a] } }

/-- Advance the drain epoch once, if no look-up holds the other epoch's tag (R121). -/
def advanceOnce (e : Eng) : Eng :=
  let st := e.store
  if st.epoch then
    if st.tags0 = 0 then
      count Ctr.alEpochAdvances 1 { e with store := { st with
        epoch := false, allocs := st.allocs.filter (fun a => !st.free0.contains a), free0 := [] } }
    else e
  else if st.tags1 = 0 then
    count Ctr.alEpochAdvances 1 { e with store := { st with
      epoch := true, allocs := st.allocs.filter (fun a => !st.free1.contains a), free1 := [] } }
  else e

/-- The pending list of the current epoch is not empty. -/
def currentPending (e : Eng) : Bool := if e.store.epoch then !e.store.free1.isEmpty else !e.store.free0.isEmpty

/-- Advance as soon as the rule allows and the current list is non-empty (R121). -/
def drainAdvance (e : Eng) : Eng := if currentPending e then advanceOnce e else e

/-- At the start and the completion of a close: advance until both lists are empty, at most twice (R121). -/
def drainAll (e : Eng) : Eng :=
  let go := fun (e : Eng) => if e.store.free0.isEmpty && e.store.free1.isEmpty then e else advanceOnce e
  go (go e)

/-- A look-up's tag, taken when its granule read returns, and given back when it retires (R121). -/
def tagLookup (e : Eng) : Eng :=
  if e.store.epoch then { e with store := { e.store with tags1 := e.store.tags1 + 1 } }
  else { e with store := { e.store with tags0 := e.store.tags0 + 1 } }

/-- Give a tag back. -/
def untagLookup (tag : Bool) (e : Eng) : Eng :=
  if tag then { e with store := { e.store with tags1 := e.store.tags1 - 1 } }
  else { e with store := { e.store with tags0 := e.store.tags0 - 1 } }

/-- Free heap units of a die. -/
def freeUnits (e : Eng) (d : Nat) : Nat := heapUnits e - (dieAllocs e d).foldl (fun a x => a + x.units) 0

/-- Allocate `units` on a die (R52). A growing move must leave the reserve free (R120). -/
def allocate (d units : Nat) (grows : Bool) (e : Eng) : Option (Loc × Eng) :=
  if freeUnits e d < units ∨ (grows ∧ freeUnits e d - units < e.store.reserveNow * 2 ^ 15) then none
  else (findHeap e d units).map (fun a => (⟨a.channel, a.offset, 0, units, 0⟩, takeHeap a e))

/-- The format that a slot's entry names: its own, or for a lost slot the one its size tells. -/
def fmtOfSlot (t : TD) (slot : List Byte) : Nat :=
  if slotFormat slot = 0 then (((t.classes.map t.fmtOf).find? (fun f => t.slotSize f == slot.length)).getD t.directFmt)
  else slotFormat slot

/-- Write an entry with VALID clear, which names no slot (R45). The spec gives none of its other fields but, where the partner's copy is
known, version and format. Log 134. -/
def voidEntry (t : TD) (row version fmt : Nat) (e : Eng) : Eng :=
  let a : AlEntry := { version, valid := false, epoch := false, fmt, units := 1, channel := 0, offset := 0 }
  writeEntry t row (a.word (placeId e t.id) row) e

/-- Put a new slot for an indirect row and flip its entry; the old slot is retired (R119 items 4 and 5, R125). None
where no slot can be allocated. -/
def moveRow (t : TD) (i : Nat) (slot : List Byte) (version : Nat) (old : Option Loc) (grows : Bool) (e : Eng) : Option Eng :=
  (allocate (homeDie e t i) (slot.length / 32) grows e).map (fun r =>
    let e := writeSlotAt r.1.channel r.1.offset slot r.2
    let a : AlEntry := { version, valid := true, epoch := e.store.epoch, fmt := fmtOfSlot t slot
                         units := slot.length / 32, channel := r.1.channel, offset := r.1.offset }
    let e := writeEntry t i (a.word (placeId e t.id) i) e
    match old with
    | some l => retire l e
    | none => e)

/-- Write a partner's slot as this member's: in place where it fits, with the partner's version and format, else in a newly
allocated slot (R45, R56, R452). None where none can be allocated. -/
def placeSlot (t : TD) (row : Nat) (slot : List Byte) (e : Eng) : Option Eng :=
  match rowLoc e t row with
  | some l =>
    if !t.indirect then some (writeSlotAt l.channel l.offset slot e)
    else if l.units * 32 = slot.length then
      let a := { parseEntry (readEntry e t row) with version := slotVersion slot, fmt := fmtOfSlot t slot }
      some (writeEntry t row (a.word (placeId e t.id) row) (writeSlotAt l.channel l.offset slot e))
    else moveRow t row slot (slotVersion slot) (some l) false e
  | none => moveRow t row slot (slotVersion slot) none false e

/-- A row's entry fails its check, so its granule has failed; an entry with VALID clear and a right check has not (R45, R53). -/
def entryBroken (e : Eng) (t : TD) (row : Nat) : Bool :=
  let w := readEntry e t row
  t.indirect && alCheck (w - w % 128) (placeId e t.id) row != w % 128

/-- The rows of a row's granule that this member holds. -/
def granuleRows (e : Eng) (c : Conf) (t : TD) (row : Nat) : List Nat :=
  ((List.range 4).map (fun k => row / 4 * 4 + k)).filter (fun i => (localRows c t (ownPair e)).contains i)

/-- The die of a row's granule rebuilds its map at the next close (R45, R122). -/
def rebuildLater (t : TD) (row : Nat) (e : Eng) : Eng :=
  let d := homeDie e t row
  if e.store.rebuild.contains d then e else { e with store := { e.store with rebuild := d :: e.store.rebuild } }

/-- With no partner, no row of a failed granule can be supplied: each entry is written with VALID clear (R45). -/
def voidGranule (c : Conf) (t : TD) (row : Nat) (e : Eng) : Eng :=
  (granuleRows e c t row).foldl (fun e i => voidEntry t i 0 0 e) (rebuildLater t row e)

/-- The row's granule failed, and the row is to be placed anew. -/
def regrains (e : Eng) (t row : Nat) : Bool := e.store.regrain.any (fun q => q.1 == t && q.2.1 == row)

/-- The row of a failed granule is dealt with. -/
def regrained (t row : Nat) (e : Eng) : Eng :=
  { e with store := { e.store with regrain := e.store.regrain.filter (fun q => !(q.1 == t && q.2.1 == row)) } }

/-- Rows whose reads fail are to be placed anew from the partner's copies: those of the row's granule where it failed, else the row. The
second part are the rows not asked for yet (R45). -/
def regrainRows (c : Conf) (t : TD) (step row : Nat) (broken : Bool) (e : Eng) : List Nat × Eng :=
  let rows := (if broken then granuleRows e c t row else [row]).filter (fun i => !regrains e t.id i)
  (rows, { e with store := { e.store with regrain := e.store.regrain ++ rows.map (fun i => (t.id, i, step)) } })

/-- Write back a partner's row: a row of a failed granule takes a new slot and entry, and its die rebuilds its map at the next close; for
one that finds no slot the entry is written with VALID clear, with the partner's version and format (R45, R122). -/
def writeBack (t : TD) (row : Nat) (slot : List Byte) (e : Eng) : Eng :=
  let anew := t.indirect && (regrains e t.id row || (rowLoc e t row).isNone)
  let e := regrained t.id row e
  match if anew then moveRow t row slot (slotVersion slot) none false (rebuildLater t row e) else placeSlot t row slot e with
  | some e => e
  | none => if t.indirect then voidEntry t row (slotVersion slot) (fmtOfSlot t slot) e else e

/-! ## Optimiser state (R166 to R169) -/

/-- A profile of a configuration, by its bytes (R166). -/
def profileBytes (c : Conf) (t : TD) : List Byte := Tab.get [] c.profiles t.profile

/-- Size of a state slot in bytes, 0 for a kind without one (R168). -/
def stateSize (kind dim groups : Nat) : Nat :=
  match kind with
  | 2 => 32
  | 3 => (10 + groups + dim + 31) / 32 * 32
  | 4 => (16 + 2 * groups + 2 * dim + 31) / 32 * 32
  | _ => 0

/-- Size of the state slot of a table's rows. -/
def TD.stateSize (c : Conf) (t : TD) : Nat := Machine.stateSize (num (profileBytes c t) 2 1) t.dim t.groups

/-- A decoded state slot (R168). -/
structure OptState where
  a : FV := .zero
  t : Nat := 0
  m : List FV := []
  r : List FV := []
  deriving DecidableEq, Repr

/-- The fields of an optimiser profile (R166). -/
structure Profile where
  kind : Nat
  bias : Bool
  lr : FV
  beta1 : FV
  beta2 : FV
  eps : FV
  decay : FV
  initAccum : FV
  deriving DecidableEq, Repr

/-- A binary32 field. -/
def floatAt (d : List Byte) (o : Nat) : FV := fromBits 8 23 (num d o 4)

/-- Parse a profile (R166). -/
def parseProfile (d : List Byte) : Profile :=
  { kind := num d 2 1, bias := bit (num d 3 1) 0, lr := floatAt d 8, beta1 := floatAt d 12, beta2 := floatAt d 16
    eps := floatAt d 20, decay := floatAt d 24, initAccum := floatAt d 28 }

/-- The profile of a table. -/
def TD.profile' (c : Conf) (t : TD) : Profile := parseProfile (profileBytes c t)

/-- A state slot's bytes: crc, kind, contents, padding (R168). -/
def mkState (size kind : Nat) (body : List Byte) : List Byte :=
  let b := zeros 3 ++ leBytes 1 kind ++ body
  let b := b ++ zeros (size - 4 - b.length)
  leBytes 4 (crc32c b) ++ b

/-- Encode a state slot; a non-finite accumulator is written as 0 (R168, R170). -/
def encodeState (t : TD) (kind : Nat) (s : OptState) : N (List Byte) := do
  let size := stateSize kind t.dim t.groups
  match kind with
  | 2 =>
    if s.a.finite then return mkState size kind (leBytes 4 (toWord s.a).toNat)
    else
      nonfin 1
      return mkState size kind (zeros 4)
  | 3 =>
    let r ← encOwn .uint8 t.group s.r
    return mkState size kind (blockBytes r)
  | 4 =>
    let m ← encOwn .int8 t.group s.m
    let r ← encOwn .uint8 t.group s.r
    return mkState size kind (leBytes 4 s.t ++ blockBytes m ++ blockBytes r)
  | _ => return []

/-- The values of an encoded part of a state slot. -/
def stateVals (t : TD) (f : Elem) (bs : List Byte) : List FV :=
  Block.values f t.group
    { scale2 := num bs 0 2, codes := (slice bs 2 t.groups).map (·.toNat), elems := (slice bs (2 + t.groups) t.dim).map (·.toNat) }

/-- Decode a state slot (R168). -/
def decodeState (t : TD) (kind : Nat) (bs : List Byte) : OptState :=
  match kind with
  | 2 => { a := floatAt bs 8 }
  | 3 => { r := stateVals t .uint8 (bs.drop 8) }
  | 4 => { t := num bs 8 4, m := stateVals t .int8 (bs.drop 12), r := stateVals t .uint8 (bs.drop (14 + t.groups + t.dim)) }
  | _ => {}

/-- Initial state (R169). -/
def initState (t : TD) (p : Profile) : N OptState := do
  match p.kind with
  | 2 => return { a := p.initAccum }
  | 3 =>
    let r ← sqrt32 p.initAccum
    return { r := List.replicate t.dim r }
  | 4 => return { m := List.replicate t.dim .zero, r := List.replicate t.dim .zero }
  | _ => return {}

/-- The bytes of a state slot in initial state. -/
def initStateBytes (t : TD) (p : Profile) : List Byte := ((do let s ← initState t p; encodeState t p.kind s).run {}).1

/-- The place of a row's state slot, in the heap of its home die (R168). Log 10. -/
def statePlace (e : Eng) (t row : Nat) : Option Alloc := (e.steps.states.find? (fun s => s.1 == (t, row))).map (·.2)

/-- The state slot of a row as it stands; a row for which there is no slot is in initial state. Log 10. -/
def stateOf (e : Eng) (t : TD) (p : Profile) (row : Nat) : List Byte :=
  match statePlace e t.id row with
  | some a => readUnits e a.channel a.offset a.units
  | none => initStateBytes t p

/-- A state slot passes: its crc checks. A kind without state has none (R174). -/
def stateGood (bs : List Byte) : Bool := bs.isEmpty || slotCrcOk bs

/-- Write a row's state slot. -/
def setState (table row : Nat) (bs : List Byte) (e : Eng) : Eng :=
  match statePlace e table row with
  | some a => writeSlotAt a.channel a.offset bs e
  | none => e

/-- Write a row's state slot in initial state (R157, R169). -/
def resetState (c : Conf) (t : TD) (row : Nat) (e : Eng) : Eng := setState t.id row (initStateBytes t (t.profile' c)) e

/-- A new row's state slot, in initial state (R57, R168, R169). Log 133. -/
def initRowState (c : Conf) (t : TD) (e : Eng) (row : Nat) : Eng :=
  let n := t.stateSize c / 32
  if n = 0 then e
  else match allocate (homeDie e t row) n false e with
    | some (l, e) =>
      resetState c t row { e with steps := { e.steps with states := ((t.id, row), ⟨l.channel, l.offset, n⟩) :: e.steps.states } }
    | none => e

/-! ## Tables coming and going (R57, R60) -/

/-- Write one row of a table as the zero row in its initial class (R57). A row for which the heap has no slot is left without a valid entry,
which the spec does not speak of. Log 133. -/
def initRow (t : TD) (e : Eng) (i : Nat) : Eng :=
  let fmt := t.fmtOf t.init
  let s := zeroSlot t fmt
  if t.indirect then (moveRow t i s 0 none false e).getD e
  else match rowLoc e t i with
    | some l => writeSlotAt l.channel l.offset s e
    | none => e

/-- grad_exp_init of a table's profile (R160). -/
def expInit (c : Conf) (t : TD) : Int := sext 16 (num (profileBytes c t) 4 2)

/-- Initialise a table's storage: every row of the shard a zero row (R57). -/
def initTable (c : Conf) (t : TD) (e : Eng) : Eng :=
  let e := { e with store := { e.store with place := Tab.erase e.store.place t.id } }
  let e := (localRows c t (ownPair e)).foldl (initRow t) e
  let e := (localRows c t (ownPair e)).foldl (initRowState c t) e
  { e with
    store := { e.store with ready := t.id :: e.store.ready.filter (· != t.id) }
    steps := { e.steps with exps := Tab.set e.steps.exps t.id (expInit c t) } }

/-- The heap slots of an indirect table's rows. -/
def tableAllocs (e : Eng) (c : Conf) (t : TD) : List Alloc :=
  if t.indirect then (localRows c t (ownPair e)).filterMap (fun i =>
    (rowLoc e t i).map (fun l => ⟨l.channel, l.offset, l.units⟩)) else []

/-- The heap slots of a table's optimiser state. -/
def stateAllocs (e : Eng) (t : Nat) : List Alloc := (e.steps.states.filter (fun p => p.1.1 == t)).map (·.2)

/-- Free a removed table's storage, with its state, hot set and replicas (R60). -/
def freeTable (c : Conf) (t : TD) (e : Eng) : Eng :=
  let as := tableAllocs e c t ++ stateAllocs e t.id
  trimCaches { e with
    store := { e.store with
      allocs := e.store.allocs.filter (fun a => !as.contains a)
      ready := e.store.ready.filter (· != t.id), place := Tab.erase e.store.place t.id
      hotSets := Tab.erase e.store.hotSets t.id
      replicas := e.store.replicas.filter (fun r => r.table != t.id)
      dirty := e.store.dirty.filter (fun p => p.1 != t.id) }
    steps := { e.steps with states := e.steps.states.filter (fun p => p.1.1 != t.id)
                            exps := Tab.erase e.steps.exps t.id } }

/-! ## Heap rebuild (R122) -/

/-- The configurations whose tables have storage: the active one, those before recent changes, and a pending one whose storage is made
(R60, R419). -/
def storedConfs (e : Eng) : List Conf :=
  e.ls.active :: (e.ls.prev.map (·.2) ++ (match e.ls.pend with
    | some (n, c) => if n ≤ e.store.storageStep then [c] else []
    | none => []))

/-- The slots of a die that are in use: those that valid entries of tables with storage name, and the optimiser state slots (R122). -/
def namedSlots (e : Eng) (d : Nat) : List Alloc :=
  let rows := (storedConfs e).flatMap (fun c => c.tables.flatMap (fun p => tableAllocs e c (parseTD p.2)))
  nub ((rows ++ e.steps.states.map (·.2)).filter (fun a => dieOf a.channel == d))

/-- Rebuild the allocation map of a die from its directory (R122). -/
def rebuildHeap (d : Nat) (e : Eng) : Eng :=
  { e with store := { e.store with
    allocs := e.store.allocs.filter (fun a => dieOf a.channel != d) ++ namedSlots e d
    free0 := e.store.free0.filter (fun a => dieOf a.channel != d)
    free1 := e.store.free1.filter (fun a => dieOf a.channel != d)
    rebuild := e.store.rebuild.filter (· != d) } }

/-- Rebuild every die's map (R122). -/
def rebuildAll (e : Eng) : Eng := (List.range e.variant.msDies).foldl (fun e d => rebuildHeap d e) e

/-- Free heap on the member in units: AL_HEAP_FREE (R65). -/
def heapFree (e : Eng) : Nat := (List.range e.variant.msDies).foldl (fun a d => a + freeUnits e d) 0

end Sys2Proof.Machine
end

