-- ==== Sys2Proof/Machine/Gather.lean ====
section
/-! DEFINITION. The owner's look-up path: admission, gather reads and their recovery, pooling and results (chapter 03,
R25, R83 to R99, R107 to R110). -/

namespace Sys2Proof.Machine

/-! ## Pooling (R15 to R17, R90 to R94) -/

/-- The compute die a position's slot goes to: by its home die and its rafter link (R15, R16). Logs 8, 30. -/
def computeDie (e : Eng) (t : TD) (i bag pos : Nat) : Nat :=
  let link := Config.rafterHash t.id i bag pos % 3
  match e.variant with
  | .e8 => 0
  | .e16 => if homeDie e t i % 2 = 0 then (if link < 2 then 0 else 1) else (if link < 1 then 0 else 1)
  | .e24 => link

/-- A row as pooling takes it: its position, values, weight, and whether its format is FP32. -/
structure PoolRow where
  pos : Nat
  vals : List FV
  weight : FV
  wide : Bool
  deriving DecidableEq, Repr

/-- One row into a chunk's accumulators: one fused operation an element (R90). -/
def poolStep (f : Fmt) (acc : List FV) (r : PoolRow) : N (List FV) :=
  zipN (fun a v => rnd f (a.add (v.mul r.weight))) acc r.vals

/-- One chunk from +0, in F24, or in binary32 where it holds an FP32 row (R90, R91). -/
def poolChunk (dim : Nat) (rs : List PoolRow) : N (List FV) :=
  rs.foldlM (poolStep (if rs.any (·.wide) then fmt32 else fmtF24)) (List.replicate dim .zero)

/-- The FP32 sub-total of one compute die: chunks of 16 in ascending order (R91). -/
def poolDie (dim : Nat) (rs : List PoolRow) : N (List FV) :=
  (pieces 16 rs).foldlM (fun sub c => do
    let a ← poolChunk dim c
    zipN add32 sub a) (List.replicate dim .zero)

/-- The joiner adds sub-totals in ascending compute-die number (R17). -/
def joinDies (dim : Nat) (ds : List (List PoolRow)) : N (List FV) :=
  match ds.filter (fun d => !d.isEmpty) with
  | [] => pure (List.replicate dim .zero)
  | d :: t => do
    let s ← poolDie dim d
    t.foldlM (fun a r => do
      let q ← poolDie dim r
      zipN add32 a q) s

/-- INT32 addition with saturation; true where it clamps (R93). -/
def satAdd (a b : Int) : Int × Bool :=
  let s := a + b
  if s > 2147483647 then (2147483647, true) else if s < -2147483648 then (-2147483648, true) else (s, false)

/-- Add two integer vectors with saturation. -/
def satAddV (a b : List Int × Bool) : List Int × Bool :=
  let r := (a.1.zip b.1).map (fun p => satAdd p.1 p.2)
  (r.map (·.1), a.2 || b.2 || r.any (·.2))

/-- The integer elements of an I16 slot. -/
def i16Elems (t : TD) (s : List Byte) : List Int := (pieces 2 (slice s 8 (2 * t.dim))).map (fun b => sext 16 (leNat b))

/-- The sub-total of one die for an I16 table: chunks of 16 summed, then added (R93). -/
def poolDieInt (dim : Nat) (rs : List (List Int)) : List Int × Bool :=
  let z := (List.replicate dim (0 : Int), false)
  (pieces 16 rs).foldl (fun sub c => satAddV sub (c.foldl (fun a r => satAddV a (r, false)) z)) z

/-- Put a position among positions in ascending order. -/
def insertPos (x : JobPos) : List JobPos → List JobPos
  | [] => [x]
  | y :: t => if x.pos ≤ y.pos then x :: y :: t else y :: insertPos x t

/-- The positions of a job, ascending. -/
def Job.sorted (j : Job) : List JobPos := j.poss.foldr insertPos []

/-- The rows of a job by compute die, each in ascending position (R91). -/
def byDie (e : Eng) (t : TD) (j : Job) : List (List JobPos) :=
  (List.range e.variant.computeDies).map (fun d => j.sorted.filter (fun p => computeDie e t p.row j.bag p.pos == d))

/-- The slot of a served position. -/
def JobPos.slot (p : JobPos) : List Byte :=
  match p.st with
  | .got s => s
  | _ => []

/-- The pooled result of a job whose positions are all served: FP32 elements, and SATURATED (R91 to R94). -/
def poolJob (e : Eng) (c : Conf) (t : TD) (j : Job) : N (List FV × Bool) := do
  let dies := byDie e t j
  let total ←
    if t.directFmt == 9 && t.permits 3 then do
      let r := (dies.map (fun d => poolDieInt t.dim (d.map (fun p => i16Elems t p.slot)))).foldl satAddV
        (List.replicate t.dim (0 : Int), false)
      let v ← mapN (fun s => rnd32 ((ofInt s).mul (ofBf16 t.scale))) r.1
      pure (v, r.2)
    else do
      let rows := dies.map (fun d => d.map (fun p =>
        ({ pos := p.pos, vals := slotValues c t p.slot, weight := (p.weight.map ofWord).getD .one
           wide := slotFormat p.slot == 1 } : PoolRow)))
      nonfin ((rows.flatten.map (fun r => r.vals.countP (fun x => !x.finite))).foldl (· + ·) 0)
      let v ← joinDies t.dim rows
      pure (v, false)
  if j.kind = 1 then
    let v ← mapN (fun x => quotient fmt32 x (ofInt j.poss.length)) total.1
    return (v, total.2)
  else return total

/-- The transport form of a result (R95): form code and bytes. -/
def transport (t : TD) (t16 : Bool) (v : List FV) : N (Nat × List Byte) := do
  let w ← if t.rotated then pure v else rotate t.group v
  if t16 then
    let q ← mapN (rnd fmtBf16) w
    return (1, q.flatMap (fun x => leBytes 2 (toBf16 x)))
  else
    let b ← encOwn .int8 t.group w
    return (0, blockBytes b)

/-! ## Admission (R25, R84, R434) -/

/-- The member serves rows (R434). -/
def serving (e : Eng) : Bool := e.rg.state == .paired || e.rg.state == .solo

/-- Look-ups of a step are admitted: the close of the step before is complete; or with no close on record the step is no later than the one
that the first STEP_OPEN named (R22, R25). -/
def admits (e : Eng) (s : Nat) : Bool :=
  match e.steps.lastClosed with
  | some c => decide (s ≤ c + 1)
  | none => match e.steps.firstOpened with
    | some o => decide (s ≤ o)
    | none => false

/-- The table's storage at a step exists, or the table is not active there at all (R84). -/
def tableSettled (e : Eng) (s t : Nat) : Bool := e.store.ready.contains t || (tdAt e s t).isNone

/-- A partner that is ready to cut over has completed the next close: it holds what belongs to later steps (R453). -/
def cutoverHolds (e : Eng) (s : Nat) : Bool :=
  e.rg.resilver.ready && e.steps.lastClosed != e.rg.resilver.mark &&
    (match e.steps.lastClosed with | some c => decide (c < s) | none => true)

/-- A member in PAIRED that has lost the ridge link, or whose verdict is deferred, acknowledges no entry and begins no close
(R436, R467). -/
def linkHeld (e : Eng) : Bool := e.rg.state == .paired && (e.rg.linkLost || e.rg.verdict == .deferred)

/-- An index batch can be served now. -/
def canServe (e : Eng) (s t : Nat) : Bool := serving e && admits e s && !cutoverHolds e s && tableSettled e s t

/-! ## Reads -/

/-- The replicas of a row that are valid, in ascending k (R110). -/
def validReplicas (e : Eng) (t i : Nat) : List Replica :=
  e.store.replicas.filter (fun r => r.table == t && r.row == i && r.valid)

/-- The replica that serves a position: k from the fixed hash modulo f (R108). Log 8. -/
def replicaFor (e : Eng) (t : TD) (i bag pos : Nat) : Option Replica :=
  match validReplicas e t.id i with
  | [] => none
  | r :: rs =>
    let f := (e.store.replicas.filter (fun q => q.table == t.id && q.row == i)).length
    let k := Config.replicaHash t.id i bag pos % f
    match (r :: rs).find? (fun q => q.k == k) with
    | some q => some q
    | none => some r

/-- A read at its start: the granule of an indirect row, the slot of a direct one (R87). -/
def newRead (e : Eng) (t : TD) (i step : Nat) (w : Nat × Nat) : GRead :=
  let p := bandPlace e t i (t.slotUnits t.directFmt)
  if t.indirect then
    { table := t.id, row := i, step, phase := .granule, channel := 0, offset := 0, units := 0, entry := 0, tag := none, waiters := [w] }
  else
    { table := t.id, row := i, step, phase := .slot, channel := p.1, offset := p.2, units := t.slotUnits t.directFmt
      entry := 0, tag := none, waiters := [w] }

/-- Count a read's start. -/
def countRead (t : TD) (r : GRead) (e : Eng) : Eng :=
  match r.phase with
  | .granule => countGranule t r.row false e
  | .slot => stackBytes (32 * r.units) (count Ctr.geRowsRead 1 e)
  | _ => e

/-- Add a waiter, the index of number `n`, to the read of a list's place. -/
def joinRead (k n : Nat) (w : Nat × Nat) (e : Eng) : Eng :=
  { e with store := { e.store with reads := (e.store.reads.zipIdx).map (fun p =>
      if p.2 = k then { p.1 with waiters := p.1.waiters ++ [w], last := n } else p.1) } }

/-- The number of the index the gather engine of a die accepts next (R88). -/
def indexNo (e : Eng) (die : Nat) : Nat := Tab.get 0 e.store.gathered die

/-- The gather engine of a die accepts an index. -/
def acceptIndex (die : Nat) (e : Eng) : Eng := { e with store := { e.store with gathered := Tab.modify 0 e.store.gathered die (· + 1) } }

/-- A read is shared by one of the last 4,096 indices its gather engine accepted before number `n` (R88). Log 29. -/
def GRead.recent (r : GRead) (n : Nat) : Bool := decide (n ≤ r.last + 4096)

/-- Put a read among those outstanding. -/
def pushRead (r : GRead) (e : Eng) : Eng := { e with store := { e.store with reads := e.store.reads ++ [r] } }

/-- The home-slot read of a row: merged with one in flight for the same table, row and step (R88), or held behind one
that waits for a repair (R98), or new. A position that waits for a repair is served by that read and counts as merged. Log 132. -/
def readHome (t : TD) (i step : Nat) (w : Nat × Nat) (e : Eng) : Eng :=
  let same := fun (r : GRead) => r.table == t.id && r.row == i && r.step == step &&
    (match r.phase with | .replica _ | .replicaRepair => false | _ => true)
  let d := homeDie e t i
  let n := indexNo e d
  let k := e.store.reads.findIdx (fun r => same r && ((e.setup.mergeEn && r.recent n) || r.phase == .repair))
  let e := acceptIndex d e
  match e.store.reads[k]? with
  | some _ => count Ctr.geRowsMerged 1 (joinRead k n w e)
  | none =>
    let r := { newRead e t i step w with last := n }
    pushRead r (countRead t r e)

/-- The read of a replica, merged on its serving die (R88, R108). -/
def readReplica (t : TD) (r : Replica) (step : Nat) (w : Nat × Nat) (e : Eng) : Eng :=
  let n := indexNo e r.die
  let same := fun (q : GRead) =>
    q.table == t.id && q.row == r.row && q.step == step && q.phase == .replica r.k && e.setup.mergeEn && q.recent n
  let k := e.store.reads.findIdx same
  let e := acceptIndex r.die (count Ctr.thForwards (if r.k = 0 then 0 else 1) e)
  match e.store.reads[k]? with
  | some _ => count Ctr.geRowsMerged 1 (joinRead k n w e)
  | none => pushRead { table := t.id, row := r.row, step, phase := .replica r.k, channel := 0, offset := 0, units := 0
                       entry := 0, tag := none, waiters := [w], last := n } e

/-- A row outside the hot set for which the filter is positive too: one in 128 of the rows from 128 and from five times the set's size up,
which is under 1% of the rows outside the set; which of them is free (R107). Log 125. -/
def filterFalse (rows : List Nat) (row : Nat) : Bool :=
  decide (128 ≤ row ∧ 5 * rows.length ≤ row) && row % 128 == Config.filterClass rows % 128

/-- The membership filter of a table is positive for a row: always for a row of its hot set (R107). -/
def filterHit (e : Eng) (t row : Nat) : Bool :=
  match Tab.find? e.store.hotSets t with
  | some h => !h.rows.isEmpty && (h.rows.contains row || filterFalse h.rows row)
  | none => false

/-- Begin serving one position: the thatch first, then the home slot (R87, R108). A positive filter with no valid replica is
counted (R135). -/
def startPos (t : TD) (j : Job) (k : Nat) (p : JobPos) (e : Eng) : Eng :=
  match (if hasHotSet e t.id then replicaFor e t p.row j.bag p.pos else none) with
  | some r => readReplica t r j.step (j.id, k) e
  | none => readHome t p.row j.step (j.id, k) (count Ctr.thFilterFalse (if filterHit e t.id p.row then 1 else 0) e)

/-- The die whose gather engine holds a read (R83, R108). -/
def readDie (e : Eng) (r : GRead) : Nat :=
  let home := match tdAt e r.step r.table with
    | some t => homeDie e t r.row
    | none => 0
  match r.phase with
  | .replica k => ((e.store.replicas.find? (fun x => x.table == r.table && x.row == r.row && x.k == k)).map (·.die)).getD home
  | _ => home

/-- The die whose gather engine takes a position: its replica's, or the row's home (R83, R108). -/
def indexDie (e : Eng) (t : TD) (row bag pos : Nat) : Nat :=
  match (if hasHotSet e t.id then replicaFor e t row bag pos else none) with
  | some r => r.die
  | none => homeDie e t row

/-- All the outstanding reads of a die's gather engine are in use (R86). -/
def gatherFull (e : Eng) (die : Nat) : Bool := 
  decide (16384 ≤ e.store.reads.countP (fun r => r.phase != .homeWait && readDie e r == die))

/-! ## Results -/

/-- Change a job. -/
def setJob (id : Nat) (f : Job → Job) (e : Eng) : Eng :=
  { e with store := { e.store with jobs := e.store.jobs.map (fun j => if j.id = id then f j else j) } }

/-- Forget a job. -/
def dropJob (id : Nat) (e : Eng) : Eng := { e with store := { e.store with jobs := e.store.jobs.filter (fun j => j.id != id) } }

/-- Begin the read of a position, or note that it waits for room in its gather engine (R86). -/
def startOrWait (t : TD) (j : Job) (k : Nat) (p : JobPos) (e : Eng) : Eng :=
  if gatherFull e (indexDie e t p.row j.bag p.pos) then { e with store := { e.store with startWait := e.store.startWait ++ [(j.id, k)] } }
  else startPos t j k p e

/-- Begin the reads of a job's positions that wait. -/
def startJob (t : TD) (j : Job) (e : Eng) : Eng :=
  j.poss.zipIdx.foldl (fun e p => if p.1.st = .waiting then startOrWait t j p.2 p.1 e else e) e

/-- The lowest-position row of a job that failed: its position and its global index (R100). -/
def failedRow (e : Eng) (c : Conf) (t : TD) (j : Job) : Option (Nat × Nat) :=
  (j.sorted.find? (fun p => p.st == .poison)).map (fun p => (p.pos, globalRow c t (ownPair e) p.row))

/-- Send or deliver one item of a job (R82, R94 stage 3). -/
def answer (t : TD) (j : Job) (pd : PartData) (e : Eng) : Eng :=
  if j.requester = e.fb.node then gotPart j.cmdId j.shard j.bag pd e
  else
    let form := if j.kind = 3 then 2 else if j.transport16 then 1 else 0
    let r : (Nat × List Byte) × Eng :=
      if pd.poisoned then ((form, zeros (if form = 2 then outSize t 0xF else if form = 1 then 2 * t.dim else outSize t 2)), e)
      else if j.kind = 3 then ((2, pd.slot), e)
      else tallied (transport t j.transport16 pd.floats) e
    sendPacket j.requester j.step (.result { table := j.table, shard := j.shard, cmdId := j.cmdId, form := r.1.1, items := [{ bag := j.bag, poisoned := pd.poisoned, saturated := pd.saturated, data := r.1.2 }] }) false r.2

/-- The answer of a poisoned job. -/
def poisonJob (t : TD) (j : Job) (row : Option (Nat × Nat)) (e : Eng) : Eng :=
  answer t j { poisoned := true, unavail := false, saturated := false, errRow := row, vals := [], slot := [] }
    (count Ctr.geBagsPoisoned 1 (dropJob j.id e))

/-- A job whose positions are all in: pool and answer it. With a residue mismatch it is pooled once more from fresh
reads, and poisoned the second time (R99). -/
def finishJob (residue : Bool) (j : Job) (e : Eng) : Eng :=
  let c := confAt e j.step
  match tdIn c j.table with
  | none => dropJob j.id e
  | some t =>
    if j.poss.any (fun p => p.st == .poison) then poisonJob t j (failedRow e c t j) e
    else if residue then
      let e := count Ctr.plResidueErr 1 e
      if j.retried then poisonJob t j (some (2 ^ 31, 0xFFFFFFFFFF)) e
      else
        let j' := { j with retried := true, poss := j.poss.map (fun p => { p with st := .waiting }) }
        startJob t j' (setJob j.id (fun _ => j') (count Ctr.plBagsRecomputed 1 e))
    else
      let e := counts [(Ctr.plLookups, if j.kind = 3 then 0 else j.poss.length), (Ctr.ctJobLookups, j.poss.length)] (dropJob j.id e)
      if j.kind = 3 then
        let slot := (j.poss.head?.map (·.slot)).getD []
        answer t j { poisoned := false, unavail := false, saturated := false, errRow := none, vals := [], slot } e
      else
        let r := tallied (poolJob e c t j) e
        answer t j { poisoned := false, unavail := false, saturated := r.1.2, errRow := none, vals := r.1.1.map toWord, slot := [] }
          (count Ctr.plBagsSaturated (if r.1.2 then 1 else 0) r.2)

/-- The job has every position it will have, and each is served. -/
def Job.ready (j : Job) : Bool := j.complete && j.poss.all (fun p => p.st != .waiting)

/-- Finish the job `id` if it is ready. -/
def tryJob (residue : Bool) (id : Nat) (e : Eng) : Eng :=
  match e.store.jobs.find? (fun j => j.id == id) with
  | some j => if j.ready then finishJob residue j e else e
  | none => e

/-- Deliver a read's outcome to every position that waits on it, and finish the jobs it completes (R88). -/
def deliver (residue : Bool) (st : PosState) (ws : List (Nat × Nat)) (e : Eng) : Eng :=
  let e := ws.foldl (fun e w => setJob w.1 (fun j => { j with poss := j.poss.zipIdx.map (fun p =>
    if p.2 = w.2 then { p.1 with st } else p.1) }) e) e
  (nub (ws.map (·.1))).foldl (fun e id => tryJob residue id e) e

/-- Retire read `k`: out of the list, its drain tag given back (R121). -/
def retireRead (k : Nat) (r : GRead) (e : Eng) : Eng :=
  let e := { e with store := { e.store with reads := e.store.reads.eraseIdx k } }
  drainAdvance (match r.tag with
    | some b => untagLookup b e
    | none => e)

/-- Change read `k`. -/
def setRead (k : Nat) (r : GRead) (e : Eng) : Eng := { e with store := { e.store with reads := e.store.reads.set k r } }

/-- Ask the partner for one row, naming the version that the member read (R98 item 2, R126). -/
def askRow (t : TD) (step row version : Nat) (e : Eng) : Eng :=
  sendRidge (.repair { kind := .row, table := t.id, row, step, version }) e

/-- An entry failed: each row of its granule is asked of the partner, to be placed anew; where only the row's entry has VALID clear, the
row (R45). -/
def failGranule (t : TD) (step row : Nat) (broken : Bool) (e : Eng) : Eng :=
  let r := regrainRows (confAt e step) t step row broken e
  r.1.foldl (fun e i => askRow t step i 256 e) r.2

/-- The read of a row that waits for the partner, other than read `k` (R98). -/
def repairRead (k : Nat) (table row : Nat) (e : Eng) : Option Nat :=
  (e.store.reads.zipIdx.find? (fun p => p.2 != k && p.1.table == table && p.1.row == row && p.1.phase == .repair)).map (·.2)

/-- A read waits with one of the same row whose repair is outstanding: its positions take that one's outcome (R98). -/
def waitForRepair (k j : Nat) (r : GRead) (e : Eng) : Eng :=
  let e := { e with store := { e.store with reads := e.store.reads.zipIdx.map (fun p =>
    if p.2 = j then { p.1 with waiters := p.1.waiters ++ r.waiters } else p.1) } }
  retireRead k r e

/-- A read that fails goes on, unless the repair of its row is outstanding: then it waits for that (R98). -/
def unlessRepaired (k : Nat) (r : GRead) (go : Eng → Eng) (e : Eng) : Eng :=
  match repairRead k r.table r.row e with
  | some j => waitForRepair k j r e
  | none => go e

/-- A read that failed twice: ask the partner, for each row of a granule that fails, or poison (R45, R98 items 2 and 4). With no partner no
row of a failed granule can be supplied, so the member voids its entries. -/
def needRepair (k : Nat) (t : TD) (r : GRead) (granule broken residue : Bool) (e : Eng) : Eng :=
  if e.rg.state = .paired then
    let e := setRead k { r with phase := .repair } e
    if granule then failGranule t r.step r.row broken e else askRow t r.step r.row (entryVersion r) e
  else deliver residue .poison r.waiters (retireRead k r (if granule && broken then voidGranule (confAt e r.step) t r.row e else e))
where
  /-- The row version that the read's entry names. -/
  entryVersion (r : GRead) : Nat := if t.indirect then (parseEntry r.entry).version else 0

/-- The granule read returns: tag, check, and read the slot (R87 item 3, R98 item 1). -/
def granuleDone (k : Nat) (t : TD) (r : GRead) (bad again : Bool) (e : Eng) : Eng :=
  let w := readEntry e t r.row
  let a := parseEntry w
  let e := if r.tag.isNone then tagLookup e else e
  let r := { r with entry := w, tag := if r.tag.isNone then some e.store.epoch else r.tag }
  if bad || !entryGood w (placeId e t.id) r.row then
    let e := count Ctr.alEntryErr (if bad then 0 else 1) e
    unlessRepaired k r (fun e =>
      if again then needRepair k t r true (bad || entryBroken e t r.row) false e
      else
        let e := count Ctr.geIntegrityErr 1 e
        countGranule t r.row true (setRead k { r with phase := .granuleAgain } e)) e
  else
    let r := { r with phase := if again then .slotAgain else .slot, channel := a.channel, offset := a.offset, units := a.units }
    stackBytes (32 * a.units) (count Ctr.geRowsRead 1 (setRead k r e))

/-- The slot read returns: check it, and serve, reread, or repair (R45, R98). A direct-placed table's slot is what the stack holds then: what a
look-up returns is undefined where a host write of the row is not fenced off (R24). Log 130. -/
def slotDone (k : Nat) (t : TD) (r : GRead) (bad residue again : Bool) (e : Eng) : Eng :=
  let a := parseEntry r.entry
  let l : Loc := ⟨r.channel, r.offset, a.fmt, r.units, a.version⟩
  let s := slotAt e l
  if !bad && slotGood t l s then
    deliver residue (.got s) r.waiters (retireRead k r (count Ctr.geRereadOk (if again then 1 else 0) e))
  else unlessRepaired k r (fun e =>
    if again then needRepair k t r false false residue e
    else
      let e := count Ctr.geIntegrityErr 1 e
      if t.indirect then countGranule t r.row true (setRead k { r with phase := .granuleAgain } e)
      else stackBytes (32 * r.units) (count Ctr.geRowsRead 1 (setRead k { r with phase := .slotAgain } e))) e

/-- Mark a replica invalid until the next refresh, and count its failure (R110). -/
def failReplica (x : Replica) (e : Eng) : Eng :=
  count Ctr.thReplicaErr 1 { e with store := { e.store with replicas := e.store.replicas.map (fun y =>
    if y = x then { y with valid := false } else y) } }

/-- A replica passes R110. -/
def replicaGood (t : TD) (r : Replica) : Bool :=
  slotCrcOk r.slot && t.hasFmt (slotFormat r.slot) && slotVersion r.slot == r.version

/-- A read whose replicas all failed goes on at the home slot, behind a repair of the row, or once its gather engine has room (R86, R98,
R110). -/
def homeAgain (q : Nat) (t : TD) (r : GRead) (e : Eng) : Eng :=
  unlessRepaired q r (fun e =>
    if gatherFull e (homeDie e t r.row) then setRead q { r with phase := .homeWait } e
    else
      let n := { newRead e t r.row r.step (0, 0) with waiters := r.waiters, last := r.last }
      countRead t n (setRead q n e)) e

/-- A replica read returns: serve, or mark it invalid and go on by R110. -/
def replicaDone (q : Nat) (t : TD) (r : GRead) (k : Nat) (bad residue : Bool) (e : Eng) : Eng :=
  match e.store.replicas.find? (fun x => x.table == r.table && x.row == r.row && x.k == k) with
  | none => deliver residue .poison r.waiters (retireRead q r e)
  | some x =>
    if !bad && replicaGood t x then deliver residue (.got x.slot) r.waiters (retireRead q r (count Ctr.thHits r.waiters.length e))
    else
      let e := failReplica x e
      match validReplicas e r.table r.row with
      | y :: _ => setRead q { r with phase := .replica y.k } e
      | [] =>
        if !e.store.dirty.contains (r.table, r.row) then homeAgain q t r e
        else if e.rg.state = .paired then
          sendRidge (.repair { kind := .replica, table := r.table, row := r.row, step := r.step, version := x.version })
            (setRead q { r with phase := .replicaRepair } e)
        else deliver residue .poison r.waiters (retireRead q r e)

/-- Outstanding read `k` returns (R87, R98). `bad` marks bits that arrived damaged; `residue` a mismatch in the pooling
that this return completes. -/
def gatherDone (k : Nat) (bad residue : Bool) (e : Eng) : Eng :=
  match e.store.reads[k]? with
  | none => e
  | some r =>
    match tdAt e r.step r.table with
    | none => deliver residue .poison r.waiters (retireRead k r e)
    | some t =>
      match r.phase with
      | .granule => granuleDone k t r bad false e
      | .granuleAgain => granuleDone k t r bad true e
      | .slot => slotDone k t r bad residue false e
      | .slotAgain => slotDone k t r bad residue true e
      | .replica j => replicaDone k t r j bad residue e
      | .repair => e
      | .replicaRepair => e
      | .homeWait => e

/-- Reads that wait for the partner (R98 step 2). -/
def repairsOut (e : Eng) : Nat := e.store.reads.countP (fun r => r.phase == .repair)

/-! ## Index batches -/

/-- A bag of a batch whose table is not active there is answered as poisoned (R84). Its item has the body of a descriptor of zeros, since the
member does not know the table's. Log 131. -/
def refuseBag (h : PktHdr) (b : IndexBody) (bag : Nat) (e : Eng) : Eng :=
  poisonJob (parseTD [])
    { id := 0, requester := h.src, cmdId := b.cmdId, table := b.table, shard := b.shard, bag, kind := b.kind
      transport16 := b.transport16, step := h.step, retried := false, complete := true, poss := [] } none e

/-- The job an entry belongs to: the one in progress, or a new one (R84, R405). -/
def jobFor (h : PktHdr) (b : IndexBody) (bag : Nat) (e : Eng) : Job × Eng :=
  match e.store.jobs.find? (fun j => j.requester == h.src && j.cmdId == b.cmdId && j.shard == b.shard && j.bag == bag) with
  | some j => (j, e)
  | none =>
    let j : Job := { id := e.store.nextJob, requester := h.src, cmdId := b.cmdId, table := b.table, shard := b.shard, bag
                     kind := b.kind, transport16 := b.transport16, step := h.step, retried := false, complete := false, poss := [] }
    (j, { e with store := { e.store with jobs := e.store.jobs ++ [j], nextJob := e.store.nextJob + 1 } })

/-- Serve one entry of a batch; `last` is set on the last one of its bag (R83, R84, R405). -/
def serveEntry (h : PktHdr) (b : IndexBody) (t : TD) (last : Bool) (x : IdxEntry) (e : Eng) : Eng :=
  let r := jobFor h b x.bag e
  let p : JobPos := { pos := x.pos, row := x.row, weight := x.weight, st := .waiting }
  let j := { r.1 with complete := r.1.complete || last, poss := r.1.poss ++ [p] }
  startPos t j r.1.poss.length p (setJob j.id (fun _ => j) r.2)

/-- Serve the entries of a batch in order, up to the first whose gather engine is full; what is left stays held (R86). -/
def serveEntries (h : PktHdr) (b : IndexBody) (t : TD) : List IdxEntry → Eng → List IdxEntry × Eng
  | [], e => ([], e)
  | x :: rest, e =>
    if gatherFull e (indexDie e t x.row x.bag x.pos) then (x :: rest, e)
    else serveEntries h b t rest (serveEntry h b t (b.lasts.contains x.bag && !rest.any (fun y => y.bag == x.bag)) x e)

/-- A served batch that was sent again is counted (R460). -/
def countReissue (h : PktHdr) (e : Eng) : Eng := count Ctr.rgReissuesServed (if h.reissued then 1 else 0) e

/-- Hold a batch, and its credit. -/
def holdIndex (h : PktHdr) (b : IndexBody) (e : Eng) : Eng :=
  { e with store := { e.store with heldIndex := e.store.heldIndex ++ [(h, b)] } }

/-- An earlier batch of the same bags is held, so this one waits behind it (R84, R91). -/
def heldBefore (h : PktHdr) (b : IndexBody) (e : Eng) : Bool :=
  e.store.heldIndex.any (fun p => p.1.src == h.src && p.2.cmdId == b.cmdId && p.2.shard == b.shard)

/-- Take in a batch: serve it, or hold it and its credit (R25, R84, R86). `used` gives the credit back. -/
def takeBatch (used : Nat → Eng → Eng) (h : PktHdr) (b : IndexBody) (e : Eng) : Eng :=
  if canServe e h.step b.table && !heldBefore h b e then
    match tdAt e h.step b.table with
    | none => (nub (b.entries.map (·.bag))).foldl (fun e bag => refuseBag h b bag e) (used h.src (countReissue h e))
    | some t =>
      let r := serveEntries h b t b.entries e
      if r.1.isEmpty then used h.src (countReissue h r.2) else holdIndex h { b with entries := r.1 } r.2
  else holdIndex h b e

/-- Take in a batch as it is delivered. -/
def takeIndex (h : PktHdr) (b : IndexBody) (e : Eng) : Eng := takeBatch consume h b e

/-- Take in a batch that was held, if it is settled now. -/
def retakeIndex (h : PktHdr) (b : IndexBody) (e : Eng) : Eng := takeBatch consumeHeld h b e

/-- Serve every held batch that is settled now (R25, R27 item 6). -/
def admitHeld (e : Eng) : Eng :=
  let hs := e.store.heldIndex
  hs.foldl (fun e p => retakeIndex p.1 p.2 e) { e with store := { e.store with heldIndex := [] } }

/-- Positions and reads that waited for room in a gather engine begin, in the order they came (R86). -/
def startWaiting (e : Eng) : Eng :=
  let ws := e.store.startWait
  let e := ws.foldl (fun e w =>
    match e.store.jobs.find? (fun j => j.id == w.1) with
    | none => e
    | some j => match tdAt e j.step j.table, j.poss[w.2]? with
      | some t, some p => startOrWait t j w.2 p e
      | _, _ => e) { e with store := { e.store with startWait := [] } }
  (List.range e.store.reads.length).foldl (fun e k =>
    match e.store.reads[k]? with
    | some r => if r.phase = .homeWait then (match tdAt e r.step r.table with | some t => homeAgain k t r e | none => e) else e
    | none => e) e

/-- A read waits at the edge of its gather engine or of its stack's controller (R466, R470). -/
def readShut (e : Eng) (k : Nat) : Bool :=
  match e.store.reads[k]? with
  | some r => shutOut e .memory (readDie e r) 0 || shutOut e .memory (dieOf r.channel) (6 + r.channel % 256 / 64)
  | none => false

/-- GATHER_READ_COMPLETE: a return that needs a repair waits while the memory core restarts (R465). Held indices take the room it
leaves (R86). -/
def opGatherDone (k : Nat) (bad residue : Bool) (e : Eng) : Eng :=
  let n := admitHeld (startWaiting (gatherDone k bad residue e))
  if readShut e k || !coreRuns e 4 && decide (repairsOut e < repairsOut n) then e else n

/-- Every look-up of a step that this member has received is retired (R25). -/
def lookupsRetired (e : Eng) (s : Nat) : Bool :=
  e.store.jobs.all (fun j => decide (s < j.step)) && e.store.heldIndex.all (fun p => decide (s < p.1.step))

end Sys2Proof.Machine
end

