-- ==== Sys2Proof/Machine/Peers.lean ====
section
/-! DEFINITION. Requests to the members of owning pairs: halves and leads (R430, R431), the choice of a member within a
step (R442), and sending INDEX, RECORD and skylight requests (R83, R150, R411). -/

namespace Sys2Proof.Machine

/-- The half bit of a row (R430). -/
def halfOf (t i : Nat) : Nat := (i * 0x9E3779B9 + t * 0x85EBCA6B) % 2 ^ 32 / 2 ^ 30 % 2

/-- The lead of a half of a pair: the member whose node-ID bit 0 equals the half. -/
def leadOf (pair half : Nat) : Nat := 2 * pair + half

/-- This member leads the row (R430). -/
def leads (e : Eng) (t i : Nat) : Bool := e.fb.node % 2 == halfOf t i

/-- The peer was declared unreachable and has not answered since (R409). -/
def unreachable (e : Eng) (peer : Nat) : Bool := (session e peer).unreachable

/-- The first loss or redirect at a member in a step raises FAILOVER (R443). -/
def failover (step peer : Nat) (e : Eng) : Eng :=
  if e.fb.failovers.contains (step, peer) then e
  else raiseEvent { kind := Kind.failover, step := some step, node := some peer, arg1 := mate peer }
    { e with fb := { e.fb with failovers := (step, peer) :: e.fb.failovers } }

/-- The rest of a step's requests for a member's half go to the other member (R442). -/
def redirectStep (step peer : Nat) (e : Eng) : Eng :=
  if e.fb.redirected.contains (step, peer) then e else { e with fb := { e.fb with redirected := (step, peer) :: e.fb.redirected } }

/-- A request to a member whose session is lost is lost at once (R409, R411). -/
def noteUnreachable (step peer : Nat) (e : Eng) : Eng :=
  if unreachable e peer then redirectStep step peer (failover step peer e) else e

/-- The member that a request for a half goes to in a step, and whether it is the other one (R442). -/
def memberFor (e : Eng) (step lead : Nat) : Nat × Bool :=
  if e.fb.redirected.contains (step, lead) then (mate lead, true) else (lead, false)

/-- An identifier no request has. -/
def freshReq (e : Eng) : Nat := e.fb.reqs.foldl (fun a r => max a (r.id + 1)) 0

/-- Note a request (R411). A RECORD request tagged 1 was lost at both members and waits to be sent again (R442). -/
def addReqTag (cmd pair peer step tag : Nat) (b : Body) (reissued : Bool) (e : Eng) : Eng :=
  { e with fb := { e.fb with reqs := e.fb.reqs ++ [{ id := freshReq e, cmdId := cmd, pair, peer, step, body := b, reissued, tag }] } }

/-- Note a request (R411). -/
def addReq (cmd pair peer step : Nat) (b : Body) (reissued : Bool) (e : Eng) : Eng := addReqTag cmd pair peer step 0 b reissued e

/-- A command had a request sent to the other member: its completion carries PARTNER (R369, R443). -/
def markPartner (id : Nat) (b : Bool) (e : Eng) : Eng := if b then setCmd id (fun c => { c with partner := true }) e else e

/-! ## INDEX -/

/-- Pack parts into packets of at most 1,020 entries and 4,080 body bytes, by the bytes of each part (R402, R405). -/
def packParts (size : List IdxEntry → Nat) : List IdxEntry → Nat → List (List IdxEntry) → List (List IdxEntry)
  | acc, _, [] => if acc.isEmpty then [] else [acc]
  | acc, n, p :: t =>
    if acc.isEmpty || decide (n + size p ≤ 4080) && decide (acc.length + p.length ≤ 1020) then packParts size (acc ++ p) (n + size p) t
    else acc :: packParts size p (size p) t

/-- A batch cut into packets: whole bags where every bag can be sent NARROW and fits one packet, without run words where all of them can go
UNIFORM; else entry by entry (R405). Log 6. -/
def cutIndex (b : IndexBody) : List (List IdxEntry) :=
  let ws := if b.entries.any (fun x => x.weight.isSome) then 4 else 0
  let rs := runsOf b.entries
  let narrow := fun (r : List IdxEntry) => 4 + (4 + ws) * r.length
  if narrowRuns rs && rs.all (fun r => decide (narrow r ≤ 4080) && decide (r.length ≤ 1020)) then
    packParts (fun r => if (uniformSize b.lasts rs).isSome then (4 + ws) * r.length else narrow r) [] 0 rs
  else packParts (fun r => (4 + 8 + ws) * r.length) [] 0 (b.entries.map (fun x => [x]))

/-- The INDEX packets of a batch; a bag's LAST is on its final run (R405). -/
def indexPackets (lasts : List Nat) : List (List IdxEntry) → List (List IdxEntry × List Nat)
  | [] => []
  | es :: t =>
    let here := lasts.filter (fun b => es.any (fun x => x.bag == b) && !t.any (fun l => l.any (fun x => x.bag == b)))
    (es, here) :: indexPackets lasts t

/-- Send a whole batch to a peer, and note the request. -/
def sendIndex (pair peer step : Nat) (b : IndexBody) (reissued : Bool) (e : Eng) : Eng :=
  let e := markPartner b.cmdId reissued (addReq b.cmdId pair peer step (.index b) reissued e)
  (indexPackets b.lasts (cutIndex b)).foldl (fun e p =>
    sendPacket peer step (.index { b with entries := p.1, lasts := p.2 }) reissued e) e

/-- The bags of a batch that touch an unreachable owner are poisoned (R85). -/
def indexUnavailable (b : IndexBody) (e : Eng) : Eng :=
  let bags := nub (b.entries.map (·.bag))
  let lost := fun (g : BagItem) => g.parts.any (fun (p : PartItem) => match p.data with | some d => d.unavail | none => false)
  let known : List Nat := match findCmd e b.cmdId with
    | some c => ((lookupBags c).filter lost).map (fun g => g.bag)
    | none => []
  bags.foldl (fun e bag => gotPart b.cmdId b.shard bag
    { poisoned := true, unavail := true, saturated := false, errRow := none, vals := [], slot := [] } e)
    (count Ctr.geBagsPoisoned (bags.countP (fun g => !known.contains g)) e)

/-- The member acts as a requester while it joins (R448, R453). -/
def joinerActs (e : Eng) : Bool := e.rg.state == .joining && e.rg.resilver.journaled

/-- A member serves itself (R83), but for one that acts as a requester while it joins. -/
def servesSelf (e : Eng) (pair : Nat) : Bool := pair == ownPair e && !joinerActs e

/-- A request to a member that cannot take it goes to the other one: a member that was declared unreachable, or this one while it
joins (R434, R442). -/
def noteAbsent (step lead : Nat) (e : Eng) : Eng :=
  if lead = e.fb.node then redirectStep step lead (failover step lead e) else noteUnreachable step lead e

/-- Nothing can be sent to a member. -/
def absent (e : Eng) (peer : Nat) : Bool := peer == e.fb.node || unreachable e peer

/-- Send a batch to a half of a pair: to its lead, or by R442 to the other member, or to nobody (R85). A member of the
pair serves itself (R83). -/
def requestIndex (pair half step : Nat) (b : IndexBody) (e : Eng) : Eng :=
  let lead := leadOf pair half
  if servesSelf e pair then takeIndex { hdrTo e e.fb.node step (.index b) false with step } b e
  else
    let e := noteAbsent step lead e
    let m := memberFor e step lead
    if m.2 && absent e m.1 then indexUnavailable b e else sendIndex pair m.1 step b m.2 e

/-! ## RECORD -/

/-- Bytes of an entry in a packet. -/
def entrySize (x : Entry) : Nat := (24 + x.data.length + 7) / 8 * 8

/-- Cut entries into packets of at most 4,080 body bytes (R402, R405). -/
def packEntries : List Entry → Nat → List Entry → List (List Entry)
  | acc, _, [] => if acc.isEmpty then [] else [acc]
  | acc, n, x :: t =>
    if n + entrySize x ≤ 4080 ∨ acc.isEmpty then packEntries (acc ++ [x]) (n + entrySize x) t
    else acc :: packEntries [x] (entrySize x) t

/-- Contribution records sent, first or again, are counted (R185). -/
def countSent (es : List Entry) (e : Eng) : Eng := count Ctr.upRecordsSent (es.countP (fun x => x.kind == 1)) e

/-- Put entries on their way to a peer. -/
def sendRecords (peer step : Nat) (es : List Entry) (reissued : Bool) (e : Eng) : Eng :=
  (packEntries [] 0 es).foldl (fun e p => sendPacket peer step (.record p) (reissued || e.fb.reissue) e) (countSent es e)

/-- Send entries of a command to a peer, and note the request. To the other member of a pair, while that member cannot be
reached either, nothing is sent yet (R442). -/
def sendEntries (cmd pair peer step : Nat) (es : List Entry) (reissued : Bool) (e : Eng) : Eng :=
  if es.isEmpty then e
  else if reissued && absent e peer then addReqTag cmd pair peer step 1 (.record []) true e
  else sendRecords peer step es reissued (addReq cmd pair peer step (.record []) reissued e)

/-! ## Skylights -/

/-- Send one skylight request of a command, and note it under a tag of the command's own (R332, R411). -/
def sendSky (cmd node step tag : Nat) (b : Body) (e : Eng) : Eng :=
  let r : Req := { id := freshReq e, cmdId := cmd, pair := node / 2, peer := node, step, body := b, reissued := false, tag }
  sendPacket node step b false { e with fb := { e.fb with reqs := e.fb.reqs ++ [r] } }

end Sys2Proof.Machine
end

