-- ==== Sys2Proof/Machine/Ingest.lean ====
section
/-! DEFINITION. Entries at an owning member: exact-sum staging (R159 to R163), the seen sets and forwarding (R150, R440),
row-by-row replacement (R125 to R127), and their acknowledgement (R439). -/

namespace Sys2Proof.Machine

/-! ## Exact sums (R159 to R162) -/

/-- The gradient exponent of a table (R160). -/
def expOf (e : Eng) (t : Nat) : Int := Tab.get 0 e.steps.exps t

/-- The exponent of a row in its round: raised by 8 for each overflow (R161, R176). -/
def rowExp (e : Eng) (r : StagedRow) : Int := expOf e r.table + 8 * r.lift

/-- What adding one element gives: the sum, an overflow mark, an underflow count (R161). -/
structure AddOut where
  sum : Int
  overflow : Bool
  underflow : Nat
  deriving DecidableEq, Repr

/-- Add one decoded element to a sum at row exponent `er` (R161). -/
def addElem (er : Int) (s : Int) (x : FV) : AddOut :=
  match x with
  | .fin n m ex =>
    let q := ratRound m 1 (ex + 40 - er)
    let u := if m ≠ 0 ∧ magLt m ex 1 (er - 40) then 1 else 0
    if 2 ^ 63 ≤ q then ⟨s, true, u⟩ else ⟨if n then s - q else s + q, false, u⟩
  | _ => ⟨s, false, 0⟩

/-- The decoded elements of a gradient entry (R147, R148). -/
def gradValues (t : TD) (d : List Byte) : List FV :=
  Block.values .int8 t.group
    { scale2 := num d 0 2, codes := (slice d 2 t.groups).map (·.toNat), elems := (slice d (2 + t.groups) t.dim).map (·.toNat) }

/-- Add a record's elements to a staged row: the row, and the elements counted as underflow. -/
def addRecord (er : Int) (v : List FV) (r : StagedRow) : StagedRow × Nat :=
  let os := (r.sums.zip v).map (fun p => addElem er p.1 p.2)
  ({ r with sums := os.map (·.sum), count := r.count + 1, marked := r.marked || os.any (·.overflow) },
    os.foldl (fun a o => a + o.underflow) 0)

/-- A staged row has overflowed: it was marked, or an element left the range of R162. -/
def overflowed (r : StagedRow) : Bool :=
  r.marked || r.sums.any (fun s => decide (s < -(2 ^ 63 - 1)) || decide (2 ^ 63 - 1 < s))

/-! ## Table failures (R163, R173) -/

/-- The table has failed at this pair in a step. -/
def tableFailed (e : Eng) (step t : Nat) : Bool := e.steps.failed.any (fun f => f.1 == step && f.2.1 == t)

/-- A table fails in a step: its staging is discarded (R173). -/
def failTable (step t detail : Nat) (e : Eng) : Eng :=
  if tableFailed e step t then e
  else count Ctr.upTableFailures 1 { e with steps := { e.steps with
    failed := e.steps.failed ++ [(step, t, detail)]
    staging := e.steps.staging.filter (fun r => r.table != t) } }

/-- The state this member reports in STATUS (R432). -/
def statusOf (e : Eng) : StatusBody :=
  { state := e.rg.state, lastClosed := e.steps.lastClosed, standDown := false, outOfService := false
    tableFailed := none, ridgeReset := false }

/-! ## Staging space (R163) -/

/-- Bytes of a staged row. -/
def rowBytes (r : StagedRow) : Nat := 16 + 12 * r.sums.length

/-- Die of a staged row. -/
def stagedDie (e : Eng) (step : Nat) (r : StagedRow) : Nat :=
  match tdAt e step r.table with
  | some t => homeDie e t r.row
  | none => 0

/-- Bytes of staging on one die, in the scratchpad or in the spill log. -/
def stagedBytes (e : Eng) (step die : Nat) (spilled : Bool) : Nat :=
  (e.steps.staging.filter (fun r => r.spilled == spilled && stagedDie e step r == die)).foldl (fun a r => a + rowBytes r) 0

/-- Bytes of the spill log of one die: a quarter of its reserved region (R163). -/
def spillCap (e : Eng) : Nat := e.store.reserved / 4 * 32 * 256

/-- Stage a new row, in the spill log where the partition is full; none where the spill log is full too. Which row of a die is
spilled has no effect on any result (R163): it is the new one. -/
def stageNew (step : Nat) (t : TD) (row : Nat) (e : Eng) : Option Eng :=
  let r : StagedRow := { table := t.id, row, round := 0, sums := List.replicate t.dim 0, count := 0, marked := false, spilled := false }
  let die := homeDie e t row
  let put := fun (r : StagedRow) (e : Eng) => { e with steps := { e.steps with staging := e.steps.staging ++ [r] } }
  if stagedBytes e step die false + rowBytes r ≤ e.setup.staging * 2 ^ 25 then some (put r e)
  else if stagedBytes e step die true + rowBytes r ≤ spillCap e then
    some (put { r with spilled := true } (count Ctr.upRowsSpilled 1 e))
  else none

/-- Add a gradient record to staging (R161, R162, R176 item 4). -/
def addGrad (step : Nat) (t : TD) (x : Entry) (e : Eng) : Eng :=
  if tableFailed e step t.id then e
  else
    let same := fun (r : StagedRow) => r.table == t.id && r.row == x.row
    let e? := if e.steps.staging.any same then some e else if x.round = 0 then stageNew step t x.row e else none
    match e? with
    | none =>
      if x.round = 0 then
        sendRidge (.status { statusOf e with tableFailed := some (t.id, step, 3) }) (failTable step t.id 3 e)
      else e
    | some e =>
      let k := e.steps.staging.findIdx same
      match e.steps.staging[k]? with
      | none => e
      | some r =>
        if r.round ≠ x.round then e
        else if 2 ^ 32 ≤ r.count + 1 then failTable step t.id 4 e
        else
          let q := addRecord (rowExp e r) (gradValues t x.data) r
          let e := { e with steps := { e.steps with
            staging := e.steps.staging.set k q.1, underflow := Tab.modify 0 e.steps.underflow t.id (· + q.2) } }
          counts [(Ctr.upUnderflow, q.2), (Ctr.upRecordsAdded, 1), (Ctr.ctJobRecords, 1)] e

/-! ## Rows written -/

/-- A row was written: its home slot differs from its replicas (R110), and the partner has yet to write it (R450). -/
def noteWritten (step t row : Nat) (e : Eng) : Eng :=
  { e with store := { e.store with dirty := if e.store.dirty.contains (t, row) then e.store.dirty else (t, row) :: e.store.dirty }
           rg := { e.rg with
             written := if e.rg.written.contains (step, t, row) then e.rg.written else (step, t, row) :: e.rg.written
             resilver := if e.rg.resilver.serving && !e.rg.resilver.dirty.contains (t, row) then
               { e.rg.resilver with dirty := (t, row) :: e.rg.resilver.dirty } else e.rg.resilver } }

/-- Apply one replacement row on this member: allocate, invalidate replicas, flip (R125 items 1 to 3). None where no
slot can be allocated. The spec does not say whether a row without a valid entry, which has no old slot, grows: it is held to the reserve.
Log 137. -/
def applyReplace (step : Nat) (t : TD) (x : Entry) (e : Eng) : Option Eng :=
  let slot := (x.data.drop 8).take (t.slotSize (slotFormat (x.data.drop 8)))
  let w := readEntry e t x.row
  let r := seekRow t x.row e
  let old := r.1
  let e := r.2
  let v := ((parseEntry w).version + 1) % 256
  let grows := match old with
    | some l => decide (l.units < slot.length / 32)
    | none => true
  let e := { e with store := { e.store with replicas := e.store.replicas.map (fun r =>
    if r.table = t.id ∧ r.row = x.row then { r with valid := false } else r) } }
  (moveRow t x.row (withVersion v slot) v old grows e).map (fun e =>
    let e := { e with steps := { e.steps with replaced := (step, t.id, x.row, x.srcNode, x.srcSeq) :: e.steps.replaced } }
    drainAdvance (counts [(Ctr.alReplaced, 1), (Ctr.ctJobRowWrites, 1)] (noteWritten step t.id x.row e)))

/-- A replacement row takes effect, unless its command was stopped for want of heap (R125, R127). Log 100. -/
def addReplace (step : Nat) (t : TD) (x : Entry) (e : Eng) : Eng :=
  if e.steps.replStopped.contains (step, t.id, x.srcNode, x.cmd) then e
  else match applyReplace step t x e with
    | some e => e
    | none => { e with steps := { e.steps with replStopped := (step, t.id, x.srcNode, x.cmd) :: e.steps.replStopped } }

/-- A source's replacement row of a step has taken effect on this member. -/
def replacedHere (e : Eng) (step src seq : Nat) : Bool :=
  e.steps.replaced.any (fun r => r.1 == step && r.2.2.2.1 == src && r.2.2.2.2 == seq)

/-! ## Adding entries once (R150, R440) -/

/-- The key of an entry of a step. -/
def keyOf (step : Nat) (x : Entry) : EntryKey := { src := x.srcNode, step, round := x.round, seq := x.srcSeq }

/-- Add an entry that is not in the seen set: into staging, the write journal, or at once for a replacement. An entry of
a table that is not active is discarded (R150, R422). -/
def addEntry (step : Nat) (x : Entry) (e : Eng) : Eng :=
  let e := { e with steps := { e.steps with seen := keyOf step x :: e.steps.seen } }
  let e := if e.rg.state = .solo then { e with rg := { e.rg with soloJournal := e.rg.soloJournal ++ [(step, x)] } } else e
  match tdAt e step x.table with
  | none => if x.kind = 6 ∧ x.table = 0xFFFF then { e with steps := { e.steps with writeJournal := e.steps.writeJournal ++ [(step, x)] } } else e
  | some t =>
    if x.kind = 1 then addGrad step t x e
    else if x.kind = 5 then addReplace step t x e
    else { e with steps := { e.steps with writeJournal := e.steps.writeJournal ++ [(step, x)] } }

/-- Ranges of ascending sequence numbers: first and count. -/
def rangesOf : List Nat → List (Nat × Nat)
  | [] => []
  | x :: t =>
    match rangesOf t with
    | (f, n) :: r => if f = x + 1 then (x, n + 1) :: r else (x, 1) :: (f, n) :: r
    | [] => [(x, 1)]

/-- A key is inside the ranges of an acknowledgement. -/
def inRanges (q : Nat) (rs : List (Nat × Nat)) : Bool := rs.any (fun r => decide (r.1 ≤ q) && decide (q < r.1 + r.2))

/-- Every entry of a command is acknowledged. -/
def entriesAcked (e : Eng) (id : Nat) : Bool := e.steps.outRecs.all (fun o => o.cmdId != id || o.acked)

/-- Both members journal state-changing commands: a pair, or a SOLO member with a joiner that holds the journal
(R361, R453). -/
def mirrored (e : Eng) : Bool :=
  e.rg.state == .paired || ((e.rg.state == .joining || e.rg.state == .solo) && e.rg.resilver.journaled)

/-- What the partner keeps in custody is released with the entry, or marked done: a notice without a descriptor releases
it. The spec names no message for this. Log 62. -/
def tellCustody (j : JournalBody) (e : Eng) : Eng := if mirrored e then sendRidge (.journal j) e else e

/-- Release entries of this member's command journal (R437). -/
def dropJournal (p : JournalBody → Bool) (e : Eng) : Eng :=
  (e.rg.own.filter p).foldl (fun e j => tellCustody { j with desc := [], inputs := [], done := true } e)
    { e with rg := { e.rg with own := e.rg.own.filter (fun j => !p j) } }

/-- An UPDATE_GRAD is complete: its inputs are kept until its step settles, if retention is on (R437, R438). -/
def completeRecords (c : RunCmd) (n : Nat) (e : Eng) : Eng :=
  let e := finishOk c.id n e
  if e.rg.retentionGib = 0 then
    dropJournal (fun j => j.ring == c.ring && j.seq == c.seq)
      { e with steps := { e.steps with outRecs := e.steps.outRecs.filter (fun o => o.cmdId != c.id) } }
  else
    let mine := fun (j : JournalBody) => j.ring == c.ring && j.seq == c.seq
    (e.rg.own.filter mine).foldl (fun e j => tellCustody { j with inputs := [], done := true } e)
      { e with rg := { e.rg with own := e.rg.own.map (fun j => if mine j then { j with done := true } else j) } }

/-- A TABLE_REPLACE whose entries are all acknowledged: OK and the rows, or HEAP_EXHAUSTED and the rows replaced (R127). Of rows whose
outcome no acknowledgement told, it is a free value. Log 32. -/
def completeReplace (c : RunCmd) (rows : Nat) (e : Eng) : Eng :=
  let mine := e.steps.outRecs.filter (fun o => o.cmdId == c.id)
  let e' := dropJournal (fun j => j.ring == c.ring && j.seq == c.seq)
    { e with steps := { e.steps with outRecs := e.steps.outRecs.filter (fun o => o.cmdId != c.id) } }
  let untold := mine.countP (fun o => o.took.isNone)
  let f := takeFree e'
  let done := mine.countP (fun o => o.took == some true) + f.1.toNat % (untold + 1)
  let e' := if untold = 0 then e' else f.2
  if done = rows then finishOk c.id rows e' else finish c.id { status := Status.heapExhausted, count := done } e'

/-- Complete the commands whose entries are all acknowledged (R127, R152). -/
def completeAcked (e : Eng) : Eng :=
  e.hl.cmds.foldl (fun e c =>
    if entriesAcked e c.id then
      match c.work with
      | .records _ n => completeRecords c n e
      | .replace _ rows _ => completeReplace c rows e
      | _ => e
    else e) e

/-- A record request is finished when every entry of its command at that peer is acknowledged (R411). -/
def recordDone (e : Eng) (r : Req) : Bool :=
  match r.body with
  | .record _ => e.steps.outRecs.all (fun o => !(o.cmdId == r.cmdId && o.peer == r.peer) || o.acked)
  | _ => false

/-- This engine's own entries are acknowledged (R152, R439); `took` tells which of them took effect, where that is told. -/
def ackOwn (step round : Nat) (took : Option (List Nat)) (hit : OutRec → Bool) (e : Eng) : Eng :=
  let e := { e with steps := { e.steps with outRecs := e.steps.outRecs.map (fun (o : OutRec) =>
    if o.step = step ∧ o.entry.round = round ∧ hit o then { o with acked := true, took := o.took.or (took.map (fun (l : List Nat) => l.contains o.entry.srcSeq)) } else o) } }
  completeAcked { e with fb := { e.fb with reqs := e.fb.reqs.filter (fun r => !recordDone e r) } }

/-- The close of a step is complete at this member. -/
def stepClosed (e : Eng) (s : Nat) : Bool :=
  match e.steps.lastClosed with
  | some c => decide (s ≤ c)
  | none => false

/-- Acknowledge entries of one source, step and round, and tell which replacement rows among them took effect while the step is open. -/
def sendAcks (src step round : Nat) (seqs : List Nat) (e : Eng) : Eng :=
  let rs := rangesOf (sortNat (nub seqs))
  let took := if stepClosed e step then none else some ((nub seqs).filter (replacedHere e step src))
  if rs.isEmpty then e
  else if src = e.fb.node then ackOwn step round took (fun o => inRanges o.entry.srcSeq rs) e
  else sendPacket src step (.recordAck { step, round, settled := false, ranges := rs, took }) false e

/-- Acknowledge a list of keys, those of one source, step and round together. -/
def ackKeys (ks : List EntryKey) (e : Eng) : Eng :=
  (nub (ks.map (fun k => (k.src, k.step, k.round)))).foldl (fun e g =>
    sendAcks g.1 g.2.1 g.2.2 ((ks.filter (fun k => k.src == g.1 && k.step == g.2.1 && k.round == g.2.2)).map (·.seq)) e) e

/-- How one entry is taken in: acknowledged at once, or once the partner has it. -/
structure Taken where
  acks : List EntryKey := []
  fwds : List FwdItem := []
  deriving DecidableEq, Repr

/-- Take one entry from a sender (R150, R431, R440). A replacement row that the lead could not place is not forwarded (R125, R127). -/
def takeEntry (h : PktHdr) (x : Entry) (k : Taken) (e : Eng) : Taken × Eng :=
  let key := keyOf h.step x
  if stepClosed e h.step then ({ k with acks := k.acks ++ [key] }, count Ctr.rgDedupDrops 1 e)
  else if e.steps.seen.contains key then
    let e := count Ctr.rgDedupDrops 1 e
    if e.steps.unforwarded.any (fun u => keyOf u.1.step u.2 == key) then (k, e) else ({ k with acks := k.acks ++ [key] }, e)
  else if e.rg.state = .solo then ({ k with acks := k.acks ++ [key] }, addEntry h.step x e)
  else
    let e := { e with steps := { e.steps with unforwarded := e.steps.unforwarded ++ [(h, x)] } }
    let e := count Ctr.rgForwards 1 e
    if x.kind = 5 ∧ !leads e x.table x.row then ({ k with fwds := k.fwds ++ [.replace h.step x] }, e)
    else
      let e' := addEntry h.step x e
      if x.kind = 5 ∧ !replacedHere e' h.step x.srcNode x.srcSeq then
        ({ k with acks := k.acks ++ [key] }, { e' with steps := { e'.steps with unforwarded := e'.steps.unforwarded.filter (fun u => u != (h, x)) } })
      else ({ k with fwds := k.fwds ++ [.entry h.step x] }, e')

/-- Take in several entries, forward them and acknowledge what is on both members. -/
def takeEntries (es : List (PktHdr × Entry)) (e : Eng) : Eng :=
  let r := es.foldl (fun (a : Taken × Eng) p => takeEntry p.1 p.2 a.1 a.2) ({}, e)
  let e := if r.1.fwds.isEmpty then r.2 else sendRidge (.forward r.1.fwds) r.2
  ackKeys r.1.acks e

/-- An entry of this step and table can be added now; an entry of a completed step is a duplicate. A member in PAIRED that
has lost the ridge link acknowledges none, so it takes none in (R436); nor does a partner that is to cut over (R453). Log 34. -/
def canTake (e : Eng) (step t : Nat) : Bool :=
  serving e && !linkHeld e && (stepClosed e step || (admits e step && !cutoverHolds e step && tableSettled e step t))

/-- A record of a restep round that this member's own close has not reached: it waits until the rows of the round are cleared (R176 orders
1 and 4). -/
def roundAhead (e : Eng) (step : Nat) (x : Entry) : Bool :=
  x.kind == 1 && x.round != 0 && !stepClosed e step && (match e.steps.closing with
    | some k => k.step != step || k.waitRound.any (fun w => w.1 == x.table && decide (w.2 < x.round))
    | none => true)

/-- An entry can be taken in: the allocation for a replacement row waits while the memory core restarts (R465). -/
def canTakeNow (e : Eng) (step : Nat) (x : Entry) : Bool :=
  canTake e step x.table && (x.kind != 5 || coreRuns e 4) && !roundAhead e step x

/-- A record packet with REISSUED from another engine is served. -/
def servedAgain (h : PktHdr) (e : Eng) : Eng :=
  count Ctr.rgReissuesServed (if h.reissued && h.src != e.fb.node then 1 else 0) e

/-- Take in the entries of a packet, or hold them all and its credit (R150). -/
def takeRecords (h : PktHdr) (es : List Entry) (e : Eng) : Eng :=
  if es.all (fun x => canTakeNow e h.step x) then takeEntries (es.map (fun x => (h, x))) (consume h.src (servedAgain h e))
  else { e with steps := { e.steps with heldEntries := e.steps.heldEntries ++ es.map (fun x => (h, x)) } }

/-- Take in held packets that are settled now. -/
def admitEntries (e : Eng) : Eng :=
  let hs := e.steps.heldEntries
  (nub (hs.map (·.1))).foldl (fun e h =>
    let es := (hs.filter (fun p => p.1 == h)).map (·.2)
    if es.all (fun x => canTakeNow e h.step x) then takeEntries (es.map (fun x => (h, x))) (consumeHeld h.src (servedAgain h e))
    else { e with steps := { e.steps with heldEntries := e.steps.heldEntries ++ es.map (fun x => (h, x)) } })
    { e with steps := { e.steps with heldEntries := [] } }

/-! ## FORWARD and FORWARD_ACK -/

/-- An entry forwarded by the partner is added if it is new. One that this member received first is now on both
(R431, R440). -/
def takeForward (step : Nat) (x : Entry) (e : Eng) : Eng :=
  let key := keyOf step x
  let e := if stepClosed e step ∨ e.steps.seen.contains key then count Ctr.rgDedupDrops 1 e else addEntry step x e
  if e.steps.unforwarded.any (fun u => keyOf u.1.step u.2 == key) then
    ackKeys [key] { e with steps := { e.steps with unforwarded := e.steps.unforwarded.filter (fun u => keyOf u.1.step u.2 != key) } }
  else e

/-- A replacement row that the mirror passed on: the lead applies it and forwards it back; one that finds no slot is only acknowledged
(R125, R127, R431). -/
def takeReplaceForward (step : Nat) (x : Entry) (e : Eng) : Eng :=
  let e := if stepClosed e step ∨ e.steps.seen.contains (keyOf step x) then e else addEntry step x e
  if stepClosed e step ∨ replacedHere e step x.srcNode x.srcSeq then
    sendRidge (.forward [.entry step x]) (count Ctr.rgForwards 1 e)
  else sendRidge (.forwardAck [.entry (keyOf step x)]) e

/-- A forwarded item waits: this member's close of the step before is not complete, or its close has not reached the item's round
(R125, R176). -/
def forwardWaits (e : Eng) : FwdItem → Bool
  | .entry s x => !stepClosed e s && (!admits e s || roundAhead e s x)
  | .replace s _ => !stepClosed e s && (!admits e s || !coreRuns e 4)
  | .atomic _ _ _ _ _ _ _ => false

/-- The partner added the entries: those of senders are acknowledged (R150, R440). -/
def forwardAcked (ks : List EntryKey) (e : Eng) : Eng :=
  let mine := (e.steps.unforwarded.map (fun u => keyOf u.1.step u.2)).filter (fun k => ks.contains k)
  ackKeys mine { e with steps := { e.steps with unforwarded := e.steps.unforwarded.filter (fun u => !ks.contains (keyOf u.1.step u.2)) } }

/-- A member alone: what waited for the partner is acknowledged, and replacements it passed on are applied here (R150,
R431, R449). -/
def ackAlone (e : Eng) : Eng :=
  let us := e.steps.unforwarded
  let e := { e with steps := { e.steps with unforwarded := [] } }
  let e := us.foldl (fun e u => if stepClosed e u.1.step ∨ e.steps.seen.contains (keyOf u.1.step u.2) then e else addEntry u.1.step u.2 e) e
  ackKeys (us.map (fun u => keyOf u.1.step u.2)) e

/-! ## The requester's side of acknowledgement -/

/-- Send what a requester owes an owning pair for one half, or add it here (R150). -/
def requestEntries (cmd pair half step : Nat) (es : List Entry) (e : Eng) : Eng :=
  let lead := leadOf pair half
  let key : Nat × Word := match findCmd e cmd with
    | some c => (c.ring, c.seq)
    | none => (0, 0)
  let note := fun (peer : Nat) (e : Eng) => { e with steps := { e.steps with
    outRecs := e.steps.outRecs ++ es.map (fun x => { cmdId := cmd, step, pair, peer, entry := x, acked := false, ring := key.1, seq := key.2 }) } }
  if servesSelf e pair then takeRecords { hdrTo e e.fb.node step (.record es) false with step } es (countSent es (note e.fb.node e))
  else
    let e := noteAbsent step lead e
    let m := memberFor e step lead
    let e := markPartner cmd m.2 (note m.1 e)
    sendEntries cmd pair m.1 step es m.2 e

/-- An entry on its way: the pair and half that own its row. -/
structure Owed where
  pair : Nat
  half : Nat
  entry : Entry
  deriving DecidableEq, Repr

/-- Number entries from a first src_seq, in order (R149). -/
def numberEntries (node first : Nat) (os : List Owed) : List Owed :=
  os.zipIdx.map (fun p => { p.1 with entry := { p.1.entry with srcSeq := first + p.2, srcNode := node, cmd := some first } })

/-- Next src_seq of a step (R149). -/
def nextSrcSeq (e : Eng) (step : Nat) : Nat := if e.steps.srcStep = step then e.steps.srcSeq else 0

/-- Number and send the entries of a command, in order for each pair and half (R149, R150). -/
def sendOwed (cmd step : Nat) (os : List Owed) (e : Eng) : Eng :=
  let first := nextSrcSeq e step
  let ns := numberEntries e.fb.node first os
  let e := { e with steps := { e.steps with srcStep := step, srcSeq := first + os.length } }
  (nub (ns.map (fun o => (o.pair, o.half)))).foldl (fun e g =>
    requestEntries cmd g.1 g.2 step ((ns.filter (fun o => o.pair == g.1 && o.half == g.2)).map (·.entry)) e) e

/-- The entry and destination of a global row. -/
def owe (c : Conf) (t : TD) (kind row positions : Nat) (data : List Byte) : Owed :=
  let li := localIndex c t row
  { pair := (ownerOf c t.id (t.shardOf row).1).getD 0 / 2, half := halfOf t.id li
    entry := { table := t.id, kind, round := 0, srcSeq := 0, row := li, positions, srcNode := 0, data } }

end Sys2Proof.Machine
end

