-- ==== Sys2Proof/Machine/Updates.lean ====
section
/-! DEFINITION. The requester's entry commands: UPDATE_GRAD, ROW_WRITE, HOT_SET_LOAD, THATCH_REFRESH, MIGRATE_ROWS and
TABLE_REPLACE (chapters 04 and 05). Each has a preparation, which reads and checks everything before acceptance, and a
commitment, which acts on the bytes read. -/

namespace Sys2Proof.Machine

/-! ## Preparation and journaling (R360 to R362, R437) -/

/-- What preparing a state-changing command gives: it waits (for so many bytes of retention space, where that is why), it is refused, or
its inputs. -/
inductive Prep
  | wait (need : Nat)
  | refuse (r : Refuse)
  | ready (ins : List Byte)
  deriving DecidableEq, Repr

/-- The journal entry of a command. -/
def journalOf (e : Eng) (ring step : Nat) (d : Desc) (ins : List Byte) : JournalBody :=
  { node := e.fb.node, ring, seq := BitVec.ofNat 32 (num d 4 4), desc := d, inputs := ins, step, first := 0
    accepted := false, done := false }

/-- The journal entries of one ring and seq. -/
def sameEntry (node ring : Nat) (seq : Word) (j : JournalBody) : Bool := j.node == node && j.ring == ring && j.seq == seq

/-- Write the journal entry of a command that is not accepted yet, and send the partner its copy (R361, R437). -/
def journalHead (ring step : Nat) (d : Desc) (ins : List Byte) (e : Eng) : Eng :=
  let b := journalOf e ring step d ins
  tellCustody b (count Ctr.rgJournalBytes (d.length + ins.length) { e with rg := { e.rg with own := e.rg.own ++ [b] } })

/-- A command is accepted: its journal entry, written here if it is not yet, takes its step and first src_seq (R437, R149). A
notice without a descriptor tells the partner. Log 62. -/
def journalCmd (ring step : Nat) (d : Desc) (ins : List Byte) (e : Eng) : Eng :=
  let b := { journalOf e ring step d ins with first := nextSrcSeq e step, accepted := true }
  let mine := sameEntry e.fb.node ring b.seq
  if e.rg.own.any mine then
    tellCustody { b with desc := [], inputs := [] }
      { e with rg := { e.rg with own := e.rg.own.map (fun (j : JournalBody) => if mine j then { j with step, first := b.first, accepted := true } else j) } }
  else
    tellCustody b (count Ctr.rgJournalBytes (d.length + ins.length) { e with rg := { e.rg with own := e.rg.own ++ [b] } })

/-- A command that is complete leaves the command journal (R437). -/
def releaseJournal (c : RunCmd) (e : Eng) : Eng :=
  dropJournal (sameEntry e.fb.node c.ring c.seq) e

/-- Bytes of UPDATE_GRAD inputs held (R151, R437). -/
def retainedBytes (e : Eng) : Nat :=
  (e.rg.own.filter (fun j => opcode j.desc == 0x18)).foldl (fun a j => a + j.desc.length + j.inputs.length) 0

/-- Bytes of UPDATE_GRAD inputs held past completion: RG_RETAINED_BYTES (R460). -/
def retainedDone (e : Eng) : Nat :=
  (e.rg.own.filter (fun j => opcode j.desc == 0x18 && j.done)).foldl (fun a j => a + j.desc.length + j.inputs.length) 0

/-! ## UPDATE_GRAD (R142 to R152) -/

/-- UPDATE_INVALID with a detail (R180). -/
def updateBad (detail : Nat) : Refuse := { status := Status.updateInvalid, detail }

/-- The optimiser kind of a table's profile (R166). -/
def TD.profileKind (c : Conf) (t : TD) : Nat := num (profileBytes c t) 2 1

/-- The checks of an UPDATE_GRAD's own fields (R180 items 1 and 2). -/
def gradFields (cf : Conf) (d : Desc) (t : Option TD) : Option Refuse :=
  let f := listForm d
  let mode := num d 18 1
  let i16 := match t with | some t => t.permits 3 | none => false
  firstFail [
    (decide (mode ≤ 2) && f.weights == (mode == 2) && !(mode == 2 && i16), updateBad 1),
    (decide (num d 19 1 ≤ 1), updateBad 2),
    (decide (1 ≤ f.bags ∧ f.bags ≤ 2 ^ 20 ∧ f.n ≤ 2 ^ 31), updateBad 3),
    (aligned64 (num d 32 8) && aligned64 (num d 40 8), updateBad 7),
    (t.isSome, { status := Status.tableUnknown }),
    (match t with | some t => t.profileKind cf != 0 | none => true, updateBad 10),
    (!f.wide || f.high == 0, updateBad 6)]

/-- Bytes of one gradient (R143). -/
def gradSize (d : Desc) (t : TD) : Nat := if num d 19 1 = 0 then 4 * t.dim else 2 * t.dim

/-- The live bags of a block. -/
def liveBags (f : ListForm) (blk : List Byte) : List Nat := (List.range f.bags).filter (f.live blk)

/-- Where the gradients of the live bags lie (R143). -/
def gradSpans (e : Eng) (d : Desc) (t : TD) (blk : List Byte) : List (Nat × Nat) :=
  let n := gradSize d t
  (liveBags (listForm d) blk).map (fun b => (num d 40 8 + b * outStride n (alignOf e.setup.outAlign), n))

/-- One gradient, widened to FP32. -/
def gradFloats (d : Desc) (bs : List Byte) : List FV :=
  if num d 19 1 = 0 then (pieces 4 bs).map (fun b => fromBits 8 23 (leNat b)) else (pieces 2 bs).map (fun b => ofBf16 (leNat b))

/-- A contribution: its row, the positions it merges, and its elements (R144, R145). -/
structure Contrib where
  row : Nat
  n : Nat
  vals : List FV
  deriving DecidableEq, Repr

/-- The contribution of one position (R144). -/
def contribOf (mode n : Nat) (w : Option FV) (g : List FV) : N (List FV) :=
  match mode with
  | 0 => pure g
  | 1 => mapN (fun x => quotient fmt32 x (ofInt n)) g
  | _ => mapN (fun x => rnd32 ((w.getD .one).mul x)) g

/-- Put a contribution among those made, merging rows where COALESCE asks (R145). -/
def addContrib (coalesce : Bool) (l : List Contrib) (row : Nat) (v : List FV) : N (List Contrib) := do
  if !coalesce then return l ++ [{ row, n := 1, vals := v }]
  let k := l.findIdx (fun c => c.row == row)
  match l[k]? with
  | some c =>
    let s ← zipN add32 c.vals v
    return l.set k { c with n := c.n + 1, vals := s }
  | none =>
    let s ← mapN (fun x => add32 .zero x) v
    return l ++ [{ row, n := 1, vals := s }]

/-- The contributions of one bag. -/
def bagContribs (mode : Nat) (coalesce : Bool) (ps : List Pos) (g : List FV) (l : List Contrib) : N (List Contrib) :=
  ps.foldlM (fun l p => if mode = 2 ∧ zeroWeight' p.weight then pure l else do
    let v ← contribOf mode ps.length p.weight g
    addContrib coalesce l p.row v) l
where
  /-- The weight is +0 or -0. -/
  zeroWeight' (w : Option FV) : Bool := match w with | some x => x.isZero | none => false

/-- Every contribution of a command, from its inputs. -/
def contribsOf (d : Desc) (t : TD) (blk gs : List Byte) : N (List Contrib) :=
  let f := listForm d
  let n := gradSize d t
  (liveBags f blk).zipIdx.foldlM (fun l p =>
    bagContribs (num d 18 1) (bit (num d 21 1) 4) (f.positions blk p.1) (gradFloats d (slice gs (p.2 * n) n)) l) []

/-- The transport form of a contribution, or none where every element is zero (R146, R147). -/
def encodeContrib (t : TD) (c : Contrib) : N (Option (Contrib × Block)) := do
  if c.vals.all (·.isZero) then return none
  let r ← rotate t.group c.vals
  let b ← encOwn .int8 t.group r
  return some (c, b)

/-- ⌊log₂|x|⌋ of a finite non-zero value. -/
def floorLog2 : FV → Option Int
  | .fin _ m ex => if m = 0 then none else some (m.log2 + ex)
  | _ => none

/-- The largest ⌊log₂|x|⌋ of a block's decoded elements, clamped (R139). -/
def blockMax (t : TD) (b : Block) : Option Int :=
  ((Block.values .int8 t.group b).filterMap floorLog2).foldl (fun a x =>
    some (max (a.getD (-128)) (max (-128) (min 127 x)))) none

/-- M of a command's records: none where every element of them decodes to zero (R139). -/
def recordsMax (t : TD) (bs : List Block) : Option Int :=
  (bs.filterMap (blockMax t)).foldl (fun a x => some (match a with | some y => max y x | none => x)) none

/-- Note that a command sent records of a table in a step, and their M. -/
def noteMax (step table : Nat) (m : Option Int) (e : Eng) : Eng :=
  { e with steps := { e.steps with sentMax := e.steps.sentMax ++ [(step, table, m)] } }

/-- The records of an UPDATE_GRAD: encoded contributions, and the number of contributions made. -/
def gradRecords (d : Desc) (t : TD) (ins : List Byte) : N (List (Contrib × Block) × List Contrib) := do
  let f := listForm d
  let cs ← contribsOf d t (ins.take f.size) (ins.drop f.size)
  let bs ← mapN (encodeContrib t) cs
  return (bs.filterMap id, cs)

/-- The checks of an index list block (R180 items 3 and 4). -/
def gradBlockFail (f : ListForm) (t : TD) (blk : List Byte) : Option Refuse :=
  if !f.offsetsOk blk then some (updateBad 4)
  else indexFail (updateBad 5).status f.wide t.rows ((List.range f.n).map (f.row blk))

/-- Bytes of UPDATE_GRAD inputs that accepted commands of one step hold (R151). -/
def stepRetained (e : Eng) (step : Nat) : Nat :=
  (e.rg.own.filter (fun j => opcode j.desc == 0x18 && j.accepted && j.step == step)).foldl
    (fun a j => a + j.desc.length + j.inputs.length) 0

/-- The retention space, 0 for no limit (R151, R459). -/
def retentionCap (e : Eng) : Nat := e.rg.retentionGib * 2 ^ 30

/-- So many bytes do not fit beside the inputs already held: acceptance waits for their release (R151). -/
def retentionHeld (e : Eng) (need : Nat) : Bool :=
  need != 0 && retentionCap e != 0 && decide (retentionCap e < retainedBytes e + need)

/-- Every check of an UPDATE_GRAD, on the inputs read (R151, R180). -/
def checkUpdateGrad (step : Nat) (d : Desc) (ins : List Byte) (e : Eng) : Prep :=
  let f := listForm d
  let cf := confAt e step
  let t := tdIn cf (num d 16 2)
  match gradFields cf d t, t with
  | some r, _ => .refuse r
  | none, none => .refuse { status := Status.tableUnknown }
  | none, some t =>
    let blk := ins.take f.size
    match gradBlockFail f t blk with
    | some r => .refuse r
    | none =>
      let ws := (List.range f.n).filterMap (f.weight blk)
      let n := ((gradRecords d t ins).run {}).1.1.length
      if !((gradFloats d (ins.drop f.size)).all (·.finite) && ws.all (·.finite)) then .refuse (updateBad 8)
      else if (retentionCap e ≠ 0 ∧ retentionCap e < stepRetained e step + d.length + ins.length) ∨ 2 ^ 32 < nextSrcSeq e step + n then
        .refuse (updateBad 11)
      else .ready ins

/-- Prepare an UPDATE_GRAD: its inputs are read and checked, and its acceptance waits while the retention space is held by the inputs of
other commands (R151, R180). -/
def prepUpdateGrad (w : Waiter) (step : Nat) (d : Desc) (e : Eng) : Eng × Prep :=
  let f := listForm d
  let cf := confAt e step
  let t := tdIn cf (num d 16 2)
  match gradFields cf d t, t with
  | some r, _ => (e, .refuse r)
  | none, none => (e, .refuse { status := Status.tableUnknown })
  | none, some t =>
    let q := readHost w [(num d 32 8, f.size)] e
    match q.2 with
    | none => (q.1, .wait 0)
    | some ls =>
      let blk := ls.headD []
      match gradBlockFail f t blk with
      | some r => (unserve w q.1, .refuse r)
      | none =>
        let g := readHost w (gradSpans q.1 d t blk) q.1
        match g.2 with
        | none => (g.1, .wait 0)
        | some gs =>
          let ins := blk ++ gs.flatten
          let e := unserve w g.1
          match checkUpdateGrad step d ins e with
          | .ready _ => if retentionHeld e (d.length + ins.length) then (e, .wait (d.length + ins.length)) else (e, .ready ins)
          | x => (e, x)

/-- The entry of a record (R148). -/
def gradEntry (c : Conf) (t : TD) (x : Contrib × Block) : Owed := owe c t 1 x.1.row (min x.1.n 65535) (blockBytes x.2)

/-- Commit an UPDATE_GRAD: its records are numbered and sent (R149 to R152). -/
def commitUpdateGrad (c : RunCmd) (ins : List Byte) (e : Eng) : Eng :=
  let cf := confAt e c.step
  match tdIn cf (num c.desc 16 2) with
  | none => refuseWith c.id { status := Status.tableUnknown } e
  | some t =>
    let r := tallied (gradRecords c.desc t ins) e
    let rs := r.1.1
    let m := recordsMax t (rs.map (·.2))
    let e := if rs.isEmpty then r.2 else noteMax c.step t.id m r.2
    let e := counts [(Ctr.upZeroRows, r.1.2.length - rs.length),
      (Ctr.upPositionsCoalesced, r.1.2.foldl (fun a x => a + (x.n - 1)) 0)] e
    completeAcked (sendOwed c.id c.step (rs.map (gradEntry cf t)) (setWork c.id (.records c.step rs.length) e))

/-! ## Commands that complete at a close (R115, R156) -/

/-- The command waits for the closes of the pairs it sent entries to. -/
def sendAtClose (c : RunCmd) (rows : Nat) (os : List Owed) (e : Eng) : Eng :=
  let ps := nub (os.map (·.pair))
  if ps.isEmpty then releaseJournal c (finishOk c.id rows e)
  else sendOwed c.id c.step os (setWork c.id (.atClose c.step ps rows) e)

/-! ## ROW_WRITE (R154 to R157) -/

/-- WRITE_INVALID with a detail (R180). -/
def writeBad (detail : Nat) : Refuse := { status := Status.writeInvalid, detail }

/-- Bytes read for each supplied row. -/
def suppliedSize (d : Desc) (t : TD) : Nat :=
  match num d 18 1 with
  | 0 => 4 * t.dim
  | 1 => 2 * t.dim
  | _ => num d 22 2

/-- Values of a supplied FP32 or BF16 row. -/
def suppliedFloats (fmt : Nat) (bs : List Byte) : List FV :=
  if fmt = 0 then (pieces 4 bs).map (fun b => fromBits 8 23 (leNat b)) else (pieces 2 bs).map (fun b => ofBf16 (leNat b))

/-- The checks of a ROW_WRITE's own fields (R180 item 1). -/
def writeFields (d : Desc) (t : Option TD) : Option Refuse :=
  let stride := num d 22 2
  let need := match t with
    | some t => if num d 18 1 = 2 then 64 else suppliedSize d t
    | none => 0
  firstFail [
    (decide (num d 18 1 ≤ 2), writeBad 2),
    (decide (1 ≤ num d 24 4 ∧ num d 24 4 ≤ 2 ^ 20), writeBad 3),
    (aligned64 (num d 32 8) && aligned64 (num d 40 8) && stride % 64 == 0 && decide (need ≤ stride ∧ stride ≤ 4096), writeBad 7),
    (t.isSome, { status := Status.tableUnknown })]

/-- The checks of a ROW_WRITE's rows (R180 items 1 to 5). -/
def writeRowsFail (d : Desc) (t : TD) (idx : List Nat) (rows : List (List Byte)) : Option Refuse :=
  let wide := bit (num d 21 1) 0
  let raw := num d 18 1 == 2
  let long := fun (s : List Byte) => t.hasFmt (slotFormat s) && decide (num d 22 2 < t.slotSize (slotFormat s))
  if raw && rows.any long then some (writeBad 7)
  else if wide && num d 20 1 != 0 then some (writeBad 6)
  else match indexFail Status.writeInvalid wide t.rows idx with
    | some r => some r
    | none =>
      if raw then
        ((idx.zip rows).find? (fun p => !slotComplete t p.2 true)).map (fun p => { writeBad 9 with errRow := p.1 })
      else if rows.all (fun r => (suppliedFloats (num d 18 1) r).all (·.finite)) then none else some (writeBad 8)

/-- The spans of an index array and of strided rows. -/
def arraySpans (d : Desc) (k size stride : Nat) : List (Nat × Nat) :=
  (num d 32 8, plainSize (bit (num d 21 1) 0) k) :: (List.range k).map (fun j => (num d 40 8 + j * stride, size))

/-- The indices of a command's array. -/
def arrayIndices (d : Desc) (k : Nat) (bs : List Byte) : List Nat := plainIndices (bit (num d 21 1) 0) (num d 20 1) k bs

/-- Indices and supplied rows, from the inputs of a strided command. -/
def splitRows (d : Desc) (k size : Nat) (ins : List Byte) : List (Nat × List Byte) :=
  let n := plainSize (bit (num d 21 1) 0) k
  (arrayIndices d k (ins.take n)).zip ((List.range k).map (fun j => slice ins (n + j * size) size))

/-- The table that a command's own fields pass for, or the refusal they give. -/
def fieldsOf (f : Option TD → Option Refuse) (t : Option TD) : Refuse ⊕ TD :=
  match f t, t with
  | some r, _ => .inl r
  | none, none => .inl { status := Status.tableUnknown }
  | none, some t => .inr t

/-- Every check of a ROW_WRITE, on the inputs read (R156, R180). -/
def checkRowWrite (step : Nat) (d : Desc) (ins : List Byte) (e : Eng) : Prep :=
  match fieldsOf (writeFields d) (tdAt e step (num d 16 2)) with
  | .inl r => .refuse r
  | .inr t =>
    let rs := splitRows d (num d 24 4) (suppliedSize d t) ins
    match writeRowsFail d t (rs.map (·.1)) (rs.map (·.2)) with
    | some r => .refuse r
    | none => if 2 ^ 32 < nextSrcSeq e step + num d 24 4 then .refuse (writeBad 11) else .ready ins

/-- Read the spans of a command, and check the inputs. -/
def readThenCheck (w : Waiter) (ss : List (Nat × Nat)) (check : List Byte → Eng → Prep) (e : Eng) : Eng × Prep :=
  let q := readHost w ss e
  match q.2 with
  | none => (q.1, .wait 0)
  | some ls => (unserve w q.1, check ls.flatten q.1)

/-- Prepare a ROW_WRITE (R156, R180). -/
def prepRowWrite (w : Waiter) (step : Nat) (d : Desc) (e : Eng) : Eng × Prep :=
  match fieldsOf (writeFields d) (tdAt e step (num d 16 2)) with
  | .inl r => (e, .refuse r)
  | .inr t => readThenCheck w (arraySpans d (num d 24 4) (suppliedSize d t) (num d 22 2)) (checkRowWrite step d) e

/-- Commit a ROW_WRITE (R156). -/
def commitRowWrite (c : RunCmd) (ins : List Byte) (e : Eng) : Eng :=
  let d := c.desc
  let cf := confAt e c.step
  match tdIn cf (num d 16 2) with
  | none => refuseWith c.id { status := Status.tableUnknown } e
  | some t =>
    let k := num d 24 4
    let body := fun (r : List Byte) =>
      leBytes 1 (num d 18 1) ++ leBytes 1 (flag (bit (num d 21 1) 1) 0) ++ zeros 6 ++
        (if num d 18 1 = 2 then r.take (t.slotSize (slotFormat r)) else r)
    sendAtClose c k ((splitRows d k (suppliedSize d t) ins).map (fun p => owe cf t 2 p.1 0 (body p.2))) e

/-! ## HOT_SET_LOAD and THATCH_REFRESH (R111 to R117) -/

/-- HOT_SET_INVALID with a detail (R131). -/
def hotBad (detail : Nat) : Refuse := { status := Status.hotSetInvalid, detail }

/-- The replication factor of a code (R111). -/
def factorOf (code : Nat) : Nat :=
  match code with
  | 0 => 1
  | 1 => 2
  | 2 => 3
  | _ => 6

/-- The factors of the four classes. -/
def factorsOf (v : Nat) : List Nat := [factorOf (fld v 0 2), factorOf (fld v 2 2), factorOf (fld v 4 2), factorOf (fld v 6 2)]

/-- The checks of a HOT_SET_LOAD's own fields (R131). The order among them is not stated: ascending detail, and list
entries last. Log 33. -/
def hotFields (e : Eng) (d : Desc) (t : Option TD) : Option Refuse :=
  let clear := num d 18 1 == 2
  let n := num d 24 4
  let iv := num d 19 1
  firstFail [
    ((factorsOf (num d 22 1)).all (fun f => decide (f ≤ e.variant.maxFactor)), hotBad 3),
    (if clear then iv == 0 else decide (1 ≤ iv ∧ iv ≤ 64), hotBad 4),
    (if clear then n == 0 else decide (1 ≤ n ∧ n ≤ 2 ^ 24), hotBad 5),
    (!bit (num d 21 1) 0 || num d 20 1 == 0, hotBad 7),
    (aligned64 (num d 32 8), hotBad 8),
    (decide (num d 18 1 ≤ 2), hotBad 10),
    (t.isSome, { status := Status.tableUnknown })]

/-- The index entry checks of R131: INDEX_RANGE is 6 there and INDEX_FORMAT 7. -/
def listFail (status : Nat) (d : Desc) (rows : Nat) (idx : List Nat) : Option Refuse :=
  (badIndex (bit (num d 21 1) 0) rows idx).map (fun p =>
    if p.1 then { status, detail := 7 } else { status, detail := 6, errRow := p.2 })

/-- Every check of a command whose input is one index array. -/
def checkList (status : Nat) (d : Desc) (t : TD) (ins : List Byte) : Prep :=
  match listFail status d t.rows (arrayIndices d (num d 24 4) ins) with
  | some r => .refuse r
  | none => .ready ins

/-- The span of a command's index array. -/
def listSpans (d : Desc) : List (Nat × Nat) := [(num d 32 8, plainSize (bit (num d 21 1) 0) (num d 24 4))]

/-- Every check of a HOT_SET_LOAD, on the indices read (R131). -/
def checkHotSetLoad (step : Nat) (d : Desc) (ins : List Byte) (e : Eng) : Prep :=
  match fieldsOf (hotFields e d) (tdAt e step (num d 16 2)) with
  | .inl r => .refuse r
  | .inr t => if num d 18 1 = 2 then .ready [] else checkList Status.hotSetInvalid d t ins

/-- Prepare a HOT_SET_LOAD. -/
def prepHotSetLoad (w : Waiter) (step : Nat) (d : Desc) (e : Eng) : Eng × Prep :=
  match fieldsOf (hotFields e d) (tdAt e step (num d 16 2)) with
  | .inl r => (e, .refuse r)
  | .inr _ => if num d 18 1 = 2 then (e, .ready []) else readThenCheck w (listSpans d) (checkHotSetLoad step d) e

/-- The pairs that own shards of a table. -/
def ownersOf (c : Conf) (t : Nat) : List Nat := nub ((c.shardMap.filter (fun m => m.table == t)).map (fun m => m.owner / 2))

/-- The row number of an entry that names no row (R405). -/
def noRow : Nat := 0xFFFFFFFFFF

/-- An entry for a whole table at each of several pairs. -/
def oweAll (ps : List Nat) (table kind : Nat) (data : List Byte) : List Owed :=
  ps.map (fun p => { pair := p, half := 0
                     entry := { table, kind, round := 0, srcSeq := 0, row := noRow, positions := 0, srcNode := 0, data } })

/-- Commit a HOT_SET_LOAD: one entry for each distinct listed row, or one CLEAR entry for each owning pair (R112, R405). A
pair that owns none of the listed rows is told by an entry that names no row. Log 126. -/
def commitHotSetLoad (c : RunCmd) (ins : List Byte) (e : Eng) : Eng :=
  let d := c.desc
  let cf := confAt e c.step
  match tdIn cf (num d 16 2) with
  | none => refuseWith c.id { status := Status.tableUnknown } e
  | some t =>
    let body := leBytes 1 (num d 18 1) ++ leBytes 1 (num d 19 1) ++ leBytes 1 (num d 22 1) ++ zeros 5
    if num d 18 1 = 2 then sendAtClose c 0 (oweAll (ownersOf cf t.id) t.id 3 body) e
    else
      let os := (nub (arrayIndices d (num d 24 4) ins)).map (fun i => owe cf t 3 i 0 body)
      let rest := (ownersOf cf t.id).filter (fun p => !os.any (fun o => o.pair == p))
      sendAtClose c 0 (os ++ oweAll rest t.id 3 body) e

/-- Prepare a THATCH_REFRESH (R117). -/
def prepThatchRefresh (_w : Waiter) (step : Nat) (d : Desc) (e : Eng) : Eng × Prep :=
  if num d 16 2 = 0xFFFF ∨ (tdAt e step (num d 16 2)).isSome then (e, .ready [])
  else (e, .refuse { status := Status.tableUnknown })

/-- Commit a THATCH_REFRESH: one entry for every owning pair of the named tables (R117). -/
def commitThatchRefresh (c : RunCmd) (_ins : List Byte) (e : Eng) : Eng :=
  let t := num c.desc 16 2
  let cf := confAt e c.step
  let ps := if t = 0xFFFF then nub (cf.shardMap.map (fun m => m.owner / 2)) else ownersOf cf t
  sendAtClose c 0 (oweAll ps t 6 (zeros 8)) e

/-! ## MIGRATE_ROWS (R118, R119) -/

/-- MIGRATE_INVALID with a detail (R131). -/
def migrateBad (detail : Nat) : Refuse := { status := Status.migrateInvalid, detail }

/-- The checks of a MIGRATE_ROWS's own fields (R131). Log 33. -/
def migrateFields (d : Desc) (t : Option TD) : Option Refuse :=
  let cls := num d 18 1
  firstFail [
    (decide (1 ≤ num d 24 4 ∧ num d 24 4 ≤ 2 ^ 20), migrateBad 5),
    (!bit (num d 21 1) 0 || num d 20 1 == 0, migrateBad 7),
    (aligned64 (num d 32 8), migrateBad 8),
    (decide (cls ≤ 2), migrateBad 10),
    (t.isSome, { status := Status.tableUnknown }),
    (match t with | some t => t.indirect | none => true, migrateBad 1),
    (match t with | some t => t.permits cls | none => true, migrateBad 2)]

/-- Every check of a MIGRATE_ROWS, on the indices read (R131). -/
def checkMigrateRows (step : Nat) (d : Desc) (ins : List Byte) (e : Eng) : Prep :=
  match fieldsOf (migrateFields d) (tdAt e step (num d 16 2)) with
  | .inl r => .refuse r
  | .inr t => checkList Status.migrateInvalid d t ins

/-- Prepare a MIGRATE_ROWS. -/
def prepMigrateRows (w : Waiter) (step : Nat) (d : Desc) (e : Eng) : Eng × Prep :=
  match fieldsOf (migrateFields d) (tdAt e step (num d 16 2)) with
  | .inl r => (e, .refuse r)
  | .inr _ => readThenCheck w (listSpans d) (checkMigrateRows step d) e

/-- Commit a MIGRATE_ROWS (R119). -/
def commitMigrateRows (c : RunCmd) (ins : List Byte) (e : Eng) : Eng :=
  let d := c.desc
  let cf := confAt e c.step
  match tdIn cf (num d 16 2) with
  | none => refuseWith c.id { status := Status.tableUnknown } e
  | some t =>
    sendAtClose c 0 ((arrayIndices d (num d 24 4) ins).map (fun i => owe cf t 4 i 0 (leBytes 1 (num d 18 1) ++ zeros 7))) e

/-! ## TABLE_REPLACE (R123 to R127) -/

/-- REPLACE_INVALID with a detail (R131). -/
def replaceBad (detail : Nat) : Refuse := { status := Status.replaceInvalid, detail }

/-- The checks of a TABLE_REPLACE's own fields (R131). Log 33. -/
def replaceFields (d : Desc) (t : Option TD) : Option Refuse :=
  let stride := num d 22 2
  firstFail [
    (decide (1 ≤ num d 24 4 ∧ num d 24 4 ≤ 65536), replaceBad 5),
    (!bit (num d 21 1) 0 || num d 20 1 == 0, replaceBad 7),
    (aligned64 (num d 32 8) && aligned64 (num d 40 8) && stride % 64 == 0 && decide (stride ≤ 4096), replaceBad 8),
    (t.isSome, { status := Status.tableUnknown }),
    (match t with | some t => t.indirect | none => true, replaceBad 1),
    (match t with | some t => decide (outSize t 0xF ≤ stride) | none => true, replaceBad 8)]

/-- Every check of a TABLE_REPLACE, on the indices and slots read (R124, R131). -/
def checkTableReplace (step : Nat) (d : Desc) (ins : List Byte) (e : Eng) : Prep :=
  match fieldsOf (replaceFields d) (tdAt e step (num d 16 2)) with
  | .inl r => .refuse r
  | .inr t =>
    let rs := splitRows d (num d 24 4) (outSize t 0xF) ins
    match listFail Status.replaceInvalid d t.rows (rs.map (·.1)) with
    | some r => .refuse r
    | none =>
      match rs.find? (fun p => !slotComplete t p.2 false) with
      | some p => .refuse { replaceBad 9 with errRow := p.1 }
      | none => .ready ins

/-- Prepare a TABLE_REPLACE (R124, R131). -/
def prepTableReplace (w : Waiter) (step : Nat) (d : Desc) (e : Eng) : Eng × Prep :=
  match fieldsOf (replaceFields d) (tdAt e step (num d 16 2)) with
  | .inl r => (e, .refuse r)
  | .inr t => readThenCheck w (arraySpans d (num d 24 4) (outSize t 0xF) (num d 22 2)) (checkTableReplace step d) e

/-- Commit a TABLE_REPLACE (R125). -/
def commitTableReplace (c : RunCmd) (ins : List Byte) (e : Eng) : Eng :=
  let d := c.desc
  let cf := confAt e c.step
  match tdIn cf (num d 16 2) with
  | none => refuseWith c.id { status := Status.tableUnknown } e
  | some t =>
    let k := num d 24 4
    let os := (splitRows d k (outSize t 0xF) ins).map (fun p =>
      owe cf t 5 p.1 0 (zeros 8 ++ p.2.take (t.slotSize (slotFormat p.2))))
    completeAcked (sendOwed c.id c.step os (setWork c.id (.replace c.step k false) e))

end Sys2Proof.Machine
end

