-- ==== Sys2Proof/Machine/Activate.lean ====
section
/-! DEFINITION. How a configuration takes effect: at the opening of its step, and on owned storage at the close before it
(R138, R419); TABLE_REMAP (R129); beacons (R421). -/

namespace Sys2Proof.Machine

/-! ## Beacons (R421) -/

/-- The beacon this engine sends. -/
def beaconOf (e : Eng) : BeaconBody :=
  match e.ls.pend with
  | some (n, c) =>
    { node := e.fb.node, epoch := e.ls.active.epoch, digest := digestOf e e.ls.active, pendEpoch := c.epoch
      pendDigest := pendDigest e c, pendStep := n }
  | none =>
    { node := e.fb.node, epoch := e.ls.active.epoch, digest := digestOf e e.ls.active, pendEpoch := 0, pendDigest := 0, pendStep := 0 }

/-- The node a beacon to an unknown link partner carries. Log 38. -/
def anyNode : Nat := 0xFFFFF

/-- Put a beacon on a direct-mode link, to the engine at its other end. -/
def beaconLink (l : Nat) (e : Eng) : Eng :=
  let b : Body := .beacon (beaconOf e)
  let p : Packet := { hdr := hdrTo e anyNode 0 b false, body := b }
  let n := (bodyPayload b).length
  let e := counts [(Ctr.fbPktsTx, 1), (Ctr.fbBytesTx, n), (Ctr.lsBeaconsTx, 1)] e
  putDirect l (packetBytes p) { e with fb := { e.fb with tx := e.fb.tx ++ [p] } }

/-- A beacon to each direct-mode link partner and to each peer with an open session (R421). -/
def sendBeacons (e : Eng) : Eng :=
  let e := (e.fb.linksUp.filter (fun l => linkMode e l == 2)).foldl (fun e l => beaconLink l e) e
  (e.fb.sessions.filter (fun s => s.2.isOpen)).foldl (fun e s => sendUnseq s.1 (.beacon (beaconOf e)) e) e

/-! ## TABLE_REMAP (R128, R129) -/

/-- The source's descriptor under the table's own ID. Log 12. -/
def remapDesc (t : Nat) (d : List Byte) : List Byte := d.take 2 ++ leBytes 2 t ++ d.drop 4

/-- A configuration with one remap applied: the table names the source's descriptor and shards, and the source is no
longer active. -/
def remapConf (t src : Nat) (c : Conf) : Conf :=
  match Tab.find? c.tables src with
  | none => c
  | some d =>
    { c with
      tables := Tab.set (Tab.erase c.tables src) t (remapDesc t d)
      shardMap := (c.shardMap.filter (fun m => m.table != t)).map (fun m => if m.table = src then { m with table := t } else m) }

/-- In SOLO every row of a table enters the dirty map. -/
def markTable (c : Conf) (t : Nat) (e : Eng) : Eng :=
  match tdIn c t with
  | none => e
  | some td =>
    if e.rg.state = .solo then
      (localRows c td (ownPair e)).foldl (fun e i => noteWritten (e.steps.lastClosed.getD 0 + 1) t i e) e
    else e

/-- The storage of a source becomes the table's: contents, state, hot set and gradient exponent (R129). In SOLO every row of it
enters the dirty map, since the partner holds the former table under that ID (R450). -/
def moveStorage (old : Conf) (t src : Nat) (e : Eng) : Eng :=
  let e : Eng := match tdIn old t with
    | some td => freeTable old td e
    | none => e
  let re := fun (x : Nat) => if x = src then t else x
  let hot := match Tab.find? e.store.hotSets src with
    | some h => Tab.set (Tab.erase e.store.hotSets src) t h
    | none => e.store.hotSets
  let e := markTable old src e
  { e with
    store := { e.store with
      ready := (e.store.ready.filter (fun x => x != t)).map re
      place := Tab.set (Tab.erase e.store.place src) t (placeId e src)
      hotSets := hot
      replicas := e.store.replicas.map (fun r => { r with table := re r.table })
      dirty := e.store.dirty.map (fun p => (re p.1, p.2)) }
    steps := { e.steps with
      states := e.steps.states.map (fun s => ((re s.1.1, s.1.2), s.2))
      exps := Tab.set (Tab.erase e.steps.exps src) t (Tab.get 0 e.steps.exps src) }
    rg := { e.rg with
      written := e.rg.written.map (fun w => (w.1, re w.2.1, w.2.2))
      resilver := { e.rg.resilver with dirty := e.rg.resilver.dirty.map (fun w => (re w.1, w.2)) } } }

/-- Remaps whose last step before them is closed move their storage (R129). -/
def applyMoves (closed : Nat → Bool) (e : Eng) : Eng :=
  let due := e.ls.moves.filter (fun m => closed m.1)
  let e := due.foldl (fun e m => moveStorage (confAt e (m.1 - 1)) m.2.1 m.2.2 e) e
  { e with ls := { e.ls with moves := e.ls.moves.filter (fun m => !closed m.1) } }

/-! ## Storage (R57, R60, R419) -/

/-- Make the storage of a configuration that takes effect at step `n`: free what it removes, initialise what it adds. -/
def makeStorage (n : Nat) (old new : Conf) (e : Eng) : Eng :=
  if n ≤ e.store.storageStep then e
  else
    let gone := old.tables.filter (fun p => (Tab.find? new.tables p.1).isNone || new.fresh.contains p.1)
    let e := gone.foldl (fun e p => freeTable old (parseTD p.2) e) e
    let made := new.tables.filter (fun p => !e.store.ready.contains p.1 || new.fresh.contains p.1)
    let e := made.foldl (fun e p => initTable new (parseTD p.2) e) e
    { e with store := { e.store with storageStep := n } }

/-- The gradient exponent of a table for the open step: that of a table whose storage is still to be made is its profile's, and a table whose
remap is still to move it has its source's (R129, R160, R184). -/
def openExp (e : Eng) (t : Nat) : Int :=
  let t := e.ls.moves.reverse.foldl (fun t m => if m.2.1 = t then m.2.2 else t) t
  match e.ls.making.reverse.find? (fun m => !e.store.ready.contains t || m.2.2.fresh.contains t) with
  | some m => (match tdIn m.2.2 t with | some td => expInit m.2.2 td | none => expOf e t)
  | none => expOf e t

/-- The step a member's storage may be made for: the close of the step before it is complete (R419). -/
def closedBefore (e : Eng) (n : Nat) : Bool :=
  match e.steps.lastClosed with
  | some c => decide (n ≤ c + 1)
  | none => false

/-- The storage of the pending configuration is made once the close before its step is complete (R419). -/
def storePending (e : Eng) : Eng :=
  match e.ls.pend with
  | some (n, c) => if closedBefore e n then makeStorage n e.ls.active c e else e
  | none => e

/-! ## Opening a step (R137, R138, R419) -/

/-- Clear one counter slot (R540). -/
def clearCounter (slot : Nat) (e : Eng) : Eng := { e with ctr := Tab.set e.ctr slot {} }

/-- The job's accounting counters. -/
def jobCounters : List Nat :=
  [Ctr.ctJobSteps, Ctr.ctJobLookups, Ctr.ctJobRecords, Ctr.ctJobRowWrites, Ctr.ctJobHostBytes, Ctr.ctJobFabricBytes,
    Ctr.ctJobStackBytes, Ctr.ctJobEnergyUj, Ctr.ctJobAttachedTicks]

/-- Clear the job's accounting counters together (R390). -/
def clearJobCounters (e : Eng) : Eng := jobCounters.foldl (fun e c => clearCounter c e) e

/-- The fabric constants and routes of a configuration (R411, R418, R419). -/
def applyRoutes (c : Conf) (e : Eng) : Eng :=
  if c.plan.isEmpty then e
  else { e with fb := { e.fb with
    groupMode := num c.plan 8 1 == 1, shift := num c.plan 9 1, hopLimit := num c.plan 10 1, retries := num c.plan 11 1
    timeoutUs := num c.plan 12 2, routes := c.routes } }

/-- A configuration becomes the active one at the opening of step `s` (R416, R419). -/
def activateConf (s n : Nat) (c : Conf) (e : Eng) : Eng :=
  let old := e.ls.active
  let e := { e with build := e.nextBuild.getD e.build, nextBuild := none }
  let e := if old.jobId = c.jobId ∧ old.members = c.members then e else clearJobCounters e
  let e := c.freshSlots.foldl (fun e k => newDesc k n (Tab.get [] old.slots k) (Tab.get [] c.slots k) e) e
  let e := { e with
    ls := { e.ls with active := c, pend := none, recent := ((n, c.epoch) :: e.ls.recent).take 4 }
    rg := { e.rg with cleared := false } }
  let e := applyRoutes c e
  sendBeacons (raiseEvent { kind := Kind.configActivated, step := some s, arg1 := c.epoch.toNat } e)

/-- What takes effect when step `s` opens: the pending configuration, and the remaps accepted since the last opening. -/
def openConf (s : Nat) (first : Bool) (e : Eng) : Eng :=
  let old := e.ls.active
  let now := first || closedBefore e s
  let e := match e.ls.pend with
    | some (n, c) =>
      if n ≤ s then
        let e := activateConf s n c e
        if now then makeStorage n old c e
        else { e with ls := { e.ls with prev := (s, old) :: e.ls.prev, making := e.ls.making ++ [(s, old, c)] } }
      else e
    | none => e
  if e.ls.remaps.isEmpty then e
  else
    let rs := e.ls.remaps
    let mid := e.ls.active
    let new := rs.foldl (fun c r => remapConf r.1 r.2 c) mid
    let later := e.ls.pend.map (fun p => (p.1, rs.foldl (fun c r => remapConf r.1 r.2 c) p.2))
    let e := { e with ls := { e.ls with active := new, remaps := [], pend := later } }
    if now then rs.foldl (fun e r => moveStorage mid r.1 r.2 e) e
    else { e with ls := { e.ls with
      prev := if e.ls.prev.any (fun p => p.1 == s) then e.ls.prev else (s, mid) :: e.ls.prev
      moves := e.ls.moves ++ rs.map (fun r => (s, r.1, r.2)) } }

/-- What a completed close of step `c` makes take effect on storage: configurations and remaps of the steps up to the
next, and the configurations before them are forgotten (R60, R129, R419). -/
def closeConf (c : Nat) (e : Eng) : Eng :=
  let e := (e.ls.making.filter (fun p => decide (p.1 ≤ c + 1))).foldl (fun e p => makeStorage p.1 p.2.1 p.2.2 e) e
  let e := applyMoves (fun n => decide (n ≤ c + 1)) e
  storePending { e with ls := { e.ls with
    prev := e.ls.prev.filter (fun p => !decide (p.1 ≤ c + 1)), making := e.ls.making.filter (fun p => !decide (p.1 ≤ c + 1)) } }

/-- A command accepted before the first STEP_OPEN of a job belongs to the step that it names (R138 item 3). -/
def renameStep (s : Nat) (e : Eng) : Eng :=
  let run := fun (r : Run) => { r with step := s }
  { e with
    hl := { e.hl with cmds := e.hl.cmds.map (fun c => if c.done.isNone then { c with step := s } else c) }
    st := { e.st with slots := e.st.slots.map (fun p => (p.1, { p.2 with run := p.2.run.map run, waiting := p.2.waiting.map run })) }
    ls := { e.ls with named := e.ls.named.map (fun r => (s, r.2)) }
    steps := { e.steps with srcStep := s, srcSeq := 0 } }

/-- Parked commands that wait for no translation are run again. -/
def wakeParked (p : RunCmd → Bool) (e : Eng) : Eng :=
  wake ((e.hl.cmds.filter (fun c => c.work == .parked && p c)).map (fun c => Waiter.cmd c.id)) e

/-- Open step `s` (R137, R138). -/
def openStep (s : Nat) (e : Eng) : Eng :=
  let first := e.steps.lastOpened.isNone
  let e := if first then renameStep s e else e
  let e := openConf s first { e with steps := { e.steps with
    openStep := some s, lastOpened := some s, firstOpened := if first then some s else e.steps.firstOpened } }
  if first then wakeParked (fun _ => true) e else e

/-! ## STEP_OPEN and TABLE_REMAP -/

/-- A configuration takes effect at the opening of step `s` (R419). -/
def takesEffect (e : Eng) (s : Nat) : Bool := match e.ls.pend with | some p => decide (p.1 ≤ s) | none => false

/-- Prepare a STEP_OPEN (R137). One at which a configuration takes effect waits while the fabric core restarts (R465). -/
def prepStepOpen (_w : Waiter) (_step : Nat) (d : Desc) (e : Eng) : Eng × Prep :=
  let s := num d 16 6
  let bad : Refuse := { status := Status.stepInvalid }
  if e.steps.openStep.isSome then (e, .refuse bad)
  else if s = 2 ^ 48 - 1 then (e, .refuse { status := Status.stepExhausted })
  else if !coreRuns e 2 && takesEffect e s then (e, .wait 0)
  else match e.steps.lastOpened with
    | some o => if s = o + 1 then (e, .ready []) else (e, .refuse bad)
    | none => if 1 ≤ s then (e, .ready []) else (e, .refuse bad)

/-- Commit a STEP_OPEN: its completion is OK at once, and what was held until the step was known is taken in (R25, R137). -/
def commitStepOpen (c : RunCmd) (_ins : List Byte) (e : Eng) : Eng :=
  admitEntries (admitHeld (releaseJournal c (finishOk c.id 0 (openStep (num c.desc 16 6) e))))

/-- REMAP_INVALID with a detail (R131). -/
def remapBad (detail : Nat) : Refuse := { status := Status.remapInvalid, detail }

/-- Two tables have the same shape (R128). -/
def sameShape (a b : TD) : Bool :=
  a.dim == b.dim && a.groupCode == b.groupCode && a.rows == b.rows && a.mode == b.mode && a.shards == b.shards

/-- Prepare a TABLE_REMAP (R128, R129, R131). -/
def prepTableRemap (_w : Waiter) (step : Nat) (d : Desc) (e : Eng) : Eng × Prep :=
  let t := num d 16 2
  let src := num d 18 2
  let used := fun x => e.ls.named.any (fun r => r.1 == step && (r.2.1 == x || r.2.2 == x))
  match tdAt e step t, tdAt e step src with
  | some a, some b =>
    if t = src ∨ !sameShape a b then (e, .refuse (remapBad 11))
    else if used t || used src then (e, .refuse (remapBad 12))
    else (e, .ready [])
  | _, _ => (e, .refuse { status := Status.tableUnknown })

/-- Commit a TABLE_REMAP: it takes effect for the first step opened from now on (R23, R129). -/
def commitTableRemap (c : RunCmd) (_ins : List Byte) (e : Eng) : Eng :=
  releaseJournal c (finishOk c.id 0
    { e with ls := { e.ls with
      remaps := e.ls.remaps ++ [(num c.desc 16 2, num c.desc 18 2)]
      named := e.ls.named.filter (fun r => decide (c.step ≤ r.1)) ++ [(c.step, num c.desc 16 2, num c.desc 18 2)] } })

end Sys2Proof.Machine
end

