-- ==== Sys2Proof/Machine/Optim.lean ====
section
/-! DEFINITION. The optimiser's arithmetic (R164, R170). -/

namespace Sys2Proof.Machine

/-! ## Arithmetic (R170) -/

/-- pow32: square and multiply from the low bit, for at most 32 bits. -/
def pow32F : Nat → FV → FV → Nat → N FV
  | 0, p, _, _ => pure p
  | f + 1, p, q, t =>
    if t = 0 then pure p
    else do
      let p ← if t % 2 = 1 then rnd32 (p.mul q) else pure p
      let q ← rnd32 (q.mul q)
      pow32F f p q (t / 2)

/-- b to the power t, t ≥ 1 (R170). -/
def pow32 (b : FV) (t : Nat) : N FV := pow32F 33 .one b t

/-- w − lr × x, fused. -/
def stepDown (lr x w : FV) : N FV := fma32 w lr.negate x

/-- Weight decay (R170). -/
def decayed (p : Profile) (w g : List FV) : N (List FV) :=
  if p.decay.isZero then pure g else zipN (fun w g => fma32 g p.decay w) w g

/-- The rowwise sum of squares, in ascending e. -/
def sumSquares (g : List FV) : N FV := g.foldlM (fun s x => fma32 s x x) .zero

/-- The bias corrections of ADAM. -/
def biasOf (p : Profile) (t : Nat) : N (FV × FV) := do
  if !p.bias then return (.one, .one)
  let a ← pow32 p.beta1 t
  let c1 ← rnd32 (FV.one.sub a)
  let b ← pow32 p.beta2 t
  let d ← rnd32 (FV.one.sub b)
  let c2 ← sqrt32 d
  return (c1, c2)

/-- ADAM's first moment of one element. -/
def adamM (p : Profile) (m g : FV) : N FV := do
  let k ← rnd32 (FV.one.sub p.beta1)
  let x ← rnd32 (p.beta1.mul m)
  fma32 x k g

/-- ADAM's second-moment root of one element. -/
def adamR (p : Profile) (r g : FV) : N FV := do
  let k ← rnd32 (FV.one.sub p.beta2)
  let g2 ← rnd32 (g.mul g)
  let r2 ← rnd32 (r.mul r)
  let x ← rnd32 (p.beta2.mul r2)
  let s ← fma32 x k g2
  sqrt32 s

/-- ADAM's step of one element. -/
def adamW (p : Profile) (lr : FV) (c : FV × FV) (w : FV) (mr : FV × FV) : N FV := do
  let a ← quotient fmt32 mr.1 c.1
  let b ← quotient fmt32 mr.2 c.2
  let d ← rnd32 (b.add p.eps)
  let x ← quotient fmt32 a d
  stepDown lr x w

/-- One optimiser step on a row: new values and new state (R170). -/
def optimise (p : Profile) (lrScale : FV) (dim : Nat) (g w : List FV) (s : OptState) : N (List FV × OptState) := do
  let lr ← rnd32 (p.lr.mul lrScale)
  let g ← decayed p w g
  match p.kind with
  | 1 =>
    let w ← zipN (stepDown lr) g w
    return (w, s)
  | 2 =>
    let q ← sumSquares g
    let m ← quotient fmt32 q (ofInt dim)
    let a ← rnd32 (s.a.add m)
    let ra ← sqrt32 a
    let d ← rnd32 (ra.add p.eps)
    let w ← zipN (fun g w => do let x ← quotient fmt32 g d; stepDown lr x w) g w
    return (w, { s with a })
  | 3 =>
    let r ← zipN (fun r g => do
      let r2 ← rnd32 (r.mul r)
      let q ← fma32 r2 g g
      sqrt32 q) s.r g
    let x ← zipN (fun r g => do
      let d ← rnd32 (r.add p.eps)
      quotient fmt32 g d) r g
    let w ← zipN (stepDown lr) x w
    return (w, { s with r })
  | 4 =>
    let t := if s.t = 0xFFFFFFFF then s.t else s.t + 1
    let c ← biasOf p t
    let m ← zipN (adamM p) s.m g
    let r ← zipN (adamR p) s.r g
    let w ← zipN (adamW p lr c) w (m.zip r)
    return (w, { s with t, m, r })
  | _ => return (w, s)

/-- The gradient a row's sums give (R164). -/
def rowGrad (t : TD) (er : Int) (sums : List Int) : N (List FV) := do
  let g ← mapN (fun s => rnd32 ((ofInt s).scale (er - 40))) sums
  if t.rotated then return g else rotate t.group g

end Sys2Proof.Machine
end

