-- ==== Sys2Proof/Machine/Fences.lean ====
section
/-! DEFINITION. STEP_CLOSE at the requester, fences and round fences, restep requests, and what settlement releases
(R26, R139, R151, R176, R437 to R439). -/

namespace Sys2Proof.Machine

/-! ## STEP_CLOSE (R136, R137, R139) -/

/-- lr_scale is usable: finite and not negative. Log 41. -/
def lrScaleOk (d : Desc) : Bool :=
  let x := floatAt d 24
  x.finite && !x.lt .zero

/-- Prepare a STEP_CLOSE (R137). -/
def prepStepClose (_w : Waiter) (_step : Nat) (d : Desc) (e : Eng) : Eng × Prep :=
  if e.steps.openStep = some (num d 16 6) ∧ lrScaleOk d then (e, .ready []) else (e, .refuse { status := Status.stepInvalid })

/-- The job members of a configuration; the empty one has this engine alone. Log 40. -/
def jobMembers (e : Eng) (c : Conf) : List Nat := if c.members.isEmpty then [e.fb.node] else c.members

/-- Entries of one round that this engine still waits on (R26, R410). -/
def entriesOut (e : Eng) (step round : Nat) (p : OutRec → Bool) : Bool :=
  e.steps.outRecs.any (fun o => o.step == step && o.entry.round == round && !o.acked && p o)

/-- A command of the step has yet to issue its requests. -/
def requestsToCome (e : Eng) (step : Nat) : Bool :=
  e.hl.cmds.any (fun c => c.step == step && c.done.isNone && c.work == .parked && !c.carried)

/-- Every INDEX and RECORD request of the step is finished, so its fence may go (R26). -/
def canFence (e : Eng) (step : Nat) : Bool :=
  !hostLost e && e.rg.state != .down && !requestsToCome e step && !entriesOut e step 0 (fun _ => true) &&
    e.fb.reqs.all (fun r => r.step != step || (match r.body with | .index _ | .record _ => false | _ => true))

/-- M of a table in a step: the largest over the commands that sent records of it. Where every element of every record is zero, none is
the largest of none, and M is a free value. Log 39. -/
def tableMax (step t : Nat) (e : Eng) : Int × Eng :=
  match (e.steps.sentMax.filter (fun m => m.1 == step && m.2.1 == t)).filterMap (·.2.2) with
  | m :: l => (l.foldl max m, e)
  | [] =>
    let f := takeFree e
    (ofInt8 (f.1.toNat % 256), f.2)

/-- The tables of a step fence with their M, ascending (R139). -/
def fenceTables (step : Nat) (e : Eng) : List (Nat × Int) × Eng :=
  (sortNat (nub ((e.steps.sentMax.filter (fun m => m.1 == step)).map (·.2.1)))).foldl (fun (a : List (Nat × Int) × Eng) t =>
    let m := tableMax step t a.2
    (a.1 ++ [(t, m.1)], m.2)) ([], e)

/-- The packets of a fence: at most 1,020 entries each, LAST on the final one (R405). -/
def fencePackets (lr : Word) (round : Nat) (ts : List (Nat × Int)) : List FenceBody :=
  let ps := if ts.isEmpty then [[]] else pieces 1020 ts
  ps.zipIdx.map (fun p => { lrScale := lr, round, last := p.2 + 1 == ps.length, tables := p.1 })

/-! ## Fences received (R27, R176 item 5, R442) -/

/-- Two fences are of the same source, step, round and, for a round fence, table. -/
def sameFence (src step : Nat) (b : FenceBody) (f : FenceRec) : Bool :=
  f.src == src && f.step == step && f.round == b.round &&
    (b.round == 0 || f.tables.map (·.1) == b.tables.map (·.1))

/-- A fence packet is noted (R405). One for a closed step, or one that repeats a complete fence, changes nothing; a
member in DOWN drops it. -/
def noteFence (src step : Nat) (b : FenceBody) (e : Eng) : Eng :=
  if e.rg.state = .down ∨ stepClosed e step then e
  else
    let k := e.steps.fences.findIdx (sameFence src step b)
    match e.steps.fences[k]? with
    | some f =>
      if f.complete then e
      else { e with steps := { e.steps with fences := e.steps.fences.set k { f with tables := f.tables ++ b.tables, complete := b.last } } }
    | none =>
      { e with steps := { e.steps with
        fences := e.steps.fences ++ [{ src, step, round := b.round, lr := b.lrScale, tables := b.tables, complete := b.last }] } }

/-- Fences of a step and round from every job member are complete; of a round fence, those that name the table. -/
def fencesIn (e : Eng) (step round : Nat) (table : Option Nat) : Bool :=
  (jobMembers e (confAt e step)).all (fun m => e.steps.fences.any (fun f =>
    f.src == m && f.step == step && f.round == round && f.complete &&
      (match table with | some t => f.tables.any (fun x => x.1 == t) | none => true)))

/-- Send fence packets to one node. -/
def fenceTo (step : Nat) (bs : List FenceBody) (node : Nat) (e : Eng) : Eng :=
  bs.foldl (fun e b => if node = e.fb.node then noteFence node step b e else sendPacket node step (.fence b) false e) e

/-- Send the fence of a step, with given tables, to every job member (R139). The last four are remembered for a return
(R448). -/
def fenceAll (step : Nat) (lr : Word) (ts : List (Nat × Int)) (e : Eng) : Eng :=
  let e := { e with steps := { e.steps with fencesSent := ((step, lr, ts) :: e.steps.fencesSent.filter (fun f => f.1 != step)).take 4 } }
  (jobMembers e (confAt e step)).foldl (fun e m => fenceTo step (fencePackets lr 0 ts) m e) e

/-- Send the fence of a step to every job member (R139). -/
def sendStepFence (step : Nat) (lr : Word) (e : Eng) : Eng :=
  let r := fenceTables step e
  fenceAll step lr r.1 r.2

/-- Send every step fence that R26 allows. -/
def trySendFences (e : Eng) : Eng :=
  e.steps.fencePending.foldl (fun e f =>
    if canFence e f.1 then
      sendStepFence f.1 f.2 { e with steps := { e.steps with fencePending := e.steps.fencePending.filter (fun g => g != f) } }
    else e) e

/-- Send every round fence whose records are acknowledged, to both members of the pair (R26, R176 item 3). -/
def tryRoundFences (e : Eng) : Eng :=
  e.steps.roundFences.foldl (fun e f =>
    if entriesOut e f.1 f.2.1 (fun o => o.pair == f.2.2.2 && o.entry.table == f.2.2.1) then e
    else
      let bs := fencePackets 0 f.2.1 [(f.2.2.1, 0)]
      let e := { e with steps := { e.steps with roundFences := e.steps.roundFences.filter (fun g => g != f) } }
      fenceTo f.1 bs (2 * f.2.2.2 + 1) (fenceTo f.1 bs (2 * f.2.2.2) e)) e

/-- Commit a STEP_CLOSE: the step is no longer open, and its fence goes as soon as R26 allows (R139). -/
def commitStepClose (c : RunCmd) (_ins : List Byte) (e : Eng) : Eng :=
  let s := num c.desc 16 6
  let lr := BitVec.ofNat 32 (num c.desc 24 4)
  trySendFences (setWork c.id (.stepClose s) { e with steps := { e.steps with
    openStep := none, hostClosed := some s, fencePending := e.steps.fencePending ++ [(s, lr)] } })

/-! ## Settlement (R437, R439) -/

/-- What a pair's close adds to the count of a command that waits for it: its rows admitted or moved there (R115, R119), which the pair
tells; where it does not, a free value. Log 32. -/
def closeCount (c : RunCmd) (step pair : Nat) (took : Option (List Nat)) (e : Eng) : Nat × Eng :=
  let mine := e.steps.outRecs.filter (fun o => o.cmdId == c.id && o.pair == pair && o.step == step && o.entry.row != noRow)
  let listed := if opcode c.desc = 0x22 then true else opcode c.desc == 0x20 && num c.desc 18 1 != 2
  if !listed then (0, e)
  else match took with
    | some l => (mine.countP (fun o => l.contains o.entry.srcSeq), e)
    | none =>
      let f := takeFree e
      (f.1.toNat % (mine.length + 1), f.2)

/-- A pair has completed its close: the command goes on waiting for the others, or completes (R115, R156). -/
def closeAt (step pair : Nat) (took : Option (List Nat)) (e : Eng) (c : RunCmd) : Eng :=
  match c.work with
  | .atClose s ps rows =>
    if s = step ∧ ps.contains pair then
      let q := closeCount c step pair took e
      let rest := ps.filter (fun p => p != pair)
      if rest.isEmpty then releaseJournal c (finishOk c.id (rows + q.1) q.2)
      else setWork c.id (.atClose s rest (rows + q.1)) q.2
    else e
  | _ => e

/-- An owning pair has settled a step: its entries are forgotten, inputs whose entries are all settled are released, and
UPDATE_GRADs that wait for space are tried again (R151, R437). -/
def settlePair (step pair : Nat) (took : Option (List Nat)) (e : Eng) : Eng :=
  let e := e.hl.cmds.foldl (closeAt step pair took) e
  let e := { e with steps := { e.steps with
    outRecs := e.steps.outRecs.filter (fun o => !(o.step == step && o.pair == pair))
    settled := if e.steps.settled.contains (pair, step) then e.steps.settled else (pair, step) :: e.steps.settled } }
  let held := fun (j : JournalBody) => e.steps.outRecs.any (fun o => o.ring == j.ring && o.seq == j.seq)
  wakeParked (fun c => opcode c.desc == 0x18) (dropJournal (fun j => opcode j.desc == 0x18 && j.done && !held j) e)

/-- RECORD_ACK received: entries at that member's pair are acknowledged, or the pair has settled the step (R439). An
acknowledgement covers the entries sent to the pair, since either member may answer for a reissue (R440). -/
def opRecordAck (h : PktHdr) (b : RecordAckBody) (e : Eng) : Eng :=
  let pair := h.src / 2
  let e := if b.settled then settlePair b.step pair b.took e
    else ackOwn b.step b.round b.took (fun o => o.pair == pair && inRanges o.entry.srcSeq b.ranges) e
  tryRoundFences (trySendFences e)

/-! ## RESTEP at a job member (R176 item 3, R438) -/

/-- The records of a step and table that went to a pair, as a restep resends them. -/
def restepRecs (e : Eng) (step table pair round : Nat) : List OutRec :=
  (e.steps.outRecs.filter (fun o => o.step == step && o.pair == pair && o.entry.table == table && o.entry.kind == 1)).map
    (fun (o : OutRec) => { o with entry := { o.entry with round }, acked := false })

/-- Send the entries of noted records again, those of one command and half together; where they go is decided anew. -/
def resendRecs (os : List OutRec) (step pair : Nat) (reissued : Bool) (e : Eng) : Eng :=
  (nub (os.map (fun (o : OutRec) => (o.cmdId, halfOf o.entry.table o.entry.row)))).foldl (fun e g =>
    let lead := leadOf pair g.2
    let part := os.filter (fun o => o.cmdId == g.1 && halfOf o.entry.table o.entry.row == g.2)
    let e := if servesSelf e pair then e else noteAbsent step lead e
    let m := if servesSelf e pair then (e.fb.node, false) else memberFor e step lead
    let e := { e with steps := { e.steps with outRecs := e.steps.outRecs.map (fun (o : OutRec) =>
      if part.any (fun p => p.cmdId == o.cmdId && p.entry.srcSeq == o.entry.srcSeq && p.step == o.step && p.pair == o.pair) then
        { o with peer := m.1 } else o) } }
    let es := part.map (·.entry)
    if servesSelf e pair then takeRecords { hdrTo e e.fb.node step (.record es) reissued with step } es (countSent es e)
    else sendEntries g.1 pair m.1 step es (reissued || m.2) (markPartner g.1 m.2 e)) e

/-- A restep request: regenerate and resend, or with retention off only the fence. -/
def opRestep (src step table round : Nat) (e : Eng) : Eng :=
  let pair := src / 2
  let os := restepRecs e step table pair round
  let e := { e with steps := { e.steps with roundFences := e.steps.roundFences ++ [(step, round, table, pair)] } }
  let e :=
    if e.rg.retentionGib = 0 then
      raiseEvent { kind := Kind.restepUnserved, step := some step, table, arg1 := round } (count Ctr.rgRestepUnserved 1 e)
    else
      let hit := fun (o : OutRec) => o.step == step && o.pair == pair && o.entry.table == table && o.entry.kind == 1
      let e := { e with steps := { e.steps with outRecs := e.steps.outRecs.map (fun (o : OutRec) =>
        if hit o then { o with entry := { o.entry with round }, acked := false } else o) } }
      resendRecs os step pair false e
  tryRoundFences e

end Sys2Proof.Machine
end

