-- ==== Sys2Proof/Machine/Sky.lean ====
section
/-! DEFINITION. Skylights (R332 to R336): the receiver's translation, permission and answers, and the sender's requests,
halts and endings. Data written to stack memory from outside the update path is here too (R24, R286). -/

namespace Sys2Proof.Machine

/-! ## Data written to stack memory (R24, R58, R286) -/

/-- A unit of the stacks holds a slot or an Almanac entry of an indirect table. -/
def indirectUnit (e : Eng) (u : Nat × Nat) : Bool :=
  e.store.allocs.any (fun a => a.channel == u.1 && decide (a.offset ≤ u.2) && decide (u.2 < a.offset + a.units)) ||
    e.ls.active.tables.any (fun p =>
      let t := parseTD p.2
      let stripes := ceilDiv (ceilDiv (localSpace e.ls.active t) 4) e.variant.channels
      t.indirect && decide (t.bandOff ≤ u.2) && decide (u.2 < t.bandOff + stripes))

/-- The rows of direct-placed tables whose slots lie at a unit of the stacks: R49 read backwards. -/
def directRowsAt (e : Eng) (u : Nat × Nat) : List (Nat × Nat) :=
  let P := e.variant.channels
  e.ls.active.tables.filterMap (fun p =>
    let t := parseTD p.2
    let q := (u.2 - t.bandOff) / t.slotUnits t.directFmt
    let x := (q * 0x9E3779B9 + placeId e t.id * 0x85EBCA6B) % 2 ^ 32
    let i := q * P + (u.1 + P - x / 2 ^ 16 % P) % P
    if !t.indirect ∧ t.bandOff ≤ u.2 ∧ i < localSpace e.ls.active t then some (t.id, i) else none)

/-- Rows whose slots are written outside the update path have home slots that differ from their replicas (R24, R110). -/
def noteDirect (u : Nat × Nat) (e : Eng) : Eng :=
  { e with store := { e.store with dirty := e.store.dirty ++ (directRowsAt e u).filter (fun r => !e.store.dirty.contains r) } }

/-- `n` free bytes. -/
def freeBytes : Nat → Eng → List Byte × Eng
  | 0, e => ([], e)
  | n + 1, e =>
    let f := takeFree e
    let r := freeBytes n f.2
    (f.1.setWidth 8 :: r.1, r.2)

/-- Store bytes unit by unit. What a write to an indirect table's slots or entries leaves there is undefined (R58): free
values. Log 49. -/
def dataPutF : Nat → Nat → List Byte → Eng → Eng
  | 0, _, _, e => e
  | f + 1, a, bs, e =>
    if bs.isEmpty then e
    else
      let k := 32 - a % 32
      let w := bs.take k
      let r := if indirectUnit e (unitOf e a) then freeBytes w.length e else (w, e)
      dataPutF f (a + k) (bs.drop k) (stackPut a r.1 (noteDirect (unitOf e a) r.2))

/-- Write data to stack memory, and drop the cached lines it covers (R286). -/
def dataPut (a : Nat) (bs : List Byte) (e : Eng) : Eng :=
  stackBytes bs.length (dataPutF (bs.length / 32 + 2) a bs (dropLines a bs.length e))

/-- Read data from stack memory. -/
def dataGet (a n : Nat) (e : Eng) : List Byte × Eng := (stackRead e a n, stackBytes n e)

/-! ## The receiver (R333, R334) -/

/-- Why a node may not use a skylight (R333). -/
def skyRefusal (e : Eng) (src sky : Nat) : Option Nat :=
  let r := root e (2 + sky)
  if !r.enable ∨ 256 ≤ sky then some 1
  else if !(jobMembers e e.ls.active).contains src ∨ (!r.skyAny ∧ src ≠ r.skyNode) then some 2
  else none

/-- How a use of one of this engine's skylights ends. -/
inductive SkyUse
  | denied (reason : Nat)
  | ok (ps : List Piece)
  | stopped (l : Lookup)
  deriving DecidableEq, Repr

/-- Translate `n` bytes of skylight `sky` for a node (R332, R333). -/
def useSky (w : Waiter) (src sky acc off n : Nat) (e : Eng) : Eng × SkyUse :=
  match skyRefusal e src sky with
  | some r => (e, .denied r)
  | none =>
    let q := translate w (2 + sky) acc off n e
    match q.2 with
    | .stopped l => (q.1, .stopped l)
    | .ok ps _ => if !hostUp e && ps.any (fun p => !p.stack) then (q.1, .denied 3) else (q.1, .ok ps)

/-- Answer a request of another engine. -/
def skyReply (h : PktHdr) (b : Body) (e : Eng) : Eng := sendPacket h.src h.step b false e

/-- Refuse a skylight request. -/
def skyDeny (h : PktHdr) (cmd reason : Nat) (e : Eng) : Eng := skyReply h (.denied cmd reason) (count Ctr.mtSkyDenied 1 e)

/-- A request that a fault stopped is answered FAULT_PENDING; one that waits for a walk or an entry is not answered
yet. -/
def skyStopped (h : PktHdr) (cmd : Nat) (l : Lookup) (e : Eng) : Eng :=
  match l with
  | .faulted (.entry id) => skyReply h (.faultPending cmd id) e
  | _ => e

/-- Write the pieces of another engine's request: stack bytes at once, host bytes as writes that, once all of them are acknowledged, are
answered. -/
def skyPutPieces (h : PktHdr) (cmd : Nat) : List Piece → List Byte → Eng → Eng
  | [], _, e => e
  | p :: t, bs, e =>
    let d := bs.take p.len
    skyPutPieces h cmd t (bs.drop p.len) (if p.stack then dataPut p.addr d e else hostWrites (.sky h cmd) p.addr d e)

/-- Serve a SKY_WRITE (R286, R332 to R336). -/
def serveSkyWrite (h : PktHdr) (b : SkyWriteBody) (e : Eng) : Eng :=
  let q := useSky (.remote h (.skyWrite b)) h.src b.sky 1 b.offset b.data.length e
  match q.2 with
  | .denied r => skyDeny h b.cmdId r q.1
  | .stopped l => skyStopped h b.cmdId l q.1
  | .ok ps =>
    let e := skyPutPieces h b.cmdId ps b.data (unserve (.remote h (.skyWrite b)) q.1)
    if ps.all (·.stack) then skyReply h (.skyWriteAck b.cmdId) e else e

/-- The bytes of translated pieces. -/
def skyGetPieces : List Piece → Eng → List Byte × Eng
  | [], e => ([], e)
  | p :: t, e =>
    let d := if p.stack then dataGet p.addr p.len e else (hostRead e p.addr p.len, hostIn (readBytes p.addr p.len) e)
    let r := skyGetPieces t d.2
    (d.1 ++ r.1, r.2)

/-- Float elements of a ret_format or an operand format: 2 FP32, 3 BF16, 4 FP16 (R218, R237). -/
def fmtFloats (fmt : Nat) (bs : List Byte) : List FV :=
  match fmt with
  | 2 => (pieces 4 bs).map (fun b => fromBits 8 23 (leNat b))
  | 3 => (pieces 2 bs).map (fun b => ofBf16 (leNat b))
  | _ => (pieces 2 bs).map (fun b => fromBits 5 10 (leNat b))

/-- Bytes of an element of such a format. -/
def fmtSize (fmt : Nat) : Nat := if fmt = 2 then 4 else 2

/-- A shape without a table, for outputs and transport forms that have none. -/
def bareTD (dim groupCode : Nat) : TD := { parseTD [] with dim, groupCode }

/-- The transport form of an expert output: rotated, and encoded by R95 (R245). -/
def skyTransform (d code : Nat) (bs : List Byte) (e : Eng) : List Byte × Eng :=
  let t := bareTD d (code % 4)
  let r := tallied (do
    let v ← mapN rnd32 (fmtFloats (code / 4 % 8) bs)
    transport t (decide (32 ≤ code)) v) e
  (r.1.2, r.2)

/-- Serve a SKY_READ. -/
def serveSkyRead (h : PktHdr) (b : SkyReadBody) (e : Eng) : Eng :=
  let q := useSky (.remote h (.skyRead b)) h.src b.sky 0 b.offset b.length e
  match q.2 with
  | .denied r => skyDeny h b.cmdId r q.1
  | .stopped l => skyStopped h b.cmdId l q.1
  | .ok ps =>
    let d := skyGetPieces ps (unserve (.remote h (.skyRead b)) q.1)
    let r := match b.transform with
      | some (dim, code) => skyTransform dim code d.1 d.2
      | none => d
    skyReply h (.skyData { cmdId := b.cmdId, offset := b.offset, data := r.1 }) r.2

/-- A request of another engine has its turn again. -/
def serveRemote (h : PktHdr) (b : Body) (e : Eng) : Eng :=
  match b with
  | .skyWrite w => serveSkyWrite h w e
  | .skyRead r => serveSkyRead h r e
  | _ => e

/-! ## The sender -/

/-- Cut a skylight span at 4 KiB boundaries and into pieces a packet carries, as (offset, length) (R320, R402).
Log 6. -/
def skyCuts : Nat → Nat → Nat → List (Nat × Nat)
  | 0, _, _ => []
  | f + 1, a, n =>
    if n = 0 then []
    else
      let k := min n (min 4080 (4096 - a % 4096))
      (a, k) :: skyCuts f (a + k) (n - k)

/-- Write bytes through a skylight of another engine, for a command. -/
def skySend (cmd node step tag sky off : Nat) (bs : List Byte) (e : Eng) : Eng :=
  (skyCuts (bs.length / 2048 + 3) off bs.length).foldl (fun e p =>
    sendSky cmd node step tag (.skyWrite { sky, offset := p.1, cmdId := cmd, data := slice bs (p.1 - off) p.2 }) e) e

/-- Read a span through a skylight of another engine, for a command. -/
def skyFetch (cmd node step tag sky off n : Nat) (e : Eng) : Eng :=
  (skyCuts (n / 2048 + 3) off n).foldl (fun e p =>
    sendSky cmd node step tag (.skyRead { sky, offset := p.1, length := p.2, cmdId := cmd, transform := none }) e) e

/-- A body is a skylight request. -/
def isSky : Body → Bool
  | .skyWrite _ | .skyRead _ => true
  | _ => false

/-- Skylight requests a command still has with peers. -/
def skyOut (e : Eng) (cmd : Nat) : List Req := e.fb.reqs.filter (fun r => r.cmdId == cmd && isSky r.body)

/-- Forget requests. -/
def dropReqs (p : Req → Bool) (e : Eng) : Eng := { e with fb := { e.fb with reqs := e.fb.reqs.filter (fun r => !p r) } }

/-- Take the first request that an answer from a peer belongs to: acknowledgements come in order, data by its
offset. Log 50. -/
def takeReq (e : Eng) (peer cmd : Nat) (data : Option Nat) : Option Req :=
  e.fb.reqs.find? (fun r => r.peer == peer && r.cmdId == cmd && (match r.body, data with
    | .skyWrite _, none => true
    | .skyRead b, some o => b.offset == o
    | _, _ => false))

/-- Send every skylight request of a command to a peer again (R334). -/
def resendSky (cmd peer : Nat) (e : Eng) : Eng :=
  ((skyOut e cmd).filter (fun r => r.peer == peer)).foldl (fun e r => sendPacket peer r.step r.body true e) e

/-- A node can be reached: this engine's own, or one whose session is not lost and that has a route (R243, R409). -/
def reachable (e : Eng) (node : Nat) : Bool := node == e.fb.node || !unreachable e node

end Sys2Proof.Machine
end

