-- ==== Sys2Proof/Machine/Atomic.lean ====
section
/-! DEFINITION. Memory-side atomics (R268 to R272, R304): ATOMIC at the requesting member, and its elements on both
members. -/

namespace Sys2Proof.Machine

/-- Bytes of an element of a type (R268). -/
def atomSize (ty : Nat) : Nat :=
  match ty with
  | 1 => 2
  | 3 => 8
  | 5 => 8
  | 6 => 8
  | _ => 4

/-- Bytes of an operand: the element's own type, and FP32 under EXACT (R269). -/
def opndSize (ty : Nat) : Nat := if ty = 6 then 4 else atomSize ty

/-- The types an operation takes (R269). -/
def atomTypes (op : Nat) : List Nat := if op = 0 then [0, 1, 2, 3, 6] else [2, 3, 4, 5]

/-- ATOMIC_INVALID with a detail (R272). -/
def atomBad (detail : Nat) : Refuse := { status := Status.atomicInvalid, detail }

/-- Offset of the indices behind inline operands, which take an element's size each: the next multiple of 4 bytes (R304). -/
def inlineIdx (ty n : Nat) : Nat := (n * atomSize ty + 3) / 4 * 4

/-- Bytes of operands, padding and indices of an INLINE command (R304). -/
def inlineSize (ty n : Nat) (scatter : Bool) : Nat := if scatter then inlineIdx ty n + 4 * n else n * atomSize ty

/-- The operands and indices of an INLINE command as those of another one stand in memory: an operand under EXACT is the first 4 bytes of its
element's 8. Log 46. -/
def inlineInputs (ty n : Nat) (scatter : Bool) (bs : List Byte) : List Byte :=
  (pieces (atomSize ty) (slice bs 0 (n * atomSize ty))).flatMap (·.take (opndSize ty)) ++
    if scatter then slice bs (inlineIdx ty n) (4 * n) else []

/-- The checks of an ATOMIC's own fields (R272). The order among them is not stated. Log 47. -/
def atomFields (d : Desc) : Option Refuse :=
  let op := num d 16 1
  let ty := num d 17 1
  let inl := bit (num d 18 1) 0
  let sc := bit (num d 18 1) 1
  let n := num d 24 4
  let ex := sext 16 (num d 20 2)
  firstFail [
    (decide (op ≤ 2 ∧ ty ≤ 6), atomBad 1),
    ((atomTypes op).contains ty, atomBad 2),
    (decide (1 ≤ n ∧ n ≤ 2 ^ 20) && (!inl || decide (inlineSize ty n sc ≤ 256)), atomBad 3),
    (num d 32 8 % atomSize ty == 0 && aligned64 (num d 40 8) && aligned64 (num d 48 8), atomBad 4),
    (if ty = 6 then decide (-149 ≤ ex ∧ ex ≤ 104) else ex == 0, atomBad 6),
    (if inl then num d 40 8 == 0 && num d 48 8 == 0 else sc == (num d 48 8 != 0), atomBad 7)]

/-- The operands and indices, as they were journaled: operands first, then the indices of SCATTER. -/
def atomAddrs (d : Desc) (ins : List Byte) : List Nat :=
  let n := num d 24 4
  let ty := num d 17 1
  let idx := if bit (num d 18 1) 1 then (List.range n).map (fun j => num ins (n * opndSize ty + 4 * j) 4) else List.range n
  idx.map (fun k => num d 32 8 + k * atomSize ty)

/-- An element's bytes lie in the band area (R47, R272). A naturally aligned element lies in one unit. -/
def inBand (e : Eng) (a : Nat) : Bool := decide (a < e.variant.stackBytes) && decide ((unitOf e a).2 < e.store.bandTop)

/-- Every check of an ATOMIC, on the inputs read (R272). -/
def checkAtomic (_step : Nat) (d : Desc) (ins : List Byte) (e : Eng) : Prep :=
  match atomFields d with
  | some r => .refuse r
  | none =>
    let k := (atomAddrs d ins).findIdx (fun a => !inBand e a)
    if k < num d 24 4 then .refuse { atomBad 5 with errRow := k } else .ready ins

/-- Prepare an ATOMIC: its inputs read, and every element checked (R270, R272). -/
def prepAtomic (w : Waiter) (step : Nat) (d : Desc) (e : Eng) : Eng × Prep :=
  match atomFields d with
  | some r => (e, .refuse r)
  | none =>
    let n := num d 24 4
    let ty := num d 17 1
    let sc := bit (num d 18 1) 1
    if bit (num d 18 1) 0 then
      (e, checkAtomic step d (inlineInputs ty n sc (d.drop 64)) e)
    else readThenCheck w ((num d 40 8, n * opndSize ty) :: if sc then [(num d 48 8, 4 * n)] else []) (checkAtomic step d) e

/-- A floating-point type's format, and its coding. -/
def atomFloat (ty : Nat) : Fmt × (Nat → FV) × (FV → Nat) :=
  if ty = 0 then (fmt32, fromBits 8 23, toBits 8 23) else (fmtBf16, ofBf16, toBf16)

/-- The exact value X of an EXACT operand (R161, R269). -/
def exactX (ex : Int) (x : FV) : Option Int :=
  match x with
  | .fin n m b => let q : Int := ratRound m 1 (b + 40 - ex); some (if n then -q else q)
  | _ => none

/-- Largest magnitude of an EXACT element. -/
def exactMax : Int := 2 ^ 63 - 1

/-- The new value of an element of a signed or unsigned whole-number type. -/
def atomInt (op ty t x : Nat) : Nat :=
  let w := 8 * atomSize ty
  let signed := ty == 2 || ty == 3
  match op with
  | 0 => (t + x) % 2 ^ w
  | _ =>
    let less := if signed then decide (sext w x < sext w t) else decide (x < t)
    if op = 1 then (if less then x else t) else if less || x == t then t else x

/-- Apply one element on this member (R269). -/
def applyAtom (op ty : Nat) (ex : Int) (a : Nat) (x : List Byte) (e : Eng) : Eng :=
  let z := atomSize ty
  let t := leNat (stackRead e a z)
  let put := fun (v : Nat) (e : Eng) => stackBytes z (count Ctr.upAtomicElems 1 (dataPut a (leBytes z v) e))
  if ty = 6 then
    match exactX ex (fromBits 8 23 (leNat x)) with
    | none => count Ctr.quNonfinite 1 (put t e)
    | some v =>
      let s := sext 64 t + v
      let c := max (-exactMax) (min exactMax s)
      count Ctr.upAtomicSat (if c = s then 0 else 1) (put (twos 64 c) e)
  else if ty ≤ 1 then
    let f := atomFloat ty
    let r := tallied (rnd f.1 ((f.2.1 t).add (f.2.1 (leNat x)))) e
    put (f.2.2 r.1) r.2
  else put (atomInt op ty t (leNat x)) e

/-- An ATOMIC is complete (R270). -/
def finishAtomic (c : RunCmd) (e : Eng) : Eng := releaseJournal c (finishOk c.id (num c.desc 24 4) e)

/-- The elements of an ATOMIC, in ascending order: stack address and operand. -/
def atomElems (d : Desc) (ins : List Byte) : List (Nat × List Byte) :=
  let z := opndSize (num d 17 1)
  (atomAddrs d ins).zipIdx.map (fun p => (p.1, slice ins (p.2 * z) z))

/-- The elements as the ridge link carries them (R270). -/
def atomItems (ring : Nat) (seq : Word) (d : Desc) (ins : List Byte) : List FwdItem :=
  (atomElems d ins).map (fun p => .atomic ring seq (num d 16 1) (num d 17 1) (sext 16 (num d 20 2)) p.1 p.2)

/-- Commit an ATOMIC: its elements are applied in ascending order, and forwarded in that order while the partner takes them: in PAIRED, and at a
joiner that acts as a requester (R270, R448). -/
def commitAtomic (c : RunCmd) (ins : List Byte) (e : Eng) : Eng :=
  let d := c.desc
  let op := num d 16 1
  let ty := num d 17 1
  let ex := sext 16 (num d 20 2)
  let xs := atomElems d ins
  let e := xs.foldl (fun e p => applyAtom op ty ex p.1 p.2 e) e
  if e.rg.state = .paired ∨ joinerActs e then
    sendRidge (.forward (atomItems c.ring c.seq d ins)) (setWork c.id (.atomic xs.length) e)
  else finishAtomic c e

/-- The partner applied elements of commands; a command with none outstanding completes (R270). -/
def atomsAcked (ks : List FwdKey) (e : Eng) : Eng :=
  e.hl.cmds.foldl (fun e c =>
    match c.work with
    | .atomic n =>
      let k := ks.countP (fun x => x == .atomic c.ring c.seq)
      if n ≤ k then finishAtomic c e else if k = 0 then e else setWork c.id (.atomic (n - k)) e
    | _ => e) e

/-- A member alone: what it has applied counts as applied (R449). -/
def atomsAlone (e : Eng) : Eng :=
  e.hl.cmds.foldl (fun e c => match c.work with | .atomic _ => finishAtomic c e | _ => e) e

end Sys2Proof.Machine
end

