-- ==== Sys2Proof/Machine/Close.lean ====
section
/-! DEFINITION. The close of a step at an owning member, items 1 to 6 of R27: overflow and restep (R176, R177), row
writes (R155 to R157), the optimiser (R170, R174), migrations (R119), the thatch refresh (R112 to R116), and the
close-complete state. -/

namespace Sys2Proof.Machine

/-! ## When a close may begin (R27, R436, R455) -/

/-- The step this member closes next: the one after the last closed, or with none on record the lowest step that has
every fence. -/
def nextClose (e : Eng) : Option Nat :=
  match e.steps.lastClosed with
  | some c => some (c + 1)
  | none => (sortNat (nub ((e.steps.fences.map (·.step)).filter (fun s => fencesIn e s 0 none)))).head?

/-- The partner has reported that it completed the close before step `s` (R436). -/
def partnerClosed (e : Eng) (s : Nat) : Bool :=
  match e.steps.lastClosed, e.rg.partner with
  | none, _ => true
  | some _, some p => (match p.lastClosed with | some c => decide (s ≤ c + 1) | none => false)
  | some _, none => false

/-- A replacement row of a step up to `s` was forwarded here and waits: the close waits for it (R125 item 4). -/
def replacesWait (e : Eng) (s : Nat) : Bool :=
  e.steps.heldForwards.any (fun f => match f with
    | .entry n x => x.kind == 5 && decide (n ≤ s)
    | .replace n _ => decide (n ≤ s)
    | .atomic _ _ _ _ _ _ _ => false)

/-- The member may begin its close of step `s`: no repair of a granule is under way, and every forwarded replacement row is applied. -/
def canClose (e : Eng) (s : Nat) : Bool :=
  serving e && e.steps.closing.isNone && e.store.regrain.isEmpty && !replacesWait e s && fencesIn e s 0 none && lookupsRetired e s && !e.rg.standDown &&
    !linkHeld e && (e.rg.state != .paired || partnerClosed e s)

/-! ## Item 1: overflow (R176, R177) -/

/-- Change the close in progress. -/
def setClosing (f : Closing → Closing) (e : Eng) : Eng :=
  { e with steps := { e.steps with closing := e.steps.closing.map f } }

/-- A staged row cleared for the next round: an overflow raises its exponent, an error leaves it (R175, R176 order 1). -/
def clearRow (k : Nat) (r : StagedRow) : StagedRow :=
  { r with round := k + 1, sums := r.sums.map (fun _ => 0), count := 0, marked := false, bad := false, lost := false
           lift := if r.lost then r.lift else r.lift + 1 }

/-- Send one restep request to every job member (R176 item 2). -/
def sendRestep (step t k : Nat) (e : Eng) : Eng :=
  (jobMembers e (confAt e step)).foldl (fun e m =>
    if m = e.fb.node then opRestep e.fb.node step t k e else sendPacket m step (.restep t k) false e) e

/-- This member speaks for the pair: the even member, or the one in SOLO (R176, R439). -/
def speaks (e : Eng) : Bool := e.fb.node % 2 == 0 || e.rg.state == .solo

/-- A staged row of round `k` is run again: it overflowed, its sums are lost, or the partner's copy of it stands in the next round already. -/
def runsAgain (t k : Nat) (r : StagedRow) : Bool :=
  r.table == t && ((r.round == k && (r.lost || overflowed r)) || r.round == k + 1)

/-- Check the rows of a table that stand in round `k`: none runs again, or those that do go to round k + 1, or the table fails (R175 to
R177). -/
def checkTable (step t k : Nat) (e : Eng) : Eng :=
  let again := e.steps.staging.filter (runsAgain t k)
  let past := again.filter (fun r => !r.lost)
  if again.isEmpty then e
  else
    let e := count Ctr.upOverflowRows past.length e
    if k = 2 then failTable step t (if past.isEmpty then 6 else 1) e
    else if past.any (fun r => r.round == k && decide (104 < rowExp e r + 8)) then failTable step t 2 e
    else
      let clear := fun (r : StagedRow) => if runsAgain t k r && r.round == k then clearRow k r else r
      let e := { e with steps := { e.steps with staging := e.steps.staging.map clear } }
      let e := setClosing (fun c => { c with waitRound := c.waitRound ++ [(t, k + 1)] }) (count Ctr.upResteps 1 e)
      let e := raiseEvent { kind := Kind.gradRestep, step := some step, table := t, arg1 := k + 1 } e
      if speaks e then sendRestep step t (k + 1) e else e

/-- The close takes sums of a table's rows from the partner. -/
def waitsSums (e : Eng) (t : Nat) : Bool :=
  match e.steps.closing with
  | some k => k.waitSums.any (fun w => w.1 == t)
  | none => false

/-- Change a staged row of the step in progress. -/
def setStagedRow (t row : Nat) (f : StagedRow → StagedRow) (e : Eng) : Eng :=
  { e with steps := { e.steps with staging := e.steps.staging.map (fun r => if r.table = t ∧ r.row = row then f r else r) } }

/-- A row's staged sums are asked of the partner; alone they are lost, and the row is run again (R175). Log 99. -/
def askSums (step : Nat) (e : Eng) (r : StagedRow) : Eng :=
  if e.rg.state = .paired then
    sendRidge (.repair { kind := .staging, table := r.table, row := r.row, step, version := r.round })
      (setClosing (fun c => { c with waitSums := c.waitSums ++ [(r.table, r.row)] }) e)
  else setStagedRow r.table r.row (fun x => { x with lost := true }) e

/-- Check a table whose check is due: at once in round 0, later once the fences of the round are in; sums in which an error stands are
recovered first, and the check waits for them; a table that failed is forgotten (R175, R176 order 5). -/
def checkRound (step : Nat) (e : Eng) (w : Nat × Nat) : Eng :=
  let gone := setClosing (fun c => { c with waitRound := c.waitRound.filter (fun x => x != w) })
  if tableFailed e step w.1 then gone e
  else if waitsSums e w.1 then e
  else if w.2 = 0 ∨ fencesIn e step w.2 (some w.1) then
    let e := (e.steps.staging.filter (fun r => r.table == w.1 && r.round == w.2 && r.bad && !r.lost)).foldl (askSums step) e
    if waitsSums e w.1 then e else checkTable step w.1 w.2 (gone e)
  else e

/-- A parity or residue error stands in a staged row: it is recovered when the close checks the row (R175). -/
def opStagedError (t row : Nat) (e : Eng) : Eng := setStagedRow t row (fun r => { r with bad := true }) e

/-! ## Writing rows -/

/-- The slot of a row as it stands is lost: its format field is 0 (R174). -/
def rowIsLost (e : Eng) (t : TD) (row : Nat) : Bool :=
  match rowLoc e t row with
  | some l => slotFormat (slotAt e l) == 0
  | none => false

/-- The format a row's class gives it now, or that of initial_class where it has none (R155). -/
def rowFmt (e : Eng) (t : TD) (row : Nat) : Nat :=
  if !t.indirect then t.directFmt
  else match rowLoc e t row with
    | some l => if rowIsLost e t row then t.fmtOf t.init else l.fmt
    | none => t.fmtOf t.init

/-- The row_version of a row rewritten in place (R44). -/
def rowVersion (e : Eng) (t : TD) (row : Nat) : Nat := if t.indirect then (parseEntry (readEntry e t row)).version else 0

/-- Put a slot where the row's slot lies; an entry that names another format follows it. -/
def rewriteRow (t : TD) (row : Nat) (l : Loc) (slot : List Byte) (e : Eng) : Eng :=
  let e := writeSlotAt l.channel l.offset slot e
  if t.indirect ∧ l.fmt ≠ slotFormat slot then
    let a := { parseEntry (readEntry e t row) with fmt := slotFormat slot }
    writeEntry t row (a.word (placeId e t.id) row) e
  else e

/-- Write a row's new slot: in place where its size is unchanged, else in a new slot. None where none can be allocated. -/
def putRow (t : TD) (row : Nat) (l : Loc) (slot : List Byte) (e : Eng) : Option Eng :=
  if !t.indirect || l.units * 32 = slot.length then some (rewriteRow t row l slot e)
  else
    let v := (l.version + 1) % 256
    moveRow t row (withVersion v slot) v (some l) (decide (l.units * 32 < slot.length)) e

/-- Raise ROW_LOST and count it (R174). -/
def noteLost (c : Conf) (step : Nat) (t : TD) (row : Nat) (e : Eng) : Eng :=
  raiseEvent { kind := Kind.rowLost, step := some step, table := t.id, row := globalRow c t (ownPair e) row }
    (count Ctr.upRowsLost 1 e)

/-- A row whose entry fails and that no partner supplies: the entries of its failed granule, or its own, are written with VALID clear (R45). -/
def voidRow (c : Conf) (t : TD) (row : Nat) (e : Eng) : Eng :=
  if !t.indirect then e
  else if entryBroken e t row then voidGranule c t row e
  else
    let a := parseEntry (readEntry e t row)
    voidEntry t row a.version a.fmt e

/-- A row that neither member can supply is written lost (R174 item 3); one whose entry fails has no slot to write (R45). -/
def loseRow (c : Conf) (step : Nat) (t : TD) (row : Nat) (e : Eng) : Eng :=
  let e := match rowLoc e t row with
    | some l => writeSlotAt l.channel l.offset (lostSlot t (if t.indirect then l.fmt else t.directFmt) l.version) e
    | none => voidRow c t row e
  noteLost c step t row (noteWritten step t.id row e)

/-- A state slot that neither member can supply is written in initial state (R174 item 3). -/
def loseState (c : Conf) (step : Nat) (t : TD) (row : Nat) (e : Eng) : Eng :=
  raiseEvent { kind := Kind.stateLost, step := some step, table := t.id, row := globalRow c t (ownPair e) row }
    (count Ctr.upRowsLost 1 (noteWritten step t.id row (resetState c t row e)))

/-- The close waits for the partner's finished copy of a row. -/
def waitsRow (e : Eng) (t row : Nat) : Bool :=
  match e.steps.closing with
  | some k => k.waitRows.contains (t, row)
  | none => false

/-- Ask the partner for its finished copy of a row and its state (R174 item 2). -/
def askFinished (step : Nat) (t : TD) (e : Eng) (row : Nat) : Eng :=
  if waitsRow e t.id row then e
  else sendRidge (.repair { kind := .closeRow, table := t.id, row, step, version := rowVersion e t row })
    (setClosing (fun k => { k with waitRows := k.waitRows ++ [(t.id, row)] }) e)

/-- Where an entry fails, the rows of its granule are asked of the partner, to be placed anew (R45, R174). -/
def askGranule (c : Conf) (step : Nat) (t : TD) (row : Nat) (e : Eng) : Eng :=
  let r := regrainRows c t step row (entryBroken e t row) e
  (row :: r.1).foldl (askFinished step t) r.2

/-- A row or state that a close cannot read: the partner's finished copy is asked for, or alone the row is lost (R174). -/
def missingRow (c : Conf) (step : Nat) (t : TD) (row : Nat) (e : Eng) : Eng :=
  if e.rg.state != .paired then loseRow c step t row e
  else if (rowLoc e t row).isNone then askGranule c step t row e
  else askFinished step t e row

/-! ## Item 2: row writes (R155, R157) -/

/-- Entries in settling-queue key order: source node, then per-source sequence (R113, R157). -/
def keyLe (a b : Entry) : Bool := decide (a.srcNode < b.srcNode) || (a.srcNode == b.srcNode && decide (a.srcSeq ≤ b.srcSeq))

/-- Put an entry in its place. -/
def insertKey (x : Entry) : List Entry → List Entry
  | [] => [x]
  | y :: t => if keyLe x y then x :: y :: t else y :: insertKey x t

/-- Entries of a kind in the step's write journal, in key order. -/
def journalOfKind (e : Eng) (step kind : Nat) : List Entry :=
  (((e.steps.writeJournal.filter (fun p => p.1 == step && p.2.kind == kind)).map (·.2)).foldr insertKey [])

/-- A replacement by the same source, later in its sequence, supersedes the write (R157). -/
def superseded (e : Eng) (step : Nat) (x : Entry) : Bool :=
  e.steps.replaced.any (fun r => r.1 == step && r.2.1 == x.table && r.2.2.1 == x.row && r.2.2.2.1 == x.srcNode &&
    decide (x.srcSeq < r.2.2.2.2))

/-- The values of a row write in the table's stored basis (R155). -/
def writeValues (c : Conf) (t : TD) (d : List Byte) : N (List FV) := do
  match num d 0 1 with
  | 2 => return slotValues c t (d.drop 8)
  | f =>
    let v := suppliedFloats f (slice d 8 (if f = 0 then 4 * t.dim else 2 * t.dim))
    if t.rotated then rotate t.group v else return v

/-- One ROW_WRITE row into the row's slot (R155). -/
def putWrite (c : Conf) (step : Nat) (t : TD) (x : Entry) (l : Loc) (e : Eng) : Eng :=
  let e := if bit (num x.data 1 1) 0 then resetState c t x.row e else e
  let r := tallied (do
    let v ← writeValues c t x.data
    encodeRow c t (rowFmt e t x.row) (rowVersion e t x.row) v) e
  match putRow t x.row l r.1 r.2 with
  | some e => noteWritten step t.id x.row (counts [(Ctr.upRowWrites, 1), (Ctr.ctJobRowWrites, 1)] e)
  | none => count Ctr.alMigrateSkipped 1 r.2

/-- Apply one ROW_WRITE row (R155, R157). A row whose entry fails is the partner's finished row, which carries the write; alone its entry is
written with VALID clear and only a TABLE_REPLACE gives it a slot (R45). Log 140. -/
def applyWrite (c : Conf) (step : Nat) (e : Eng) (x : Entry) : Eng :=
  match tdIn c x.table with
  | none => e
  | some t =>
    if superseded e step x || waitsRow e t.id x.row then e
    else
      let r := seekRow t x.row e
      match r.1 with
      | some l => putWrite c step t x l r.2
      | none => if e.rg.state = .paired then askGranule c step t x.row r.2 else voidRow c t x.row r.2

/-! ## Item 3: the optimiser (R164, R170, R174) -/

/-- One optimiser run on a row whose slot and state are readable. -/
def updateRow (c : Conf) (step : Nat) (lr : FV) (t : TD) (r : StagedRow) (slot : List Byte) (e : Eng) : Eng :=
  let p := t.profile' c
  let st := stateOf e t p r.row
  let ver := rowVersion e t r.row
  let q := tallied (do
    let g ← rowGrad t (rowExp e r) r.sums
    let w ← mapN rnd32 (slotValues c t slot)
    let o ← optimise p lr t.dim g w (decodeState t p.kind st)
    let s ← encodeRow c t (slotFormat slot) ver o.1
    let b ← encodeState t p.kind o.2
    return (s, b)) e
  let e := stackBytes st.length (count Ctr.upRowsTouched 1 q.2)
  let e := if st.isEmpty then e else setState t.id r.row q.1.2 e
  match rowLoc e t r.row with
  | some l => noteWritten step t.id r.row (rewriteRow t r.row l q.1.1 e)
  | none => e

/-- Item 3 for one staged row: its slot and state are read, and one that fails goes the way of R174. -/
def touchRow (c : Conf) (step : Nat) (lr : FV) (e : Eng) (r : StagedRow) : Eng :=
  match tdIn c r.table with
  | none => e
  | some t =>
    if tableFailed e step t.id || waitsRow e t.id r.row then e
    else
      let q := fetchRow t r.row e
      match q.1 with
      | none => missingRow c step t r.row q.2
      | some slot =>
        if stateGood (stateOf q.2 t (t.profile' c) r.row) then updateRow c step lr t r slot q.2
        else if q.2.rg.state = .paired then askFinished step t q.2 r.row
        else updateRow c step lr t r slot (loseState c step t r.row q.2)

/-- lr_scale of a step: that of its fences. -/
def stepLr (e : Eng) (step : Nat) : FV :=
  match e.steps.fences.find? (fun f => f.step == step && f.round == 0) with
  | some f => ofWord f.lr
  | none => .zero

/-! ## Item 4: migrations (R119, R120) -/

/-- Move one row to a class, if it has values and is not there already; the second part is the die that lacked heap. -/
def migrateRow (c : Conf) (step : Nat) (x : Entry) (e : Eng) : Eng × Option Nat :=
  match tdIn c x.table with
  | none => (e, none)
  | some t =>
    let q := fetchRow t x.row e
    match rowLoc q.2 t x.row, q.1 with
    | some l, some slot =>
      let fmt := t.fmtOf (num x.data 0 1)
      if l.fmt = fmt then (count Ctr.alMigrateNoop 1 q.2, none)
      else
        let v := (l.version + 1) % 256
        let r := tallied (encodeRow c t fmt v (slotValues c t slot)) q.2
        match moveRow t x.row r.1 v (some l) (decide (l.units * 32 < r.1.length)) r.2 with
        | some e =>
          let e := noteWritten step t.id x.row (count Ctr.alMigrated 1 e)
          ({ e with steps := { e.steps with moved := (x.srcNode, x.srcSeq) :: e.steps.moved } }, none)
        | none => (count Ctr.alMigrateSkipped 1 r.2, some (homeDie e t x.row))
    | _, _ => (q.2, none)

/-- Migration requests in key order, each with whether a later one of its row follows. -/
def markLast : List Entry → List (Entry × Bool)
  | [] => []
  | x :: t => (x, !t.any (fun y => y.table == x.table && y.row == x.row)) :: markLast t

/-- The migration requests of a step that are performed: the last of each row. -/
def lastMigrations (e : Eng) (step : Nat) : List Entry := ((markLast (journalOfKind e step 4)).filter (·.2)).map (·.1)

/-- Item 4: only the last request of a row is performed; one HEAP_LOW is raised for the close. -/
def closeMigrations (step : Nat) (e : Eng) : Eng :=
  let c := confAt e step
  let xs := lastMigrations e step
  let e := { e with steps := { e.steps with moved := [] } }
  let e := count Ctr.alMigrateSuperseded ((journalOfKind e step 4).length - xs.length) e
  let r := xs.foldl (fun (a : Eng × Option Nat) x =>
    let q := migrateRow c step x a.1
    (q.1, a.2.or q.2)) (e, none)
  match r.2 with
  | some d => raiseEvent { kind := Kind.heapLow, step := some step, arg1 := d } r.1
  | none => r.1

/-! ## Item 5: the thatch refresh (R106, R112 to R116) -/

/-- A hot set as entries change it, and the REPLACE load in progress: its source, command, interval, factors and rows. -/
structure HotAcc where
  set : Option HotSet
  load : Option (Nat × Option Nat × Nat × Nat × List Nat)
  deriving DecidableEq, Repr

/-- Apply one hot-set entry (R112, R113). REPLACE entries of one command are one load; where no command is known, consecutive ones of one
source, interval and factors that repeat no row are. Log 35. An entry that names no row changes the set of a pair that owns no listed row. Log 126. -/
def hotEntry (a : HotAcc) (x : Entry) : HotAcc :=
  let iv := num x.data 1 1
  let fs := num x.data 2 1
  let since := (a.set.map (·.since)).getD 0
  let rows := (a.set.map (·.rows)).getD []
  match num x.data 0 1 with
  | 2 => { set := none, load := none }
  | 1 =>
    if x.row = noRow then { set := a.set.map (fun h => { h with factors := factorsOf fs, interval := iv }), load := none } else
    { set := some { rows := if rows.contains x.row then rows else rows ++ [x.row], factors := factorsOf fs, interval := iv, since }
      load := none }
  | _ =>
    if x.row = noRow then { set := none, load := none } else
    let new : HotAcc :=
      { set := some { rows := [x.row], factors := factorsOf fs, interval := iv, since }, load := some (x.srcNode, x.cmd, iv, fs, [x.row]) }
    match a.load with
    | some (s, c, i, f, l) =>
      if s = x.srcNode ∧ c = x.cmd ∧ i = iv ∧ f = fs ∧ !l.contains x.row then
        { set := some { rows := rows ++ [x.row], factors := factorsOf fs, interval := iv, since }, load := some (s, c, i, f, l ++ [x.row]) }
      else new
    | none => new

/-- The hot set of a table after the step's entries. -/
def hotAfter (e : Eng) (step t : Nat) : Option HotSet :=
  ((((journalOfKind e step 3).filter (fun x => x.table == t))).foldl hotEntry { set := Tab.find? e.store.hotSets t, load := none }).set

/-- An entry of the step names the table's refresh (R116, R117). -/
def refreshNamed (e : Eng) (step t : Nat) : Bool :=
  e.steps.writeJournal.any (fun p => p.1 == step &&
    ((p.2.kind == 3 && p.2.table == t) || (p.2.kind == 6 && (p.2.table == t || p.2.table == 0xFFFF))))

/-- Every die of a row's replicas has room for it (R114). -/
def replicasFit (e : Eng) (h f size : Nat) : Bool :=
  (List.range f).all (fun k => decide (thatchUsed e ((h + k) % e.variant.msDies) + size + 16 ≤ thatchBytes e))

/-- Admit one hot-set row: its replicas are written, or it is counted as dropped (R106, R114, R116). The spec names no check of a factor above
this engine's own largest, which a requester of a larger configuration may send: all f replicas are written, some on one die. Log 136. -/
def admitRow (t : TD) (h : HotSet) (a : Eng × Nat) (row : Nat) : Eng × Nat :=
  let q := fetchRow t row a.1
  let e := q.2
  match q.1 with
  | none => (e, a.2 + 1)
  | some slot =>
    let f := nth h.factors (classOf (slotFormat slot))
    let d := homeDie e t row
    if replicasFit e d f slot.length then
      let rs := (List.range f).map (fun k =>
        ({ table := t.id, row, k, die := (d + k) % e.variant.msDies, slot, version := slotVersion slot, valid := true } : Replica))
      ({ e with store := { e.store with replicas := e.store.replicas ++ rs } }, a.2)
    else (e, a.2 + 1)

/-- Refresh one table: its replicas are rewritten from the home slots. The second part counts rows not admitted. -/
def refreshTable (c : Conf) (t : Nat) (a : Eng × Nat) : Eng × Nat :=
  match tdIn c t, Tab.find? a.1.store.hotSets t with
  | some td, some h =>
    let e := { a.1 with store := { a.1.store with
      hotSets := Tab.set a.1.store.hotSets t { h with since := 0 }
      dirty := a.1.store.dirty.filter (fun p => p.1 != t) } }
    h.rows.foldl (admitRow td h) (count Ctr.thRefreshes 1 e, a.2)
  | _, _ => a

/-- Refresh several tables, in ascending table ID, their old replicas freed first (R114). -/
def refreshTables (c : Conf) (step : Nat) (ts : List Nat) (e : Eng) : Eng :=
  let e := { e with store := { e.store with replicas := e.store.replicas.filter (fun r => !ts.contains r.table) } }
  let r := ts.foldl (fun a t => refreshTable c t a) (e, 0)
  let e := count Ctr.thRowsDropped r.2 r.1
  if 0 < r.2 then raiseEvent { kind := Kind.thatchFull, step := some step } e else e

/-- The hot sets after a step's entries, with the replicas of tables left without one freed (R112). -/
def setHotSets (step : Nat) (e : Eng) : Eng :=
  (nub ((journalOfKind e step 3).map (·.table))).foldl (fun e t =>
    match hotAfter e step t with
    | some h => { e with store := { e.store with hotSets := Tab.set e.store.hotSets t h } }
    | none => { e with store := { e.store with
        hotSets := Tab.erase e.store.hotSets t, replicas := e.store.replicas.filter (fun r => r.table != t) } }) e

/-- The tables whose refresh is due at a close, with their hot sets (R116). -/
def dueTables (e : Eng) (step : Nat) : Tab HotSet :=
  (setHotSets step e).store.hotSets.filter (fun p => decide (p.2.interval ≤ p.2.since + 1) || refreshNamed e step p.1)

/-- Item 5. Only the tables that are due are admitted anew. Log 36. -/
def closeRefresh (step : Nat) (e : Eng) : Eng :=
  let ts := sortNat ((dueTables e step).map (·.1))
  let e := setHotSets step e
  let e := { e with store := { e.store with hotSets := e.store.hotSets.map (fun p => (p.1, { p.2 with since := p.2.since + 1 })) } }
  refreshTables (confAt e step) step ts (trimCaches e)

/-- A forced refresh of every table (R109). -/
def forcedRefresh (e : Eng) : Eng :=
  let c := confAt e ((e.steps.lastClosed.getD 0) + 1)
  refreshTables c (e.steps.lastClosed.getD 0) (sortNat (e.store.hotSets.map (·.1))) e

/-! ## Items 2 and 3 -/

/-- The rows that items 4 and 5 will read: those to be moved, and the hot sets that are due. -/
def laterRows (e : Eng) (step : Nat) : List (Nat × Nat) :=
  (lastMigrations e step).map (fun x => (x.table, x.row)) ++ (dueTables e step).flatMap (fun p => p.2.rows.map (fun i => (p.1, i)))

/-- A row has no slot until a TABLE_REPLACE gives it one: its entry has VALID clear and a right check (R45). -/
def rowVoid (e : Eng) (t : TD) (row : Nat) : Bool := t.indirect && !bit (readEntry e t row) 55 && !entryBroken e t row

/-- A row that items 4 and 5 will read is recovered as R174 says, but for one that is known to be lost. -/
def recoverRow (c : Conf) (step : Nat) (e : Eng) (k : Nat × Nat) : Eng :=
  match tdIn c k.1 with
  | none => e
  | some t =>
    if waitsRow e t.id k.2 || (readRow e t k.2).isSome || rowIsLost e t k.2 || rowVoid e t k.2 then e
    else missingRow c step t k.2 (fetchRow t k.2 e).2

/-- Items 2 and 3; and the rows that items 4 and 5 will read and that fail are asked for. -/
def closeRows (step : Nat) (e : Eng) : Eng :=
  let c := confAt e step
  let e := (journalOfKind e step 2).foldl (applyWrite c step) e
  let e := e.steps.staging.foldl (touchRow c step (stepLr e step)) e
  setClosing (fun k => { k with rowsDone := true }) ((laterRows e step).foldl (recoverRow c step) e)

/-! ## Item 6 and what follows it -/

/-- UNDERFLOW_WARN for the tables above the threshold (R178). -/
def warnUnderflow (step : Nat) (e : Eng) : Eng :=
  let lim := e.setup.underflowThresh.toNat
  let e' := e.steps.underflow.foldl (fun e p =>
    if lim ≠ 0 ∧ lim < p.2 then raiseEvent { kind := Kind.underflowWarn, step := some step, table := p.1, arg0 := p.2 } e else e) e
  { e' with steps := { e'.steps with underflow := [] } }

/-- The gradient exponent of a table after a step (R160). -/
def nextExp (e : Eng) (step t : Nat) : Int :=
  let ms := (e.steps.fences.filter (fun f => f.step == step && f.round == 0)).flatMap (fun f =>
    (f.tables.filter (fun x => x.1 == t)).map (·.2))
  let x := expOf e t
  let x := match ms with
    | [] => x
    | m :: l => max (l.foldl max m + 1) (x - 2)
  min (max x (-149)) 104

/-- Every table's exponent is updated from the step's fences (R160). -/
def updateExps (step : Nat) (e : Eng) : Eng :=
  { e with steps := { e.steps with exps := (confAt e step).tables.foldl (fun x p => Tab.set x p.1 (nextExp e step p.1)) e.steps.exps } }

/-- The record of a STEP_CLOSE (R141, R181). -/
def closeRec (e : Eng) (step : Nat) : Rec :=
  let fs := e.steps.failed.filter (fun f => f.1 == step)
  match sortNat (nub (fs.map (fun f => f.2.1))) with
  | [] => {}
  | t :: ts =>
    { status := Status.updateStepFailed, errTable := t, count := ts.length + 1
      detail := ((fs.find? (fun f => f.2.1 == t)).map (fun f => f.2.2)).getD 0 }

/-- STEP_CLOSE commands of a step complete (R27, R141). -/
def completeClose (step : Nat) (e : Eng) : Eng :=
  let r := closeRec e step
  e.hl.cmds.foldl (fun e c => if c.work = .stepClose step then releaseJournal c (finish c.id r e) else e) e

/-- A hot-set entry's row is admitted, and no earlier entry of its command lists it (R112, R115). -/
def admittedHere (e : Eng) (step : Nat) (x : Entry) : Bool :=
  e.store.replicas.any (fun r => r.table == x.table && r.row == x.row) &&
    !(journalOfKind e step 3).any (fun y => y.srcNode == x.srcNode && y.cmd == x.cmd && y.table == x.table && y.row == x.row &&
      decide (y.srcSeq < x.srcSeq))

/-- The src_seqs of a source's entries that this close admitted or moved (R115, R119). -/
def tookRows (e : Eng) (step src : Nat) : List Nat :=
  (e.steps.moved.filter (fun m => m.1 == src)).map (·.2) ++
    ((journalOfKind e step 3).filter (fun x => x.srcNode == src && x.row != noRow && admittedHere e step x)).map (·.srcSeq)

/-- Tell every source of entries that the pair has settled the step (R439). -/
def sendSettled (step : Nat) (e : Eng) : Eng :=
  if !speaks e then e
  else
    let srcs := sortNat (nub ((e.steps.seen.filter (fun k => k.step == step)).map (·.src)))
    srcs.foldl (fun e n =>
      let took := some (tookRows e step n)
      if n = e.fb.node then settlePair step (ownPair e) took e
      else sendPacket n step (.recordAck { step, round := 0, settled := true, ranges := [], took }) false e) e

/-- Forget what belonged to a closed step. -/
def dropStep (step : Nat) (e : Eng) : Eng :=
  { e with
    steps := { e.steps with
      lastClosed := some step, closing := none, staging := []
      fences := e.steps.fences.filter (fun f => decide (step < f.step))
      sentMax := e.steps.sentMax.filter (fun m => decide (step ≤ m.1))
      seen := e.steps.seen.filter (fun k => decide (step < k.step))
      writeJournal := e.steps.writeJournal.filter (fun p => decide (step < p.1))
      failed := e.steps.failed.filter (fun f => decide (step < f.1))
      replaced := e.steps.replaced.filter (fun r => decide (step < r.1))
      replStopped := e.steps.replStopped.filter (fun r => decide (step < r.1)) }
    rg := { e.rg with soloJournal := e.rg.soloJournal.filter (fun p => decide (step < p.1)) } }

/-- Answer to a closeRow request: the finished row and state, or that this copy fails too (R174 item 2). -/
def closeRowData (r : RepairReq) (e : Eng) : RepairData × Eng :=
  match tdAt e r.step r.table with
  | none => (.unavailable, e)
  | some t =>
    if waitsRow e r.table r.row then (.unavailable, e)
    else
      let q := fetchRow t r.row e
      let st := stateOf e t (t.profile' (confAt e r.step)) r.row
      match q.1 with
      | some s => if stateGood st then (.rowState s st, q.2) else (.unavailable, q.2)
      | none => (.unavailable, q.2)

/-- Answer one closeRow request. -/
def answerFinished (r : RepairReq) (e : Eng) : Eng :=
  let d := closeRowData r e
  sendRidge (.repairReply r d.1) d.2

/-- Items 2 and 3 of a step are complete at this member. -/
def rowsFinished (e : Eng) (step : Nat) : Bool :=
  stepClosed e step || (match e.steps.closing with | some k => k.step == step && k.rowsDone | none => false)

/-- Answer the partner's requests that waited for item 3. -/
def answerRepairs (e : Eng) : Eng :=
  let rs := e.rg.heldRepairs
  rs.foldl (fun e r =>
    if rowsFinished e r.step then answerFinished r e
    else { e with rg := { e.rg with heldRepairs := e.rg.heldRepairs ++ [r] } }) { e with rg := { e.rg with heldRepairs := [] } }

/-- A forwarded item that waited is taken in, and acknowledged, or waits on. -/
def takeHeldForward (e : Eng) (f : FwdItem) : Eng :=
  if forwardWaits e f then { e with steps := { e.steps with heldForwards := e.steps.heldForwards ++ [f] } }
  else match f with
    | .entry s x =>
      let e := takeForward s x e
      if e.rg.state = .paired then sendRidge (.forwardAck [.entry (keyOf s x)]) e else e
    | .replace s x => takeReplaceForward s x e
    | .atomic _ _ _ _ _ _ _ => e

/-- Forwarded items that waited are taken in. -/
def takeHeldForwards (e : Eng) : Eng :=
  e.steps.heldForwards.foldl takeHeldForward { e with steps := { e.steps with heldForwards := [] } }

/-- What waited for a restep round or for this member's close is taken in (R125, R176). -/
def admitHeldEntries (e : Eng) : Eng := admitEntries (takeHeldForwards e)

/-- Items 4 to 6: the close completes. -/
def closeEnd (step : Nat) (e : Eng) : Eng :=
  let e := updateExps step (warnUnderflow step (closeRefresh step (closeMigrations step e)))
  let e := sendSettled step (completeClose step e)
  let e := dropStep step (count Ctr.ctJobSteps 1 e)
  answerRepairs (admitHeldEntries (admitHeld (drainAll (closeConf step e))))

/-- Go on with a close, as far as it can go (R27). -/
def closeGo (e : Eng) : Eng :=
  match e.steps.closing with
  | none => e
  | some k =>
    let e := admitHeldEntries (k.waitRound.foldl (checkRound k.step) e)
    match e.steps.closing with
    | none => e
    | some k =>
      if !k.waitRound.isEmpty then e
      else
        let e := if k.rowsDone then e else answerRepairs (closeRows k.step e)
        match e.steps.closing with
        | some k => if k.waitRows.isEmpty && coreRuns e 4 then closeEnd k.step e else e
        | none => e

/-- Every step-s fence carries one lr_scale (R140). -/
def lrAgree (e : Eng) (step : Nat) : Bool :=
  let ls := (e.steps.fences.filter (fun f => f.step == step && f.round == 0)).map (·.lr)
  decide ((nub ls).length ≤ 1)

/-- Tables of a configuration with a shard at this pair. -/
def ownTables (e : Eng) (c : Conf) : List Nat :=
  (c.tables.map (·.1)).filter (fun t => !(shardsOwned c t (ownPair e)).isEmpty)

/-- The close of step `s` begins: the heap reserve latched, pending lists emptied, damaged directories rebuilt, and every
table checked for overflow (R121, R122, R133, R140, R176). -/
def closeBegin (s : Nat) (e : Eng) : Eng :=
  let e := drainAll { e with store := { e.store with reserveNow := e.store.heapReserveMib } }
  let e := e.store.rebuild.foldl (fun e d => rebuildHeap d e) e
  let c := confAt e s
  let ts := (sortNat (nub (e.steps.staging.map (·.table)))).map (fun t => (t, 0))
  let e := { e with steps := { e.steps with closing := some { step := s, waitRound := ts, waitRows := [], rowsDone := false } } }
  if lrAgree e s then e else (ownTables e c).foldl (fun e t => failTable s t 5 e) e

/-- STEP_CLOSE_BEGIN: the next close begins, if it may (R27). -/
def opStepCloseBegin (e : Eng) : Eng :=
  closeGo (match nextClose e with
    | some s => if canClose e s then closeBegin s e else e
    | none => e)

/-! ## The partner's copy of a row (R174) -/

/-- The close no longer waits for a row. -/
def rowIn (t row : Nat) (e : Eng) : Eng := setClosing (fun k => { k with waitRows := k.waitRows.filter (fun w => w != (t, row)) }) e

/-- The close needs a row's values: the row is touched, moved, or copied into the thatch. -/
def rowNeeded (e : Eng) (step t row : Nat) : Bool :=
  e.steps.staging.any (fun r => r.table == t && r.row == row) || (laterRows e step).contains (t, row)

/-- A row that the partner cannot supply either: a lost state slot is written anew and the row runs its optimiser, a row that is needed is
lost, and the entry of another is written with VALID clear (R45, R174 item 3). -/
def rowUnsupplied (c : Conf) (step : Nat) (t : TD) (row : Nat) (e : Eng) : Eng :=
  let anew := regrains e t.id row
  let e := regrained t.id row e
  if anew then
    let e := voidEntry t row 0 0 e
    if rowNeeded e step t.id row then noteLost c step t row (noteWritten step t.id row e) else e
  else
    let q := fetchRow t row e
    match q.1, e.steps.staging.find? (fun r => r.table == t.id && r.row == row) with
    | some slot, some r => updateRow c step (stepLr e step) t r slot (loseState c step t row q.2)
    | some _, none => q.2
    | none, _ => loseRow c step t row q.2

/-- The partner's finished row is written here: in place, or anew where its granule failed (R45, R174 item 2).
The row counts as repaired. Log 160. -/
def placeFinished (c : Conf) (step : Nat) (t : TD) (row : Nat) (slot st : List Byte) (e : Eng) : Eng :=
  let e := writeBack t row slot e
  let e := if st.isEmpty then e else setState t.id row st e
  let e := count Ctr.gePartnerRepair 1 (noteWritten step t.id row e)
  raiseEvent { kind := Kind.rowRepaired, table := t.id, row := globalRow c t (ownPair e) row } e

/-- The partner's answer for a row the close waits for. -/
def takeCloseRow (r : RepairReq) (d : RepairData) (e : Eng) : Eng :=
  match e.steps.closing with
  | none => e
  | some k =>
    if !k.waitRows.contains (r.table, r.row) then e
    else
      let c := confAt e k.step
      let e := rowIn r.table r.row e
      match tdIn c r.table, d with
      | some t, .rowState s st => closeGo (placeFinished c k.step t r.row s st e)
      | some t, _ => closeGo (rowUnsupplied c k.step t r.row e)
      | none, _ => closeGo e

/-- The partner's staged row arrives, or cannot be had: then the row's sums are lost (R175). Log 99. -/
def takeSums (r : RepairReq) (d : RepairData) (e : Eng) : Eng :=
  match e.steps.closing with
  | none => e
  | some k =>
    if !k.waitSums.contains (r.table, r.row) then e
    else
      let e := setClosing (fun c => { c with waitSums := c.waitSums.filter (fun w => w != (r.table, r.row)) }) e
      closeGo (match d with
        | .staged x => setStagedRow r.table r.row (fun y => { x with spilled := y.spilled, bad := false, lost := false }) e
        | _ => setStagedRow r.table r.row (fun y => { y with lost := true }) e)

/-- A member that leaves PAIRED goes on alone: what it waited for cannot be had, and an unfinished restep is asked for again
(R174 to R176). -/
def closeAlone (e : Eng) : Eng :=
  match e.steps.closing with
  | none => e
  | some k =>
    let c := confAt e k.step
    let e := k.waitSums.foldl (fun e w => setStagedRow w.1 w.2 (fun y => { y with lost := true }) e) (setClosing (fun c => { c with waitSums := [] }) e)
    let e := k.waitRows.foldl (fun e w => match tdIn c w.1 with
      | some t => rowUnsupplied c k.step t w.2 (rowIn w.1 w.2 e)
      | none => rowIn w.1 w.2 e) e
    closeGo (k.waitRound.foldl (fun e w => if w.2 = 0 then e else sendRestep k.step w.1 w.2 e) e)

end Sys2Proof.Machine
end

