-- ==== Sys2Proof/Machine/Streams.lean ====
section
/-! DEFINITION. Stream runs (chapter 09): descriptors, requests, conversion, passes and handles, halts and resumption,
double buffers and handle queues. -/

namespace Sys2Proof.Machine

/-! ## Slots, buffers, queues -/

/-- The stream slot `n`. -/
def stSlot (e : Eng) (n : Nat) : StSlot := Tab.get {} e.st.slots n

/-- Change a slot. -/
def setSlot (n : Nat) (f : StSlot → StSlot) (e : Eng) : Eng :=
  { e with st := { e.st with slots := Tab.modify {} e.st.slots n f } }

/-- Change the run of a slot. -/
def setRun (n : Nat) (f : Run → Run) (e : Eng) : Eng := setSlot n (fun s => { s with run := s.run.map f }) e

/-- A handle queue. -/
def hqueue (e : Eng) (q : Nat) : HQueue := Tab.get {} e.st.queues q

/-- Change a handle queue. -/
def setQueue (q : Nat) (f : HQueue → HQueue) (e : Eng) : Eng :=
  { e with st := { e.st with queues := Tab.modify {} e.st.queues q f } }

/-- Bytes of a buffer half (R291, R311). -/
def halfSize (e : Eng) : Nat := 2 ^ 16 * 2 ^ e.setup.bufHalf

/-- The number of buffers, n (R291). -/
def bufCount (e : Eng) : Nat := min 64 (e.variant.msDies * (e.setup.buffers * 2 ^ 25) / (2 * halfSize e))

/-- The DRAIN half of a buffer: half 1 after a reset that clears its role (R292). -/
def drainHalf (e : Eng) (b : Nat) : Nat := Tab.get 1 e.st.drainHalf b

/-- Bytes from one die's buffer area to the next in buffer memory, those of the largest area (R264). -/
def bufArea : Nat := 2 ^ 27

/-- Where a half begins in buffer memory: buffer `b` lies on die b mod m, at its place in that die's area, half 0 first (R291). -/
def halfBase (e : Eng) (b half : Nat) : Nat :=
  b % e.variant.msDies * bufArea + (2 * (b / e.variant.msDies) + half) * halfSize e

/-- The generation of a slot's current run (R277, R312). -/
def slotGen (e : Eng) (n : Nat) : Nat :=
  match (stSlot e n).run with
  | some r => r.gen.toNat
  | none => (stSlot e n).gen.toNat

/-- What err_table and err_row of a command's record carry where no table or row is named: of a STREAM the slot's generation and the slot; of a
BUF_SWAP, which has no slot, a generation that is not stated (R369). Log 147. -/
def recSlot (e : Eng) (ring : Nat) (d : Desc) : Nat × Nat :=
  match opcode d with
  | 0x30 => (slotGen e (num d 16 2), num d 16 2 % 256)
  | 0x31 => ((Config.swapGeneration ring (BitVec.ofNat 32 (num d 4 4))).toNat, 0xFFFFFFFFFF)
  | _ => (0xFFFF, 0xFFFFFFFFFF)

/-- As recSlot, of an accepted command: the generation of its own run, or of the first operand slot of an INTERACT (R369). -/
def cmdSlot (e : Eng) (c : RunCmd) : Nat × Nat :=
  match c.work with
  | .interact w => ((w.slots.head?.map (fun n => (stSlot e n).gen.toNat)).getD 0xFFFF, 0xFFFFFFFFFF)
  | _ =>
    match (e.st.slots.flatMap (fun s => s.2.run.toList ++ s.2.waiting.toList)).find? (fun r => r.cmdId == c.id) with
    | some r => (r.gen.toNat, num c.desc 16 2 % 256)
    | none => recSlot e c.ring c.desc

/-- A command completes; its record carries what R369 gives its slot. -/
def finishSlot (c : RunCmd) (r : Rec) (e : Eng) : Eng :=
  finish c.id { r with errTable := (cmdSlot e c).1, errRow := (cmdSlot e c).2 } e

/-! ## The stream descriptor (R281 to R283, R287) -/

/-- One side of a run. -/
structure Side where
  space : Nat
  sel : Nat
  node : Nat
  base : Nat
  strides : List Int
  deriving DecidableEq, Repr

/-- The source or the destination side. -/
def sdSide (d : List Byte) (dst : Bool) : Side :=
  let o := if dst then 1 else 0
  { space := num d (4 + o) 1, sel := num d (6 + o) 1, node := num d (8 + 4 * o) 4, base := num d (16 + 8 * o) 8
    strides := (List.range 5).map (fun k => sext 48 (num d (52 + 30 * o + 6 * k) 6)) }

/-- The counts of the dimensions used. -/
def sdCounts (d : List Byte) : List Nat := (List.range (min 5 (num d 1 1))).map (fun k => num d (32 + 4 * k) 4)

/-- Bytes of an element; of a float with CONVERT (R287). -/
def sdElem (d : List Byte) : Nat := if sdConv d then (if num d 112 1 = 0 then 4 else 2) else 2 ^ fld (num d 2 1) 0 2

/-- The run is chained: one of its endpoints is HANDLE (R299). -/
def sdChained (d : List Byte) : Bool := num d 4 1 == 4 || num d 5 1 == 4

/-- Counts of the dimensions within a pass. -/
def sdInner (d : List Byte) : List Nat := if sdChained d then (sdCounts d).dropLast else sdCounts d

/-- Elements of a pass. -/
def sdPass (d : List Byte) : Nat := (sdInner d).foldl (· * ·) 1

/-- Passes of a run. -/
def sdPasses (d : List Byte) : Nat := if sdChained d then (sdCounts d).getLastD 1 else 1

/-- The vector length D with CONVERT. -/
def sdDim (d : List Byte) : Nat := num d 32 4

/-- The group size with CONVERT. -/
def sdGroup (d : List Byte) : Nat := 32 * 2 ^ num d 114 1

/-- A side carries the quantised tensor. -/
def sdQuantSide (d : List Byte) (dst : Bool) : Bool := sdConv d && (dst == sdQuant d)

/-- Bytes of a data block and of a symmetric scale block (R212). -/
def splitData (dim : Nat) : Nat := align64 (8 + dim)
/-- Bytes of a scale block (R212). -/
def splitScale (asym : Bool) (dim group : Nat) : Nat := align64 (8 + (if asym then 4 else 1) * (dim / group))

/-- The element format of the quantised side. -/
def sdFmt (d : List Byte) : Elem :=
  match num d 113 1 with
  | 4 => .e4m3
  | 5 => .e5m2
  | _ => .int8

/-- The indices of an element of a pass. -/
def sdIndices : List Nat → Nat → List Nat
  | [], _ => []
  | c :: t, p => p % c :: sdIndices t (p / c)

/-- Dot product of indices and strides. -/
def sdDot (is : List Nat) (ss : List Int) : Int := (is.zip ss).foldl (fun a p => a + p.1 * p.2) 0

/-- The address of an element on a side that is not quantised; the outer stride is ignored on a HANDLE side (R299). -/
def sdAddr (d : List Byte) (dst : Bool) (k p : Nat) : Int :=
  let s := sdSide d dst
  let out : Int := if sdChained d ∧ s.space ≠ 4 then k * (s.strides.getD (num d 1 1 - 1) 0) else 0
  s.base + sdDot (sdIndices (sdInner d) p) s.strides + out

/-- The block index of an element; within its pass on a HANDLE side, where each pass starts at base (R287, R299).
Log 53. -/
def sdBlock (d : List Byte) (k p : Nat) (perPass : Bool) : Nat :=
  let i := p / max 1 (sdDim d)
  if perPass then i else i + k * (sdPass d / max 1 (sdDim d))

/-- The part of a data block that elements `i0` to `i0 + n - 1` of its vector take, as offset and bytes: the first takes the block's header along,
the last its padding (R212). Log 145. -/
def sdPart (d : List Byte) (i0 n : Nat) : Nat × Nat :=
  let a := if i0 = 0 then 0 else 8 + i0
  let b := if i0 + n = sdDim d then splitData (sdDim d) else 8 + i0 + n
  (a, b - a)

/-- Where data block `i` begins on a quantised side (R287). -/
def sdDataAt (d : List Byte) (dst : Bool) (i : Nat) : Int := (sdSide d dst).base + i * splitData (sdDim d)

/-- The spans a request of `n` elements touches on a side, as (address, bytes). On a quantised side the request of a vector's first element
carries the scale block. -/
def sdSpans (d : List Byte) (dst : Bool) (k p n : Nat) : List (Int × Nat) :=
  if sdQuantSide d dst then
    let i := sdBlock d k p ((sdSide d dst).space == 4)
    let i0 := p % sdDim d
    let x := sdPart d i0 n
    let size := splitScale false (sdDim d) (sdGroup d)
    (sdDataAt d dst i + x.1, x.2) :: if i0 = 0 then [((num d 120 8 : Int) + i * size, size)] else []
  else [(sdAddr d dst k p, n * sdElem d)]

/-- The least and greatest offset an element of a side begins at. -/
def sideExtent (s : Side) (counts : List Nat) : Int × Int :=
  (counts.zip s.strides).foldl (fun (a : Int × Int) p =>
    let x := ((p.1 : Int) - 1) * p.2
    (a.1 + min 0 x, a.2 + max 0 x)) ((s.base : Int), (s.base : Int))

/-- A BUFFER side or a chained pass lies within one half (R292, R299). -/
def sdExtentOk (e : Eng) (d : List Byte) : Bool :=
  [false, true].all (fun dst =>
    let s := sdSide d dst
    if s.space < 3 then true
    else if sdQuantSide d dst then
      let n := (if s.space = 4 then sdPass d else sdPass d * sdPasses d) / sdDim d
      decide (s.base + n * splitData (sdDim d) ≤ halfSize e) &&
        decide (num d 120 8 + n * splitScale false (sdDim d) (sdGroup d) ≤ halfSize e)
    else
      let x := sideExtent s (if s.space = 4 then sdInner d else sdCounts d)
      decide (0 ≤ x.1) && decide (x.2 + sdElem d ≤ halfSize e))

/-- An address as 64 bits. -/
def addr64 (a : Int) : Nat := (a % 2 ^ 64).toNat

/-- Where an element lies on a side, and the bytes from one element to the next there; none where that is not the size of an element. -/
def sdStep (d : List Byte) (dst : Bool) (k p : Nat) : Option (Int × Nat) :=
  if sdQuantSide d dst then some (sdDataAt d dst (sdBlock d k p ((sdSide d dst).space == 4)) + 8 + (p % sdDim d : Nat), 1)
  else if (sdSide d dst).strides.head? = some (sdElem d : Int) then some (sdAddr d dst k p, sdElem d)
  else none

/-- Elements of the request that starts at an element: consecutive ones over which both addresses advance by the element size, up to 4 KiB and
to the next 4 KiB boundary of either side (R284). Log 145. -/
def sdNext (d : List Byte) (k p : Nat) : Nat :=
  let room := fun (x : Int × Nat) => (4096 - addr64 x.1 % 4096) / x.2
  match sdStep d false k p, sdStep d true k p with
  | some a, some b =>
    max 1 (min ((sdInner d).headD 1 - (sdIndices (sdInner d) p).headD 0) (min (4096 / sdElem d) (min (room a) (room b))))
  | _, _ => 1

/-- A side's accesses use the stream share of the cache: DEVICE accesses of a CACHED run (R286). -/
def sdCached (d : List Byte) (dst : Bool) : Bool := sdFlag d 0 && (sdSide d dst).space == 1

/-! ## The stream share of the cache (R267, R286) -/

/-- The lines of a span. -/
def linesOf (a n : Nat) : List Nat := (List.range ((a + n + 31) / 32 - a / 32)).map (fun k => a / 32 + k)

/-- Bring the lines of an access into the stream share. -/
def useLines (ls : List Nat) (e : Eng) : Eng :=
  { e with store := { e.store with cache := ls.foldl (fun c a => useLine e c (lineOf e true a)) e.store.cache } }

/-- A stream or window read of the stacks: served by the cache where it has every line, else by a stack (R267, R276). -/
def cacheRead (use : Bool) (a n : Nat) (e : Eng) : Eng :=
  let ls := linesOf a n
  let hit := use && ls.all (fun a => e.store.cache.contains (lineOf e true a))
  let e := count (if hit then Ctr.geLlmHit else Ctr.geLlmMiss) 1 e
  if use then useLines ls e else e

/-- A stream or window write: it goes to the stacks; one that uses the cache leaves its lines there; the write itself invalidates what was there (R267,
R286). Log 101. -/
def cacheWrite (use : Bool) (a n : Nat) (e : Eng) : Eng :=
  let e := count Ctr.geLlmMiss 1 e
  if use then useLines (linesOf a n) e else e

/-! ## Places -/

/-- The bytes of a piece that lies on this engine. -/
def getPiece (use : Bool) (p : StPiece) (e : Eng) : List Byte × Eng :=
  match p.place with
  | .host a => (hostRead e a p.len, hostIn (readBytes a p.len) e)
  | .stack a => dataGet a p.len (cacheRead use a p.len e)
  | .buf a => (memRead 0 e.st.bufMem a p.len, e)
  | .remote _ _ _ => ([], e)

/-- The bytes of pieces in order. -/
def getPieces (use : Bool) : List StPiece → Eng → List Byte × Eng
  | [], e => ([], e)
  | p :: t, e =>
    let d := getPiece use p e
    let r := getPieces use t d.2
    (d.1 ++ r.1, r.2)

/-- Write a piece that lies on this engine. -/
def putPiece (use : Bool) (cmd : Nat) (p : StPiece) (bs : List Byte) (e : Eng) : Eng :=
  match p.place with
  | .host a => hostWrites (.output cmd) a bs e
  | .stack a => cacheWrite use a p.len (dataPut a bs e)
  | .buf a => { e with st := { e.st with bufMem := memPut 0 e.st.bufMem a bs } }
  | .remote _ _ _ => e

/-- Write bytes over pieces in order. -/
def putPieces (use : Bool) (cmd : Nat) : List StPiece → List Byte → Eng → Eng
  | [], _, e => e
  | p :: t, bs, e => putPieces use cmd t (bs.drop p.len) (putPiece use cmd p (bs.take p.len) e)

/-- A piece lies on another engine. -/
def StPiece.far (p : StPiece) : Bool :=
  match p.place with
  | .remote _ _ _ => true
  | _ => false

/-- How finding the places of a request's side ends: with what the side then holds; the run waits for a walk; it faults; it is denied. -/
inductive Bind
  | ok (ps : List StPiece) (h : Held)
  | waits
  | faulted
  | denied (reason : Nat)
  deriving DecidableEq, Repr

/-- A lookup that stopped a run: a fault halts it, whether or not it became a waiter (R306, R330). -/
def bindStop (l : Lookup) : Bind :=
  match l with
  | .faulted _ => .faulted
  | _ => .waits

/-- Find the places of one span of a side. -/
def bindSpan (slot : Nat) (r : Run) (s : Side) (dst : Bool) (handle : Option Nat) (h : Held) (a : Int) (n : Nat) (e : Eng) : Eng × Bind :=
  let meridian := fun (table : Nat) =>
    let q := translateF (.stream slot) table (if dst then 1 else 0) (n / 4096 + 2) h (addr64 a) n e
    match q.2 with
    | .ok ps h => (q.1, Bind.ok (ps.map (fun p => { place := if p.stack then .stack p.addr else .host p.addr, len := p.len })) h)
    | .stopped l => (q.1, bindStop l)
  let buffer := fun (b half : Nat) => (e, Bind.ok [{ place := .buf (halfBase e b half + a.toNat), len := n }] h)
  match s.space with
  | 0 => meridian 0
  | 1 => meridian 1
  | 2 =>
    if s.node = e.fb.node then
      match skyRefusal e e.fb.node s.sel with
      | some x => (count Ctr.mtSkyDenied 1 e, .denied x)
      | none => meridian (2 + s.sel)
    else
      (e, .ok ((skyCuts (n / 2048 + 3) (addr64 a) n).map (fun c => { place := .remote s.node s.sel c.1, len := c.2 })) h)
  | 3 => buffer s.sel (if dst then r.dstHalf else r.srcHalf)
  | _ => buffer (fld (handle.getD 0) 34 6) (fld (handle.getD 0) 33 1)

/-- Find the places of several spans. -/
def bindSpans (slot : Nat) (r : Run) (s : Side) (dst : Bool) (handle : Option Nat) : Held → List (Int × Nat) → Eng → Eng × Bind
  | h, [], e => (e, .ok [] h)
  | h, x :: t, e =>
    let q := bindSpan slot r s dst handle h x.1 x.2 e
    match q.2 with
    | .ok ps h =>
      let q' := bindSpans slot r s dst handle h t q.1
      (q'.1, match q'.2 with | .ok qs h => .ok (ps ++ qs) h | b => b)
    | b => (q.1, b)

/-! ## Data of a request -/

/-- A split data block (R212). -/
def dataBlock (i : Nat) (b : Block) : List Byte :=
  let x := leBytes 1 (i % 256) ++ zeros 7 ++ b.elems.map (BitVec.ofNat 8)
  x ++ zeros (align64 x.length - x.length)

/-- A symmetric scale block (R212). -/
def scaleBlock (i : Nat) (rotated : Bool) (b : Block) : List Byte :=
  let x := leBytes 1 (i % 256) ++ leBytes 1 (flag rotated 1) ++ leBytes 2 b.scale2 ++ zeros 4 ++ b.codes.map (BitVec.ofNat 8)
  x ++ zeros (align64 x.length - x.length)

/-- What becomes of a vector's source bytes: its output; refused under ERROR; or tags that do not match (R213, R287). -/
inductive StData
  | bytes (bs : List Byte)
  | refused
  | skew
  deriving DecidableEq, Repr

/-- Quantise one block. -/
def quantBlock (r : Run) (i : Nat) (bs : List Byte) (e : Eng) : StData × Eng :=
  let d := r.desc
  let v := (pieces (sdElem d) bs).map (fun b => if sdElem d = 4 then fromBits 8 23 (leNat b) else ofBf16 (leNat b))
  let w := if sdFlag d 2 then tallied (rotate (sdGroup d) v) e else (v, e)
  let out := fun (b : Block) => StData.bytes (dataBlock i b ++ scaleBlock i (sdFlag d 2) b)
  if sdFlag d 3 then
    let q := encSlot (fld (num d 116 2) 0 10) r.step (sdFmt d) (sdGroup d) w.1 w.2
    match q.1.block with
    | some b => (out b, q.2)
    | none => (.refused, q.2)
  else
    let q := tallied (encOwn (sdFmt d) (sdGroup d) w.1) w.2
    (out q.1, q.2)

/-- Pair and dequantise one block: data block, then scale block. -/
def dequantBlock (r : Run) (i : Nat) (bs : List Byte) (e : Eng) : StData × Eng :=
  let d := r.desc
  let s := bs.drop (splitData (sdDim d))
  if num bs 0 1 ≠ i % 256 ∨ num s 0 1 ≠ i % 256 then (.skew, e)
  else
    let b : Block := { scale2 := num s 2 2, codes := (slice s 8 (sdDim d / sdGroup d)).map (·.toNat), elems := (slice bs 8 (sdDim d)).map (·.toNat) }
    let q := tallied (do
      let v := Block.values (sdFmt d) (sdGroup d) b
      let v ← if bit (num s 1 1) 1 then do
          let w ← mapN rnd32 v
          rotate (sdGroup d) w
        else pure v
      if sdElem d = 4 then do
        let w ← mapN rnd32 v
        return w.flatMap (fun x => leBytes 4 (toWord x).toNat)
      else do
        let w ← mapN (rnd fmtBf16) v
        return w.flatMap (fun x => leBytes 2 (toBf16 x))) e
    (.bytes q.1, q.2)

/-- The requests of a vector with their source bytes, once all of it is read (R287). -/
def vecReqs (r : Run) (pid v : Nat) : Option (List (StReq × List Byte)) :=
  let qs := (r.issued.filter (fun q => q.pid == pid && q.first / max 1 (sdDim r.desc) == v)).filterMap (fun q => match q.phase with
    | .read bs => some (q, bs)
    | _ => none)
  if qs.foldl (fun n q => n + q.1.count) 0 = sdDim r.desc then some qs else none

/-- The source bytes of a vector: its floats, or its data block and then its scale block. -/
def vecSource (d : List Byte) (qs : List (StReq × List Byte)) : List Byte :=
  match qs with
  | [] => []
  | (_, bs) :: t =>
    let n := if sdQuant d then bs.length else bs.length - splitScale false (sdDim d) (sdGroup d)
    bs.take n ++ t.flatMap (·.2) ++ bs.drop n

/-- What a request writes of its vector's output. -/
def reqPart (d : List Byte) (q : StReq) (out : List Byte) : List Byte :=
  let i0 := q.first % max 1 (sdDim d)
  if sdQuant d then
    let x := sdPart d i0 q.count
    slice out x.1 x.2 ++ if i0 = 0 then out.drop (splitData (sdDim d)) else []
  else slice out (i0 * sdElem d) (q.count * sdElem d)

/-! ## Positions -/

/-- Order of passes and elements. -/
def posLe (a b : Nat × Nat) : Bool := decide (a.1 < b.1) || (a.1 == b.1 && decide (a.2 ≤ b.2))

/-- The earlier of two positions. -/
def posMin (a b : Nat × Nat) : Nat × Nat := if posLe a b then a else b

/-- The position of a run: pass and element of its earliest request that has not completed (R306), or of the block at which a skew error halted
it (R307). -/
def runPos (r : Run) : Nat × Nat :=
  match r.skewAt with
  | some s => s.2
  | none =>
    let size := sdPass r.desc
    let open' := (r.passes.filter (fun p => decide (p.next < size))).map (fun p => (p.k, p.next))
    match open' ++ r.issued.map (fun q => (q.pass, q.first)) with
    | [] => (r.nextPass, 0)
    | a :: t => t.foldl posMin a

/-- Where a resumed run starts again: its position, at the start of its vector where vectors are converted whole (R287, R306). -/
def redoPos (r : Run) : Nat × Nat :=
  let p := runPos r
  if sdConv r.desc then (p.1, p.2 - p.2 % max 1 (sdDim r.desc)) else p

/-- The saved indices ST_SLOT_POS reports (R306, R312). -/
def runIndices (r : Run) : List Nat :=
  let p := runPos r
  let l := sdIndices (sdInner r.desc) p.2
  if sdChained r.desc then l ++ [p.1] else l

/-- Bytes written before the position (R308, R331). -/
def bytesBefore (r : Run) : Nat :=
  let p := runPos r
  let past := r.passes.foldl (fun a s => a + ((s.finished.filter (fun f => posLe p (s.k, f.1))).map (fun f => f.2.2)).foldl (· + ·) 0) 0
  r.bytes - past

/-- The tag of a request's skylight requests. -/
def reqTag (q : StReq) : Nat := q.pid * 2 ^ 49 + q.first

/-! ## The end of a run -/

/-- The queues a run has bound are released (R300). -/
def releaseQueues (slot : Nat) (e : Eng) : Eng :=
  { e with st := { e.st with queues := e.st.queues.map (fun q => (q.1, { q.2 with
      producer := q.2.producer.filter (· != slot), consumer := q.2.consumer.filter (· != slot) })) } }

/-- A run retires: its retire record is its command's, with generation and slot (R280, R369). -/
def retireRun (slot status detail bytes : Nat) (r : Run) (e : Eng) : Eng :=
  let e := finish r.cmdId { status, detail, count := bytes, errTable := r.gen.toNat, errRow := slot } e
  let e := dropReqs (fun q => q.cmdId == r.cmdId && isSky q.body) (unserve (.stream slot) e)
  setSlot slot (fun s => { s with run := none, owner := some r.cmdId }) (releaseQueues slot e)

/-- Stop a run: it issues nothing more, and retires when what it has issued is done (R299, R308). -/
def stopRun (slot status detail : Nat) (e : Eng) : Eng :=
  setRun slot (fun r => if r.stop.isNone then { r with stop := some (status, detail), waiting := false } else r) e

/-- Nothing a run has issued is still to come: what is left of it was read for vectors that are not converted any more. -/
def allRead (r : Run) : Bool := r.issued.all (fun q => match q.phase with | .read _ => true | _ => false)

/-- A stopped run retires once what it has issued is done, and visible at its destination (R280, R308). -/
def tryStop (slot : Nat) (e : Eng) : Eng :=
  match (stSlot e slot).run with
  | none => e
  | some r =>
    match r.stop with
    | none => e
    | some (st, dt) => if allRead r && outputsAcked e r.cmdId then retireRun slot st dt (bytesBefore r) r e else e

/-- A translation fault halts a run (R306). -/
def haltRun (slot : Nat) (e : Eng) : Eng :=
  match (stSlot e slot).run with
  | some r =>
    if r.state = .running then count Ctr.stFaultHalts 1 (setRun slot (fun r => { r with state := .haltedFault, waiting := false }) e)
    else e
  | none => e

/-- A request that completed, or is issued, is issued again when its run resumes: after a fault every one from the position on (R306); after a skew
those of the halted pass from the block on (R307). -/
def Run.redoes (r : Run) (pid k first : Nat) : Bool :=
  match r.skewAt with
  | some s => pid == s.1 && decide (s.2.2 ≤ first)
  | none => posLe (redoPos r) (k, first)

/-- Resume a run from its position (R306, R307). A run that is to stop stays as it is. -/
def resumeRun (slot : Nat) (e : Eng) : Eng :=
  match (stSlot e slot).run with
  | none => e
  | some r =>
    if r.stop.isSome then e
    else
      let lost := fun (s : Pass) => s.finished.filter (fun f => r.redoes s.id s.k f.1)
      let bytes := fun (s : Pass) => (lost s).foldl (fun a f => a + f.2.2) 0
      let back := fun (s : Pass) =>
        let start := if s.k = (redoPos r).1 then (redoPos r).2 else 0
        { s with
          next := if r.redoes s.id s.k start then min s.next start else s.next
          finished := s.finished.filter (fun f => !r.redoes s.id s.k f.1), written := s.written - bytes s }
      let again := r.issued.filter (fun q => r.redoes q.pid q.pass q.first)
      let e := dropReqs (fun q => q.cmdId == r.cmdId && isSky q.body && again.any (fun x => reqTag x == q.tag)) e
      let e := setRun slot (fun r => { r with
        state := .running, waiting := false, stall := none, skewAt := none, passes := r.passes.map back
        bytes := r.bytes - r.passes.foldl (fun a s => a + bytes s) 0
        issued := r.issued.filter (fun q => !again.contains q) }) e
      let n := r.passes.foldl (fun a s => a + (lost s).length) 0
      count Ctr.stRedone (if r.skewAt.isSome then 0 else n) (setCmd r.cmdId (fun c => { c with skyHalt := [] }) e)

/-- A peer's fault is resolved: the run resumes; one that is to stop gives up what it had asked of that peer (R308, R334). -/
def resumeFar (slot peer : Nat) (e : Eng) : Eng :=
  match (stSlot e slot).run with
  | none => e
  | some r =>
    if r.stop.isNone then resumeRun slot e
    else
      let gone := (skyOut e r.cmdId).filter (fun q => q.peer == peer)
      setRun slot (fun r => { r with issued := r.issued.filter (fun q => !gone.any (fun x => x.tag == reqTag q)) })
        (dropReqs (fun q => gone.any (fun x => x.id == q.id)) e)

/-! ## Queues (R294 to R299) -/

/-- Put an item behind those of its key (R294). -/
def insertItem (x : Item) : List Item → List Item
  | [] => [x]
  | y :: t => if x.key < y.key then x :: y :: t else y :: insertItem x t

/-- Take the lowest item: credit returns; an empty queue is not read here. -/
def popQueue (q : Nat) (e : Eng) : Eng × Option Item :=
  match (hqueue e q).items with
  | [] => (e, none)
  | x :: t => (setQueue q (fun h => { h with items := t, credits := min 64 (h.credits + 1), last := x.handle }) e, some x)

/-- Push an item if there is credit (R295). -/
def pushQueue (q : Nat) (x : Item) (e : Eng) : Eng × Bool :=
  let h := hqueue e q
  if h.credits = 0 then (e, false)
  else (setQueue q (fun h => { h with items := insertItem x h.items, credits := h.credits - 1 }) e, true)

/-- The handle a completed pass returns (R299). -/
def passHandle (d : List Byte) (p : Pass) : Nat :=
  let h := p.handle.getD 0
  if (sdSide d true).space = 4 then h - h % 2 ^ 32 + p.written % 2 ^ 32 else h

/-- END (R298). -/
def endHandle : Nat := 2 ^ 63

/-- The run has taken every pass it will take. -/
def Run.allTaken (r : Run) : Bool := r.ended || decide (sdPasses r.desc ≤ r.nextPass) && !sdFlag r.desc 4

/-- Take the next pass of a chained run, if one may start (R299): true where something changed. -/
def takePass (slot : Nat) (r : Run) (e : Eng) : Eng × Bool :=
  let d := r.desc
  if !sdChained d || r.allTaken || decide (4 ≤ r.passes.length) then (e, false)
  else
    let q := popQueue (num d 118 1) e
    match q.2 with
    | none => (e, false)
    | some x =>
      let inOrd := sdFlag d 4
      if x.handle = endHandle ∧ inOrd then (setRun slot (fun r => { r with ended := true }) q.1, true)
      else if bit x.handle 63 ∨ bufCount e ≤ fld x.handle 34 6 ∨ (inOrd ∧ sdPasses d ≤ x.key) ∨ !sdExtentOk e d then
        (stopRun slot Status.chainError 0 q.1, true)
      else
        let p : Pass := { id := r.taken, k := if inOrd then x.key else r.nextPass, handle := some x.handle }
        (setRun slot (fun r => { r with
          passes := r.passes ++ [p], taken := r.taken + 1, nextPass := if inOrd then r.nextPass else r.nextPass + 1 }) q.1, true)

/-- Push the handle of a completed pass; a push without credit stalls (R295, R299). -/
def pushPass (slot : Nat) (r : Run) (p : Pass) (e : Eng) : Eng × Bool :=
  let d := r.desc
  let q := pushQueue (num d 119 1) { key := if sdFlag d 5 then p.k else 0, handle := passHandle d p } e
  if q.2 then
    let endDue := sdFlag d 5 && !sdFlag d 4 && decide (sdPasses d ≤ r.nextPass) && r.passes.length == 1
    (setRun slot (fun r => { r with passes := r.passes.filter (fun s => s.id != p.id), endDue }) q.1, true)
  else if p.stalled then (e, false)
  else
    (count Ctr.stQStalls 1 (setRun slot (fun r => { r with passes := r.passes.map (fun s => if s.id = p.id then { s with stalled := true } else s) }) e), false)

/-- Push END after the last pass; a push without credit stalls (R295, R299). -/
def pushEnd (slot : Nat) (r : Run) (e : Eng) : Eng × Bool :=
  let q := pushQueue (num r.desc 119 1) { key := 0xFFFFFFFF, handle := endHandle } e
  if q.2 then (setRun slot (fun r => { r with endDue := false, endStalled := false }) q.1, true)
  else if r.endStalled then (e, false)
  else (count Ctr.stQStalls 1 (setRun slot (fun r => { r with endStalled := true }) e), false)

/-- A pass has moved everything. -/
def passDone (r : Run) (p : Pass) : Bool := decide (sdPass r.desc ≤ p.next) && !r.issued.any (fun q => q.pid == p.id)

/-- A run whose passes are over retires once every write it made is visible (R280). -/
def tryRetire (slot : Nat) (r : Run) (e : Eng) : Eng × Bool :=
  if outputsAcked e r.cmdId then (retireRun slot (if r.refused then Status.scaleRefused else Status.ok) 0 r.bytes r e, true) else (e, false)

/-- Push passes that are complete, push END, and retire a run that is complete: true where something changed. -/
def tryFinish (slot : Nat) (e : Eng) : Eng × Bool :=
  match (stSlot e slot).run with
  | none => (e, false)
  | some r =>
    if !r.started || r.stop.isSome || r.state != .running then (e, false)
    else if !sdChained r.desc then
      if r.passes.all (passDone r) then tryRetire slot r e else (e, false)
    else match r.passes.find? (passDone r) with
      | some p => pushPass slot r p e
      | none =>
        if r.endDue then pushEnd slot r e
        else if r.allTaken && r.passes.isEmpty then tryRetire slot r e
        else (e, false)

/-! ## Issuing requests (R284) -/

/-- The die whose unit issues a request. -/
def reqDie (e : Eng) (slot : Nat) (src dst : List StPiece) : Nat :=
  let die := fun (l : List StPiece) => l.findSome? (fun p => match p.place with
    | .stack a => some (dieOf (unitOf e a).1)
    | .buf a => some (a / bufArea)
    | _ => none)
  (die src).getD ((die dst).getD (slot % e.variant.msDies))

/-- Requests outstanding at a unit: one whose source is read for a vector is not. -/
def unitLoad (e : Eng) (die : Nat) : Nat :=
  e.st.slots.foldl (fun a s => a + (match s.2.run with
    | some r => r.issued.countP (fun q => q.die == die && (match q.phase with | .read _ => false | _ => true))
    | none => 0)) 0

/-- Send a request's data to another engine, piece by piece. -/
def sendPieces (r : Run) (tag : Nat) : List StPiece → List Byte → Eng → Eng
  | [], _, e => e
  | p :: t, bs, e =>
    let e := match p.place with
      | .remote n s o => sendSky r.cmdId n r.step tag (.skyWrite { sky := s, offset := o, cmdId := r.cmdId, data := bs.take p.len }) e
      | _ => e
    sendPieces r tag t (bs.drop p.len) e

/-- Ask another engine for a request's data. -/
def fetchPieces (r : Run) (tag : Nat) (ps : List StPiece) (e : Eng) : Eng :=
  ps.foldl (fun e p => match p.place with
    | .remote n s o => sendSky r.cmdId n r.step tag (.skyRead { sky := s, offset := o, length := p.len, cmdId := r.cmdId, transform := none }) e
    | _ => e) e

/-- Change a request of a run. -/
def setReq (slot : Nat) (q : StReq) (g : StReq → StReq) (e : Eng) : Eng :=
  setRun slot (fun r => { r with issued := r.issued.map (fun x => if x.pid = q.pid ∧ x.first = q.first then g x else x) }) e

/-- A request is complete: what it wrote counts, and its pass goes on. -/
def reqOver (slot : Nat) (q : StReq) (bytes : Nat) (e : Eng) : Eng :=
  let e := count Ctr.stBytesWritten bytes e
  setRun slot (fun r =>
    let r : Run := { r with
      issued := r.issued.filter (fun x => !(x.pid == q.pid && x.first == q.first)), bytes := r.bytes + bytes
      passes := r.passes.map (fun (s : Pass) => if s.id = q.pid then
        { s with finished := s.finished ++ [(q.first, q.count, bytes)], written := s.written + bytes } else s) }
    { r with passes := r.passes.map (fun (s : Pass) =>
        { s with finished := s.finished.filter (fun f => posLe (redoPos r) (s.k, f.1)) }) }) e

/-- Write what a request writes, here, or send it. -/
def writeReq (slot : Nat) (r : Run) (q : StReq) (out : List Byte) (e : Eng) : Eng :=
  if q.dst.any (·.far) then sendPieces r (reqTag q) q.dst out (setReq slot q (fun x => { x with phase := .writing }) e)
  else reqOver slot q out.length (putPieces (sdCached r.desc true) r.cmdId q.dst out e)

/-- Write a vector's output, each request its part. -/
def writeVec (slot : Nat) (r : Run) (qs : List (StReq × List Byte)) (out : List Byte) (e : Eng) : Eng :=
  qs.foldl (fun e q => writeReq slot r q.1 (reqPart r.desc q.1 out) e) e

/-- A vector that is read whole is quantised (R287). -/
def quantVec (slot pid v : Nat) (e : Eng) : Eng :=
  match (stSlot e slot).run with
  | none => e
  | some r =>
    match vecReqs r pid v with
    | none => e
    | some qs =>
      let i := match qs with
        | q :: _ => sdBlock r.desc q.1.pass q.1.first false
        | [] => 0
      let x := quantBlock r i (vecSource r.desc qs) e
      match x.1 with
      | .bytes out => writeVec slot r qs out x.2
      | _ => qs.foldl (fun e q => reqOver slot q.1 0 e) (setRun slot (fun r => { r with refused := true }) x.2)

/-- The vector of a pass to be paired next: that of its earliest request not yet paired (R213). -/
def nextPair (r : Run) (pid : Nat) : Option Nat :=
  match (r.issued.filter (fun q => q.pid == pid && q.phase != .writing)).map (fun q => q.first / max 1 (sdDim r.desc)) with
  | [] => none
  | a :: t => some (t.foldl min a)

/-- The source bytes of a request that lies on this engine, read again. -/
def readAgain (r : Run) (x : List (StReq × List Byte) × Eng) (q : StReq × List Byte) : List (StReq × List Byte) × Eng :=
  if q.1.src.any (·.far) then (x.1 ++ [q], x.2)
  else
    let d := getPieces (sdCached r.desc false) q.1.src x.2
    (x.1 ++ [(q.1, d.1)], d.2)

/-- Blocks whose tags do not match: the pairing stalls; the next block delivered, or a last block looked at again, makes it a skew error, which halts
the run at the block (R213, R307). A run that has halted or is to stop leaves the blocks as they are. Log 143. -/
def skewVec (slot : Nat) (r : Run) (v : Nat) (qs : List (StReq × List Byte)) (e : Eng) : Eng :=
  match qs with
  | [] => e
  | (q, _) :: _ =>
    if r.state != .running || r.stop.isSome then e
    else
      let dim := max 1 (sdDim r.desc)
      let was := r.stall == some (q.pid, v)
      let next := r.issued.any (fun x => x.pid == q.pid && x.first == (v + 1) * dim && x.phase != .reading)
      let last := decide (sdPass r.desc ≤ (v + 1) * dim)
      let e := if was then e else count Ctr.quSkewStalls 1 (setRun slot (fun r => { r with stall := some (q.pid, v) }) e)
      if next || (last && (was || q.src.any (·.far))) then
        raiseEvent { kind := Kind.scaleSkew, arg0 := sdBlock r.desc q.pass q.first false, arg1 := slot + at_ 0xFF 8 }
          (count Ctr.quSkewErr 1 (setRun slot (fun r => { r with
            state := .haltedSkew, waiting := false, stall := none, skewAt := some (q.pid, q.pass, v * dim) }) e))
      else e

/-- Pair and decode the vectors of a pass in order, as far as they are read (R213, R287). -/
def pairVecs (slot pid : Nat) : Nat → Eng → Eng
  | 0, e => e
  | f + 1, e =>
    match (stSlot e slot).run with
    | none => e
    | some r =>
      match (if r.state = .haltedSkew then none else (nextPair r pid).bind (fun v => (vecReqs r pid v).map (fun qs => (v, qs)))) with
      | none => e
      | some (v, qs) =>
        let x := if r.stall = some (pid, v) then qs.foldl (readAgain r) ([], e) else (qs, e)
        let i := match qs with
          | q :: _ => sdBlock r.desc q.1.pass q.1.first false
          | [] => 0
        let y := dequantBlock r i (vecSource r.desc x.1) x.2
        match y.1 with
        | .bytes out => pairVecs slot pid f (writeVec slot r qs out (setRun slot (fun r => { r with stall := none }) y.2))
        | _ => skewVec slot r v qs y.2

/-- Go on with the vectors of a pass. -/
def goVecs (slot pid v : Nat) (e : Eng) : Eng :=
  match (stSlot e slot).run with
  | none => e
  | some r => if sdQuant r.desc then quantVec slot pid v e else pairVecs slot pid (r.issued.length + 1) e

/-- The source bytes of a request are there: it writes them, or its vector is converted once all of it is there. -/
def delivered (slot : Nat) (q : StReq) (bs : List Byte) (e : Eng) : Eng :=
  match (stSlot e slot).run with
  | none => e
  | some r =>
    if !sdConv r.desc then writeReq slot r q bs e
    else goVecs slot q.pid (q.first / max 1 (sdDim r.desc)) (setReq slot q (fun x => { x with phase := .read bs }) e)

/-- Issue a request whose places are found. -/
def issueReq (slot : Nat) (r : Run) (q : StReq) (hs hd : Held) (e : Eng) : Eng :=
  let n := q.src.foldl (fun a p => a + p.len) 0
  let e := counts [(Ctr.stRequests, 1), (Ctr.stBytesRead, n)] (unserve (.stream slot) e)
  let e := setRun slot (fun r => { r with
    issued := r.issued ++ [q], heldSrc := hs, heldDst := hd
    passes := r.passes.map (fun s => if s.id = q.pid then { s with next := s.next + q.count } else s) }) e
  if q.src.any (·.far) then fetchPieces r (reqTag q) q.src e
  else if q.dst.any (·.far) then
    let d := getPieces (sdCached r.desc false) q.src e
    delivered slot q d.1 d.2
  else e

/-- The table a side of a run uses on this engine, if any (R282). -/
def sideTable (e : Eng) (s : Side) : Option Nat :=
  if s.space ≤ 1 then some s.space else if s.space = 2 ∧ s.node = e.fb.node then some (2 + s.sel) else none

/-- Runs of addresses that a tile touches on a side, as first address, step and count (R325). -/
def tileRuns (d : List Byte) (dst : Bool) (k p : Nat) : List (Int × Int × Nat) :=
  let w := (sdInner d).headD 1
  if sdQuantSide d dst then (sdSpans d dst k p w).map (fun x => (x.1, 1, x.2)) else [(sdAddr d dst k p, (sdSide d dst).strides.headD 0, w)]

/-- The first address of a run of addresses that no range known covers, from address number `i` on. The ranges passed are at most `fuel`. -/
def firstGap (known : Nat → Option Range) (a step : Int) (n : Nat) : Nat → Nat → Option Nat
  | 0, _ => none
  | f + 1, i =>
    let x := a + i * step
    if n ≤ i then none
    else match known (addr64 x) with
      | none => some (addr64 x)
      | some r =>
        if step = 0 then none
        else
          let room : Int := if 0 < step then ((r.start + r.length : Nat) : Int) - 1 - addr64 x else (addr64 x : Int) - r.start
          firstGap known a step n f (i + (room / step.natAbs).toNat + 1)

/-- The next four tiles of a run, as pass number and first element, from the one after the tile it moves (R325). -/
def nextTiles (r : Run) : List (Nat × Nat) :=
  let d := r.desc
  let w := max 1 ((sdInner d).headD 1)
  let per := sdPass d / w
  let now := match r.passes.find? (fun p => decide (p.next < sdPass d)) with
    | some p => p.k * per + p.next / w + 1
    | none => r.nextPass * per
  ((List.range 4).map (fun j => now + j)).filterMap (fun t => if t < per * sdPasses d then some (t / per, t % per * w) else none)

/-- Walk ahead for what the next four tiles touch on a side: in each of their runs of addresses, for the first one that no range held or cached covers;
each page once (R325). Log 146. -/
def prefetchSide (slot : Nat) (r : Run) (dst : Bool) (e : Eng) : Eng :=
  match sideTable e (sdSide r.desc dst) with
  | none => e
  | some table =>
    let h := if dst then r.heldDst else r.heldSrc
    let known := fun (a : Nat) => ((h.last.toList ++ h.ahead).find? (fun r => r.covers table a)).orElse (fun _ => cached e table a)
    let runs := (nextTiles r).flatMap (fun t => tileRuns r.desc dst t.1 t.2)
    let pages := (runs.filterMap (fun x => firstGap known x.1 x.2.1 x.2.2 64 0)).map (fun a => a / 4096)
    let fresh := (nub pages).filter (fun p => !r.ahead.contains (table, p))
    let e := setRun slot (fun r => { r with ahead := r.ahead ++ fresh.map (fun p => (table, p)) }) e
    fresh.foldl (fun e p => prefetchWalk slot table (p * 4096) e) e

/-- Walk ahead for the next four tiles of each translated side of a run in PREFETCH mode (R325). -/
def prefetchTiles (slot : Nat) (e : Eng) : Eng :=
  let side := fun (dst : Bool) (e : Eng) => match (stSlot e slot).run with
    | some r => if r.prefetch && r.started && r.stop.isNone && r.state == .running then prefetchSide slot r dst e else e
    | none => e
  side true (side false e)

/-- Issue the next request of a slot's run, if it may: true where something changed. -/
def tryIssue (slot : Nat) (e : Eng) : Eng × Bool :=
  match (stSlot e slot).run with
  | none => (e, false)
  | some r =>
    let d := r.desc
    if !r.started || r.stop.isSome || r.state != .running || r.waiting then (e, false)
    else if sdQuant d && sdFlag d 3 && slotBusy e r.cmdId r.step (fld (num d 116 2) 0 10) then (e, false)
    else match r.passes.find? (fun p => decide (p.next < sdPass d)) with
      | none => takePass slot r e
      | some p =>
        let n := sdNext d p.k p.next
        let a := bindSpans slot r (sdSide d false) false p.handle r.heldSrc (sdSpans d false p.k p.next n) e
        let stop := fun (b : Bind) (e : Eng) => match b with
          | .faulted => (haltRun slot e, true)
          | .denied x => (stopRun slot Status.skylightDenied x e, true)
          | _ => (setRun slot (fun r => { r with waiting := true }) e, false)
        match a.2 with
        | .ok src hs =>
          let b := bindSpans slot r (sdSide d true) true p.handle r.heldDst (sdSpans d true p.k p.next n) a.1
          match b.2 with
          | .ok dst hd =>
            let q : StReq := { pid := p.id, pass := p.k, first := p.next, count := n, die := reqDie e slot src dst, src, dst }
            if unitLoad b.1 q.die < 640 then (issueReq slot r q hs hd b.1, true) else (b.1, false)
          | x => stop x b.1
        | x => stop x a.1

/-! ## Starting (R279, R288, R292, R300) -/

/-- A side names buffer `b`. -/
def namesBuf (d : List Byte) (b : Nat) : Bool := [false, true].any (fun x => (sdSide d x).space == 3 && (sdSide d x).sel == b)

/-- A run may start now. Every FENCE ahead of it is satisfied, for none is accepted behind an open one (R288, R366). -/
def canStart (e : Eng) (r : Run) : Bool :=
  let d := r.desc
  !e.st.swaps.any (fun s => namesBuf d s.2) &&
    (!sdChained d || ((hqueue e (num d 118 1)).consumer.isNone && (hqueue e (num d 119 1)).producer.isNone))

/-- Start the run of a slot: it binds its buffer halves and its queues. -/
def startRun (slot : Nat) (e : Eng) : Eng :=
  match (stSlot e slot).run with
  | none => e
  | some r =>
    if r.started || r.stop.isSome || !canStart e r then e
    else
      let d := r.desc
      let e := if sdChained d then
          setQueue (num d 119 1) (fun h => { h with producer := some slot })
            (setQueue (num d 118 1) (fun h => { h with consumer := some slot }) e)
        else e
      setRun slot (fun r => { r with
        started := true, srcHalf := drainHalf e (sdSide d false).sel, dstHalf := 1 - drainHalf e (sdSide d true).sel
        passes := if sdChained d then [] else [{ id := 0, k := 0, handle := none }]
        nextPass := if sdChained d then 0 else 1 }) e

/-- A BUF_SWAP takes effect: the buffer's roles change, and it completes (R293). -/
def swapNow (e : Eng) (s : Nat × Nat) : Eng :=
  let e := { e with st := { e.st with
    drainHalf := Tab.set e.st.drainHalf s.2 (1 - drainHalf e s.2), swaps := e.st.swaps.filter (fun x => x != s) } }
  match findCmd e s.1 with
  | some c => finishSlot c {} e
  | none => e

/-- BUF_SWAPs whose buffer no started run has bound take effect in acceptance order (R293). -/
def trySwaps (e : Eng) : Eng :=
  let bound := fun (b : Nat) => e.st.slots.any (fun s => match s.2.run with | some r => r.started && namesBuf r.desc b | none => false)
  (e.st.swaps.filter (fun s => !bound s.2)).foldl swapNow e

/-- A slot whose retire record is written takes its waiting run (R279). -/
def releaseSlot (slot : Nat) (e : Eng) : Eng :=
  let s := stSlot e slot
  match s.owner with
  | none => e
  | some id =>
    if e.hl.cmds.all (fun c => c.id != id || c.recIdx.isSome) then
      setSlot slot (fun s => { s with owner := none, run := s.waiting, waiting := none }) e
    else e

/-! ## Everything that can go on, goes on -/

/-- A slot's run as it takes part in turns: by the ring of its command (R368). -/
def slotTurn (e : Eng) (slot : Nat) : Turn :=
  match ((stSlot e slot).run).bind (fun r => findCmd e r.cmdId) with
  | some c => { prio := (ring e c.ring).priority, ctx := (ring e c.ring).context, ring := c.ring }
  | none => { prio := 0, ctx := 0, ring := 0 }

/-- A slot's run has requests to issue and nothing that stops it. -/
def slotReady (e : Eng) (slot : Nat) : Bool :=
  match (stSlot e slot).run with
  | some r => r.started && r.stop.isNone && r.state == .running && !r.waiting && r.passes.any (fun p => decide (p.next < sdPass r.desc))
  | none => false

/-- The turns of the slots that are ready. -/
def readyTurns (e : Eng) : List Turn := ((e.st.slots.map (·.1)).filter (slotReady e)).map (slotTurn e)

/-- Slots in serving order: by priority, those whose context and ring have the turn first, the slots of a ring in turn (R284, R368). Log 52. -/
def slotOrder (e : Eng) : List Nat :=
  let ns := e.st.slots.map (·.1)
  let turns := ns.filter (fun n => decide (e.st.turn < n)) ++ ns.filter (fun n => decide (n ≤ e.st.turn))
  let all := readyTurns e
  [7, 6, 5, 4, 3, 2, 1, 0].flatMap (fun p =>
    let peers := turns.filter (fun n => (slotTurn e n).prio == p)
    let may := fun (n : Nat) => mayServe e.st.turns (all.filter (fun t => t.prio == p)) (slotTurn e n)
    peers.filter may ++ peers.filter (fun n => !may n))

/-- A slot has issued a request: its context and ring have had a turn. -/
def tookSlotTurn (n : Nat) (before e : Eng) : Eng :=
  let weight := fun (c : Nat) => (Tab.get {} before.hl.ctxs c).weight
  { e with st := { e.st with turn := n, turns := afterServe weight before.st.turns (slotTurn before n :: readyTurns before) (slotTurn before n) } }

/-- One turn: the first slot in serving order that can go on does. -/
def streamTurn (order : List Nat) (e : Eng) : Eng × Bool :=
  order.foldl (fun a n =>
    if a.2 then a
    else
      let f := tryFinish n a.1
      if f.2 then f
      else
        let i := tryIssue n (prefetchTiles n f.1)
        if i.2 then (tookSlotTurn n f.1 i.1, true) else i) (e, false)

/-- Runs finish, push, pop and issue until nothing changes. -/
def pumpRuns : Nat → Eng → Eng
  | 0, e => e
  | f + 1, e =>
    let r := streamTurn (slotOrder e) e
    if r.2 then pumpRuns f r.1 else r.1

/-- Stopped runs retire, slots are released, swaps take effect, and runs go on. -/
def pumpStreams (e : Eng) : Eng :=
  let ns := e.st.slots.map (·.1)
  if ns.isEmpty ∧ e.st.swaps.isEmpty then e
  else
    let go := fun (e : Eng) => trySwaps (ns.foldl (fun e n => releaseSlot n (tryStop n e)) e)
    go (pumpRuns 8192 (go e))

/-! ## Requests complete (R284) -/

/-- STREAM_REQUEST_DONE: request `k` of a slot's run completes, with its source on this engine; where its bytes are there and wait to be paired,
its block is delivered again (R213). While its stream unit is in quarantine it waits (R470). -/
def opRequestDone (slot k : Nat) (e : Eng) : Eng :=
  match (stSlot e slot).run with
  | none => e
  | some r =>
    match r.issued[k]? with
    | none => e
    | some q =>
      if shutOut e .memory q.die 5 then e
      else match q.phase with
      | .writing => e
      | .read _ => goVecs slot q.pid (q.first / max 1 (sdDim r.desc)) e
      | .reading =>
        if q.src.any (·.far) then e
        else
          let d := getPieces (sdCached r.desc false) q.src e
          delivered slot q d.1 d.2

/-- The slot of a command's run. -/
def slotOfCmd (e : Eng) (id : Nat) : Option Nat :=
  (List.find? (fun (s : Nat × StSlot) => match s.2.run with | some r => r.cmdId == id | none => false) e.st.slots).map (·.1)

/-- The bytes of a request that has come whole from another engine. -/
def gotBytes (q : StReq) : Option (List Byte) :=
  (q.src.mapM (fun (p : StPiece) => match p.place with
    | .remote _ _ o => Tab.find? q.got o
    | _ => none)).map List.flatten

/-- An answer to a run's skylight request: data, or an acknowledged write. -/
def streamSky (slot : Nat) (x : Req) (off : Nat) (data : Option (List Byte)) (e : Eng) : Eng :=
  match (stSlot e slot).run with
  | none => e
  | some r =>
    match r.issued.find? (fun q => reqTag q == x.tag) with
    | none => e
    | some q =>
      match data with
      | some bs =>
        let q' := { q with got := Tab.set q.got off bs }
        let e := setReq slot q (fun _ => q') e
        match gotBytes q' with
        | some all => delivered slot q' all e
        | none => e
      | none =>
        if (skyOut e r.cmdId).any (fun y => y.tag == x.tag) then e
        else reqOver slot q (q.dst.foldl (fun a p => a + p.len) 0) e

/-- A queue loses its items (R297). -/
def opQueueReset (q : Nat) (e : Eng) : Eng :=
  let e := raiseEvent { kind := Kind.queueReset, arg1 := q } (count Ctr.stQResets 1 e)
  if 32 ≤ q then e
  else
    let h := hqueue e q
    let e := setQueue q (fun h => { h with items := [], credits := 64, enable := false }) e
    (h.producer.toList ++ h.consumer.toList).foldl (fun e s => stopRun s Status.queueLost 0 e) e

/-- A write of ST_Q_HANDLE_HI: while the queue is disabled it pushes (R314). A push onto 64 items has no stage to fall to
and changes nothing. Log 54. -/
def opHandlePush (q hi : Nat) (e : Eng) : Eng :=
  let h := hqueue e q
  let e := setQueue q (fun h => { h with hi := BitVec.ofNat 32 hi }) e
  if h.enable || 64 ≤ h.items.length then e
  else setQueue q (fun h => { h with items := insertItem { key := h.key.toNat, handle := hi * 2 ^ 32 + h.lo.toNat } h.items }) e

/-- A read of ST_Q_HANDLE_LO: it pops while the queue is disabled or has no consumer (R296, R314). -/
def opHandlePop (q : Nat) (e : Eng) : Eng × Word :=
  let h := hqueue e q
  if h.enable && h.consumer.isSome then (e, h.lo)
  else match h.items with
    | x :: _ =>
      let e := (popQueue q e).1
      (setQueue q (fun h => { h with hi := BitVec.ofNat 32 (x.handle / 2 ^ 32), key := BitVec.ofNat 32 x.key, lo := BitVec.ofNat 32 x.handle }) e,
        BitVec.ofNat 32 x.handle)
    | [] => (setQueue q (fun h => { h with underrun := true }) e, BitVec.ofNat 32 h.last)

/-- ST_Q_CFG written (R300, R313). -/
def queueCfg (q v : Nat) (e : Eng) : Eng :=
  let h := hqueue e q
  let en := bit v 31
  if h.enable = en then e
  else if en then setQueue q (fun h => { h with enable := true, credits := 64 - h.items.length, last := 0 }) e
  else if h.producer.isSome || h.consumer.isSome then e
  else setQueue q (fun h => { h with enable := false }) e

end Sys2Proof.Machine
end

