-- ==== Sys2Proof/Machine/Interact.lean ====
section
/-! DEFINITION. INTERACT (chapter 07, R217 to R232): operands, tiles, parts, accumulator and shadow slots. -/

namespace Sys2Proof.Machine

/-! ## The descriptor (R218, R221 to R224) -/

/-- INTERACT_INVALID with a detail (R248). -/
def interactBad (detail : Nat) : Refuse := { status := Status.interactInvalid, detail }

/-- The group size a group_code names. -/
def groupOf (code : Nat) : Nat := 32 * 2 ^ code

/-- D and group_code keep R221. -/
def dimOk (dim code : Nat) : Bool :=
  dim % 32 == 0 && decide (32 ≤ dim ∧ dim ≤ 1024 ∧ code ≤ 2) && dim % groupOf code == 0

/-- Parameters of an INTERACT. -/
structure IxForm where
  dim : Nat
  code : Nat
  fmt : Nat
  fa : Nat
  fb : Nat
  shape : Nat
  layout : Nat
  bf16 : Bool
  die : Nat
  asym : Bool
  rotate : Bool
  rotated : Bool
  integer : Bool
  accumulate : Bool
  hold : Bool
  slotScale : Bool
  slot : Nat
  samples : Nat
  a : Nat
  b : Nat
  out : Nat
  base : Nat
  count : Nat
  scale : FV
  deriving DecidableEq, Repr

/-- The parameters of a descriptor (R221). -/
def ixForm (d : Desc) : IxForm :=
  let l := num d 23 1
  let f := num d 24 2
  { dim := num d 16 2, code := num d 18 1, fmt := num d 19 1, fa := num d 20 1, fb := num d 21 1, shape := num d 22 1
    layout := fld l 0 2, bf16 := bit l 2, die := fld l 3 2, asym := bit f 0, rotate := bit f 1, rotated := bit f 2
    integer := bit f 3, accumulate := bit f 4, hold := bit f 5, slotScale := bit f 6, slot := fld (num d 26 2) 0 10
    samples := num d 28 4, a := num d 32 8, b := num d 40 8, out := num d 48 8, base := num d 56 2, count := num d 58 2
    scale := fromBits 8 23 (num d 60 4) }

/-- Vectors per sample of the second operand set, fb′ (R222). -/
def IxForm.fb' (f : IxForm) : Nat := if f.fb = 0 then f.fa else f.fb

/-- Operands arrive quantised. -/
def IxForm.quant (f : IxForm) : Bool := decide (f.fmt ≤ 1)

/-- Rows and columns of a tile (R223). -/
def IxForm.tile (f : IxForm) : Nat × Nat :=
  match f.shape with
  | 0 => (16, 16)
  | 1 => (32, 8)
  | _ => (64, 4)

/-- Parts of a reduction (R228). -/
def IxForm.parts (f : IxForm) : Nat := 2 ^ f.shape

/-- A pair (i, j) has a product (R222). -/
def IxForm.wants (f : IxForm) (i j : Nat) : Bool :=
  decide (i < f.fa) && decide (j < f.fb') && (match f.layout with
    | 0 => true
    | 1 => decide (j < i)
    | _ => decide (j ≤ i))

/-- Entry index of p(i, j) (R222). -/
def IxForm.entry (f : IxForm) (i j : Nat) : Nat :=
  match f.layout with
  | 0 => i * f.fb' + j
  | 1 => i * (i - 1) / 2 + j
  | _ => i * (i + 1) / 2 + j

/-- Entries per sample (R222). -/
def IxForm.entries (f : IxForm) : Nat :=
  match f.layout with
  | 0 => f.fa * f.fb'
  | 1 => f.fa * (f.fa - 1) / 2
  | _ => f.fa * (f.fa + 1) / 2

/-- Bytes of an output entry. -/
def IxForm.esize (f : IxForm) : Nat := if f.bf16 then 2 else 4

/-- The output stride (R75, R222). -/
def IxForm.stride (f : IxForm) (align : Nat) : Nat := outStride (f.entries * f.esize) align

/-- A tile (u, v) holds a product (R223). -/
def IxForm.holds (f : IxForm) (u v : Nat) : Bool :=
  let t := f.tile
  decide (u * t.1 < f.fa) && decide (v * t.2 < f.fb') && f.wants (min (f.fa - 1) (u * t.1 + t.1 - 1)) (v * t.2)

/-- The tiles of one sample, in ascending u and v (R223). -/
def IxForm.sampleTiles (f : IxForm) : List (Nat × Nat) :=
  let t := f.tile
  (List.range (ceilDiv f.fa t.1)).flatMap (fun u =>
    ((List.range (ceilDiv f.fb' t.2)).filter (fun v => f.holds u v)).map (fun v => (u, v)))

/-- Every tile of a command, numbered from 0 (R223). -/
def IxForm.tiles (f : IxForm) : List Tile :=
  let ts := f.sampleTiles
  (List.range f.samples).flatMap (fun s => ts.zipIdx.map (fun p => { n := s * ts.length + p.2, sample := s, u := p.1.1, v := p.1.2 }))

/-- The command keeps tiles in their slots from or for another (R224). -/
def IxForm.chained (f : IxForm) : Bool := f.hold || f.accumulate

/-- The die of a tile: ACC_DIE with HOLD or ACCUMULATE; else dies in turn. Log 55. -/
def IxForm.dieOf (f : IxForm) (e : Eng) (n : Nat) : Nat := if f.chained then f.die else n % e.variant.computeDies

/-- The slot of a tile (R224). -/
def IxForm.slotOf (f : IxForm) (n : Nat) : Nat := f.base + n % max 1 f.count

/-- The accumulator tile slot of a die. -/
def accSlot (e : Eng) (die slot : Nat) : AccSlot := Tab.get {} e.ix.slots (512 * die + slot)

/-- The checks before the held slots (R248 details 1 to 5). -/
def ixFields (e : Eng) (f : IxForm) : Option Refuse :=
  firstFail [
    (dimOk f.dim f.code, interactBad 1),
    (decide (f.fmt ≤ 4), interactBad 2),
    (decide (1 ≤ f.fa ∧ f.fa ≤ 128 ∧ f.fb ≤ 128 ∧ 1 ≤ f.samples ∧ f.samples ≤ 2 ^ 20 ∧ 1 ≤ f.count ∧ f.count ≤ 512), interactBad 3),
    (decide (f.shape ≤ 2 ∧ f.layout ≤ 2) && (f.layout == 0 || f.fb == 0), interactBad 4),
    (decide (f.base + f.count ≤ 512) && (!f.chained || (decide (f.die < e.variant.computeDies) && f.samples == 1 &&
      decide (f.sampleTiles.length ≤ f.count))) && decide (f.die < e.variant.computeDies), interactBad 5)]

/-- The checks after them (R248 details 7 and 9). -/
def ixFlags (f : IxForm) : Option Refuse :=
  firstFail [
    (!(f.rotate && f.quant) && !(f.rotated && !f.quant) && !(f.integer && (!f.quant || f.asym)) &&
      !(f.slotScale && (f.quant || f.asym)), interactBad 7),
    (aligned64 f.a && aligned64 f.b && aligned64 f.out, interactBad 9)]

/-- Every slot an ACCUMULATE command uses is held, and matches (R226). -/
def ixHeld (e : Eng) (f : IxForm) : Bool :=
  !f.accumulate || (List.range f.sampleTiles.length).all (fun n =>
    let a := accSlot e f.die (f.slotOf n)
    a.held && a.shape == f.shape && a.dim == f.dim && a.group == f.code && a.integer == f.integer)

/-! ## Operands (R218 to R220) -/

/-- Bytes of a Q8 vector (R203). -/
def q8Size (dim code : Nat) : Nat := align64 (4 + 4 * (dim / groupOf code) + dim)

/-- The spans of vector `v` of an operand set of `n` vectors (R218). -/
def ixSpans (f : IxForm) (base n v : Nat) : List (Nat × Nat) :=
  match f.fmt with
  | 0 => let z := q8Size f.dim f.code; [(base + v * z, z)]
  | 1 =>
    let a := splitData f.dim
    let b := splitScale f.asym f.dim (groupOf f.code)
    [(base + v * a, a), (base + align64 (n * a) + v * b, b)]
  | k => let z := f.dim * fmtSize k; [(base + v * align64 z, z)]

/-- What reading one vector gives: the vector; the wrong basis or groups (R220); a skew error (R213). -/
inductive OpRead
  | ok (v : OpVec) (clipped : Bool)
  | mismatch
  | skew
  deriving DecidableEq, Repr

/-- A vector from its groups. -/
def opVec (scale2 : Nat) (gs : List OpGroup) : OpVec :=
  { scale2, codes := gs.map (·.code), zeros := gs.map (·.zero), sums := gs.map (·.sum), elems := gs.flatMap (·.elems), refused := false }

/-- Group entries of 4 bytes, then elements (R203). -/
def readGroups (n g : Nat) (entries elems : List Byte) : List OpGroup :=
  (List.range n).map (fun k =>
    { code := num entries (4 * k) 1, zero := sext 8 (num entries (4 * k + 1) 1), sum := sext 16 (num entries (4 * k + 2) 2)
      elems := (slice elems (k * g) g).map (fun b => sext 8 b.toNat) })

/-- A Q8 vector (R203, R220). -/
def readQ8 (f : IxForm) (bs : List Byte) : OpRead :=
  let g := groupOf f.code
  let n := f.dim / g
  if num bs 3 1 ≠ f.code ∨ bit (num bs 2 1) 1 ≠ f.rotated ∨ (f.integer ∧ bit (num bs 2 1) 0) then .mismatch
  else .ok (opVec (num bs 0 2) (readGroups n g (bs.drop 4) (bs.drop (4 + 4 * n)))) false

/-- A split pair (R212, R213, R220): data block, then scale block. A split scale block carries no group_code; its layout is
the descriptor's. Its ROTATED flag must be the descriptor's. -/
def readSplit (f : IxForm) (v : Nat) (bs : List Byte) : OpRead :=
  let g := groupOf f.code
  let n := f.dim / g
  let s := bs.drop (splitData f.dim)
  if num bs 0 1 ≠ v % 256 ∨ num s 0 1 ≠ v % 256 then .skew
  else if bit (num s 1 1) 1 ≠ f.rotated ∨ (f.integer ∧ bit (num s 1 1) 0) then .mismatch
  else if f.asym then .ok (opVec (num s 2 2) (readGroups n g (s.drop 8) (bs.drop 8))) false
  else
    let gs := (List.range n).map (fun k =>
      let q := (slice bs (8 + k * g) g).map (fun b => sext 8 b.toNat)
      ({ code := num s (8 + k) 1, zero := 0, sum := q.foldl (· + ·) 0, elems := q } : OpGroup))
    .ok (opVec (num s 2 2) gs) false

/-- A vector of free values: R202 states no encoding of a vector with a non-finite value. Log 56. -/
def freeVec (dim g bad : Nat) (e : Eng) : OpVec × Eng :=
  let n := dim / g
  let r := freeBytes (2 + 4 * n + dim) (count Ctr.quNonfinite bad e)
  (opVec (num r.1 0 2) (readGroups n g (r.1.drop 2) (r.1.drop (2 + 4 * n))), r.2)

/-- Encode one float vector (R219, R239 step 1): its layout, or none where the slot's policy refuses it, and whether it
clipped or flushed. -/
def encodeVec (asym slotScale : Bool) (slot step g : Nat) (v : List FV) (e : Eng) : (OpVec × Bool) × Eng :=
  if asym then
    if v.all (·.finite) then
      let t := ((encAsym g v).run {}).2
      let q := tallied (encAsym g v) e
      ((opVec q.1.1 q.1.2, decide (0 < t.flushed)), q.2)
    else
      let q := freeVec v.length g (v.countP (fun x => !x.finite)) e
      ((q.1, false), q.2)
  else if slotScale then
    let q := encSlot slot step .int8 g v e
    match q.1.block with
    | some b =>
      let gs := ((pieces g (b.elems.map (sext 8))).zip b.codes).map (fun p =>
        ({ code := p.2, zero := 0, sum := p.1.foldl (· + ·) 0, elems := p.1 } : OpGroup))
      ((opVec b.scale2 gs, q.1.clipped), q.2)
    | none => (({ scale2 := 0, codes := [], zeros := [], sums := [], elems := [], refused := true }, false), q.2)
  else
    let t := ((encSym g v).run {}).2
    let q := tallied (encSym g v) e
    ((opVec q.1.1 q.1.2, decide (0 < t.flushed + t.clipped)), q.2)

/-- One vector from its bytes. -/
def readVec (f : IxForm) (step v : Nat) (bs : List Byte) (e : Eng) : OpRead × Eng :=
  match f.fmt with
  | 0 => (readQ8 f bs, e)
  | 1 => (readSplit f v bs, e)
  | k =>
    let r := tallied (do
      let x ← mapN rnd32 (fmtFloats k bs)
      if f.rotate then rotate (groupOf f.code) x else pure x) e
    let q := encodeVec f.asym f.slotScale f.slot step (groupOf f.code) r.1 r.2
    (.ok q.1.1 q.1.2, q.2)

/-- How reading a sample's vectors ends; a block whose tags do not match, with the vectors paired before it. -/
inductive SampleRead
  | ok (a b : List OpVec) (bits : Nat)
  | mismatch
  | skew (setB : Bool) (block : Nat) (a b : List OpVec)
  deriving DecidableEq, Repr

/-- Read vectors in order; status bits CLIPPED and SCALE_REFUSED gather. -/
def readVecs (f : IxForm) (step : Nat) (setB : Bool) : List (Nat × List Byte) → List OpVec → Nat → Eng → SampleRead × Eng
  | [], acc, bits, e => (.ok acc [] bits, e)
  | (v, bs) :: t, acc, bits, e =>
    let r := readVec f step v bs e
    match r.1 with
    | .mismatch => (.mismatch, r.2)
    | .skew => (.skew setB v acc [], r.2)
    | .ok x c => readVecs f step setB t (acc ++ [x]) (bits ||| flag c 4 ||| flag x.refused 6) r.2

/-- Read and encode both operand sets of a sample, once (R219); `old` are the vectors paired before a stall or a halt (R307). -/
def readSample (f : IxForm) (step s : Nat) (old : List OpVec × List OpVec) (as bs : List (List Byte)) (e : Eng) : SampleRead × Eng :=
  let number := fun (n : Nat) (xs : List (List Byte)) (was : List OpVec) => xs.zipIdx.map (fun p => (s * n + was.length + p.2, p.1))
  let a := readVecs f step false (number f.fa as old.1) old.1 0 e
  match a.1 with
  | .ok va _ bits =>
    if f.fb = 0 then (.ok va va bits, a.2)
    else
      let b := readVecs f step true (number f.fb bs old.2) old.2 bits a.2
      match b.1 with
      | .ok vb _ bits => (.ok va vb bits, b.2)
      | .skew _ k vb _ => (.skew true k va vb, b.2)
      | .mismatch => (.mismatch, b.2)
  | x => (x, a.2)

/-! ## Arithmetic (R204, R228 to R230) -/

/-- The raw integer dot product of group `k`. -/
def rawDot (g k : Nat) (a b : OpVec) : Int :=
  ((slice' a.elems (k * g) g).zip (slice' b.elems (k * g) g)).foldl (fun s p => s + p.1 * p.2) 0
where
  /-- Elements from offset `o`. -/
  slice' (l : List Int) (o n : Nat) : List Int := (l.drop o).take n

/-- The integer of group `k` by R204, from the sums the vectors carry. -/
def groupDot (g k : Nat) (a b : OpVec) : Int :=
  let za := a.zeros.getD k 0
  let zb := b.zeros.getD k 0
  rawDot g k a b - zb * a.sums.getD k 0 - za * b.sums.getD k 0 + g * za * zb

/-- A group is a zero group in either operand (R229). -/
def zeroGroup (k : Nat) (a b : OpVec) : Bool := nth a.codes k == 255 || nth b.codes k == 255

/-- The exact value of group `k` in FLOAT mode (R228). -/
def groupValue (g k : Nat) (a b : OpVec) : FV :=
  ((ofInt (groupDot g k a b)).scale (-((nth a.codes k + nth b.codes k : Nat) : Int))).mul ((ofBf16 a.scale2).mul (ofBf16 b.scale2))

/-- The groups of part `p` (R228). -/
def partGroups (n parts p : Nat) : List Nat := (List.range (((p + 1) * n) / parts - p * n / parts)).map (fun k => p * n / parts + k)

/-- One part in FLOAT mode. -/
def floatPart (g : Nat) (a b : OpVec) (ks : List Nat) : N FV :=
  ks.foldlM (fun s k => if zeroGroup k a b then pure s else add32 s (groupValue g k a b)) .zero

/-- Parts combined in pairs, in order (R228). -/
def combineParts : List FV → N FV
  | [] => pure .zero
  | [a] => pure a
  | [a, b] => add32 a b
  | [a, b, c, d] => do
    let x ← add32 a b
    let y ← add32 c d
    add32 x y
  | a :: _ => pure a

/-- The combined value of a product in FLOAT mode. -/
def floatProduct (f : IxForm) (a b : OpVec) : N FV := do
  let g := groupOf f.code
  let ps ← mapN (fun p => floatPart g a b (partGroups (f.dim / g) f.parts p)) (List.range f.parts)
  combineParts ps

/-- The combined value of a product in INTEGER mode, and whether it clamped (R230). -/
def intProduct (f : IxForm) (a b : OpVec) : Int × Bool :=
  let g := groupOf f.code
  let part := fun (p : Nat) => (partGroups (f.dim / g) f.parts p).foldl (fun (s : Int × Bool) k =>
    let r := satAdd s.1 (rawDot g k a b)
    (r.1, s.2 || r.2)) (0, false)
  let add := fun (x y : Int × Bool) => let r := satAdd x.1 y.1; (r.1, x.2 || y.2 || r.2)
  match (List.range f.parts).map part with
  | [x] => x
  | [x, y] => add x y
  | [x, y, z, w] => add (add x y) (add z w)
  | _ => (0, false)

/-- An accumulator word as a whole number. -/
def wordInt (w : Word) : Int := sext 32 w.toNat

/-- The vector of a row or column; rows past the operand set are zero vectors, whose products are discarded. -/
def vecAt (l : List OpVec) (k : Nat) : OpVec :=
  l.getD k { scale2 := 0x3F80, codes := [], zeros := [], sums := [], elems := [], refused := false }

/-- The 256 entries of a tile at its close (R225, R228, R230), and whether one clamped. -/
def tileValues (f : IxForm) (t : Tile) (as bs : List OpVec) (old : AccSlot) : N (List Word × Bool) := do
  let sz := f.tile
  let ws ← mapN (fun k => do
    let i := t.u * sz.1 + k / sz.2
    let j := t.v * sz.2 + k % sz.2
    let a := vecAt as i
    let b := vecAt bs j
    let prev := old.vals.getD k 0
    if f.integer then
      let p := intProduct f a b
      let r := if f.accumulate then satAdd (wordInt prev) p.1 else (p.1, false)
      return (BitVec.ofNat 32 (twos 32 r.1), p.2 || r.2)
    else
      let p ← floatProduct f a b
      let q ← if f.accumulate then add32 (ofWord prev) p else pure p
      return (toWord q, false)) (List.range 256)
  return (ws.map (·.1), ws.any (·.2))

/-- Zero groups skipped for the products of a tile (R229, R251). Log 55. -/
def tileSkips (f : IxForm) (t : Tile) (as bs : List OpVec) : Nat :=
  if f.integer then 0
  else
    let sz := f.tile
    (List.range 256).foldl (fun n k =>
      let i := t.u * sz.1 + k / sz.2
      let j := t.v * sz.2 + k % sz.2
      if f.wants i j then n + (List.range (f.dim / groupOf f.code)).countP (fun g => zeroGroup g (vecAt as i) (vecAt bs j)) else n) 0

/-! ## Starting -/

/-- The work of a running INTERACT. -/
def ixWork (c : RunCmd) : Option IxWork :=
  match c.work with
  | .interact w => some w
  | _ => none

/-- Two commands' slot ranges overlap on a die (R227). -/
def ixOverlap (f g : IxForm) : Bool :=
  overlaps f.base f.count g.base g.count && (!f.chained || !g.chained || f.die == g.die)

/-- An earlier INTERACT that runs or waits has slots in common (R227). -/
def ixBefore (e : Eng) (id : Nat) (f : IxForm) : Bool :=
  e.hl.cmds.any (fun o => decide (o.id < id) && o.done.isNone && !o.carried && opcode o.desc == 0x40 &&
    ((ixWork o).isSome || o.work == .blocked) && ixOverlap f (ixForm o.desc))

/-- Free split-operand slots (R277). -/
def splitFree (e : Eng) : List Nat := ((List.range 8).map (· + 248)).filter (fun n => (stSlot e n).split.isNone)

/-- INTERACT of an accepted command (R221 to R227, R277). -/
def opInteract (id : Nat) (e : Eng) : Eng :=
  match findCmd e id with
  | none => e
  | some c =>
    if !stepKnown e then park id e
    else if (ixWork c).isSome then e
    else
      let f := ixForm c.desc
      let need := if f.fmt = 1 then (if f.fb = 0 then 1 else 2) else 0
      match ixFields e f with
      | some r => refuseWith id r e
      | none =>
        if ixBefore e id f || decide ((splitFree e).length < need) then setWork id .blocked e
        else if !ixHeld e f then refuseWith id (interactBad 6) e
        else match ixFlags f with
          | some r => refuseWith id r e
          | none =>
            let ns := (splitFree e).take need
            let e := ns.zipIdx.foldl (fun e p => setSlot p.1 (fun s =>
              { s with gen := s.gen + 1, split := some { cmdId := id, halted := none } }) e) e
            setWork id (.interact { tiles := f.tiles, vecs := [], status := [], slots := ns, align := alignOf c.align, halted := false }) e

/-! ## Closing tiles (R225, R231) -/

/-- Change the work of an INTERACT. -/
def setIx (id : Nat) (g : IxWork → IxWork) (e : Eng) : Eng :=
  setCmd id (fun c => match c.work with | .interact w => { c with work := .interact (g w) } | _ => c) e

/-- Give the status bits of a sample. -/
def ixStatus (id s bits : Nat) (e : Eng) : Eng := setIx id (fun w => { w with status := Tab.modify 0 w.status s (· ||| bits) }) e

/-- Release the split-operand slots of a command. -/
def releaseSplits (id : Nat) (e : Eng) : Eng :=
  { e with st := { e.st with slots := e.st.slots.map (fun s => (s.1, { s.2 with split := s.2.split.filter (fun x => x.cmdId != id) })) } }

/-- Set an accumulator slot. -/
def setAcc (die slot : Nat) (a : AccSlot) (e : Eng) : Eng :=
  { e with ix := { e.ix with slots := Tab.set e.ix.slots (512 * die + slot) a } }

/-- A free shadow slot of a die. -/
def freeShadow (e : Eng) (die : Nat) : Option Nat :=
  ((List.range 8).map (fun k => 8 * die + k)).find? (fun k => !(Tab.get {} e.ix.shadows k).busy)

/-- A closed tile's slot and a free shadow slot of its die exchange their storage, or it waits for one (R225). -/
def takeShadow (e : Eng) (d : DrainWait) : Eng :=
  match freeShadow e d.die with
  | some k =>
    let was := Tab.get {} e.ix.shadows k
    setAcc d.die d.slot { was.acc with held := false } { e with ix := { e.ix with shadows := Tab.set e.ix.shadows k d.body } }
  | none => { e with ix := { e.ix with drains := e.ix.drains ++ [d] } }

/-- Free shadow slots go to the closed tiles that wait for them, in the order of their closes. -/
def feedShadows (e : Eng) : Eng := e.ix.drains.foldl takeShadow { e with ix := { e.ix with drains := [] } }

/-- What a command still had to drain is given up. -/
def dropDrains (id : Nat) (e : Eng) : Eng :=
  feedShadows { e with ix := { e.ix with
    shadows := e.ix.shadows.map (fun s => (s.1, if s.2.cmdId = id ∧ s.2.busy then { s.2 with busy := false } else s.2))
    drains := e.ix.drains.filter (fun d => d.body.cmdId != id) } }

/-- An INTERACT ends: its shadows and split slots are free. The record of one with split operands carries the generation of its
first slot (R369). -/
def ixEnd (c : RunCmd) (r : Rec) (e : Eng) : Eng := releaseSplits c.id (dropDrains c.id (finishSlot c r e))

/-- The completion record (R100, R248). -/
def ixRec (w : IxWork) : Rec :=
  let p := w.status.countP (fun s => bit s.2 0)
  let q := w.status.countP (fun s => bit s.2 6)
  if 0 < p then { status := Status.poisoned, count := p }
  else if 0 < q then { status := Status.scaleRefused, count := q }
  else {}

/-- Closed tiles of a command that drain or wait to drain. -/
def ixDrains (e : Eng) (id : Nat) : List Shadow :=
  (e.ix.shadows.map (·.2)).filter (fun s => s.busy && s.cmdId == id) ++ (e.ix.drains.map (·.body)).filter (fun s => s.cmdId == id)

/-- The status array (R75, R222). -/
def ixStatusWrite (f : IxForm) (w : IxWork) : HWrite :=
  ⟨f.out + align64 (f.samples * f.stride w.align), (List.range f.samples).map (fun s => BitVec.ofNat 8 (Tab.get 0 w.status s))⟩

/-- The command is over if no tile is to come or to drain: its status array is written. False where that waits. -/
def ixFinish (id : Nat) (e : Eng) : Eng :=
  match findCmd e id with
  | some c =>
    match ixWork c with
    | some w =>
      if !w.tiles.isEmpty || !(ixDrains e id).isEmpty then e
      else
        let q := writeHost id [ixStatusWrite (ixForm c.desc) w] e
        if q.2 then ixEnd c (ixRec w) q.1 else q.1
    | none => e
  | none => e

/-- The slot of the next tile still holds a closed one: the tile waits, and is counted once (R225, R251). -/
def stallTile (id : Nat) (w : IxWork) (e : Eng) : Eng :=
  if w.stalled then e else count Ctr.ixShadowStalls 1 (setIx id (fun w => { w with stalled := true }) e)

/-- Close the next tile of a command whose vectors are there: its slot takes the combined value, and drains unless it is held. -/
def closeTile (c : RunCmd) (f : IxForm) (t : Tile) (as bs : List OpVec) (bad : Nat) (e : Eng) : Eng :=
  let die := f.dieOf e t.n
  let n := f.slotOf t.n
  let old := accSlot e die n
  let e := counts [(Ctr.ixTilesRecomputed, if bad = 0 then 0 else 1), (Ctr.ixGroupsSkipped, tileSkips f t as bs)] e
  let r := tallied (tileValues f t as bs old) e
  let a : AccSlot :=
    { held := f.hold, shape := f.shape, dim := f.dim, group := f.code, integer := f.integer
      sat := r.1.2 || (f.accumulate && old.sat), poisoned := decide (2 ≤ bad) || (f.accumulate && old.poisoned), vals := r.1.1 }
  let e := setAcc die n a (setIx c.id (fun w => { w with tiles := w.tiles.drop 1, stalled := false }) r.2)
  if f.hold then ixStatus c.id t.sample (flag a.poisoned 0) e
  else takeShadow e { die, slot := n, body := { busy := true, cmdId := c.id, tile := t, acc := a } }

/-- A closed tile waits in the slot of a tile. -/
def slotDraining (e : Eng) (die slot : Nat) : Bool := e.ix.drains.any (fun d => d.die == die && d.slot == slot)

/-- Change an operand slot's pairing. -/
def setSplit (n : Nat) (g : Split → Split) (e : Eng) : Eng := setSlot n (fun s => { s with split := s.split.map g }) e

/-- Blocks whose tags do not match: the pairing stalls, and a mismatch that is still there when the operands are read again halts the
operand slot (R213, R307). What was paired stays paired. Log 143. -/
def ixSkew (c : RunCmd) (w : IxWork) (setB : Bool) (block : Nat) (paired : List OpVec × List OpVec) (e : Eng) : Eng :=
  let n := nth w.slots (if setB then 1 else 0)
  let stall := (stSlot e n).split.bind (·.stall)
  let e := setIx c.id (fun w => { w with paired }) e
  if stall = some block then
    let e := setSplit n (fun x => { x with halted := some block, stall := none }) (setIx c.id (fun w => { w with halted := true }) e)
    raiseEvent { kind := Kind.scaleSkew, arg0 := block, arg1 := n + at_ 0xFF 8 } (count Ctr.quSkewErr 1 e)
  else count Ctr.quSkewStalls 1 (setSplit n (fun x => { x with stall := some block }) e)

/-- The spans of a sample's vectors, from the first one not yet paired in each operand set. -/
def sampleSpans (f : IxForm) (s : Nat) (old : List OpVec × List OpVec) : List (Nat × Nat) :=
  let sp := fun (base k : Nat) (was : List OpVec) =>
    ((List.range k).drop was.length).flatMap (fun i => ixSpans f base (f.samples * k) (s * k + i))
  sp f.a f.fa old.1 ++ (if f.fb = 0 then [] else sp f.b f.fb old.2)

/-- The vectors of a sample, read once (R219); none where the command waits, halts or ends. -/
def ixVectors (c : RunCmd) (f : IxForm) (w : IxWork) (s : Nat) (e : Eng) : Eng × Option (List OpVec × List OpVec) :=
  match w.vecs.find? (fun v => v.1 == s) with
  | some v => (e, some v.2)
  | none =>
    if f.slotScale && slotBusy e c.id c.step f.slot then (e, none)
    else
      let q := readHost (.cmd c.id) (sampleSpans f s w.paired) e
      match q.2 with
      | none => (q.1, none)
      | some ls =>
        let vs := if f.fmt = 1 then (pieces 2 ls).map List.flatten else ls
        let na := f.fa - w.paired.1.length
        let r := readSample f c.step s w.paired (vs.take na) (vs.drop na) q.1
        match r.1 with
        | .mismatch => (ixEnd c { status := Status.interactInvalid, detail := 8 } r.2, none)
        | .skew setB k a b => (ixSkew c w setB k (a, b) r.2, none)
        | .ok a b bits =>
          let used := fun (v : Nat) => (ixDrains r.2 c.id).any (fun x => x.tile.sample == v)
          let e := w.slots.foldl (fun e n => setSplit n (fun x => { x with stall := none }) e) r.2
          let e := setIx c.id (fun w => { w with vecs := (s, a, b) :: w.vecs.filter (fun v => used v.1), paired := ([], []) }) e
          (ixStatus c.id s bits e, some (a, b))

/-- TILE_CLOSE: the reduction of the next tile of a command completes; `bad` checks of it failed (R225, R231). -/
def opTileClose (ring : Nat) (seq : Word) (bad : Nat) (e : Eng) : Eng :=
  match e.hl.cmds.find? (fun c => c.ring == ring && c.seq == seq && (ixWork c).isSome && !c.carried) with
  | none => e
  | some c =>
    match ixWork c with
    | none => e
    | some w =>
      match w.tiles with
      | [] => ixFinish c.id e
      | t :: _ =>
        let f := ixForm c.desc
        if w.halted || shutOut e .compute (f.dieOf e t.n) 16 then e
        else if slotDraining e (f.dieOf e t.n) (f.slotOf t.n) then stallTile c.id w e
        else
          let v := ixVectors c f w t.sample e
          match v.2 with
          | some (a, b) => ixFinish c.id (closeTile c f t a b bad v.1)
          | none => v.1

/-! ## Draining (R225, R230, R231) -/

/-- The bytes of one product as it is drained. -/
def drainBytes (f : IxForm) (a : AccSlot) (w : Word) : N (List Byte) := do
  if a.poisoned then return if f.bf16 then leBytes 2 0x7FC0 else leBytes 4 0x7FC00000
  let x := if f.integer then (ofInt (wordInt w)).mul f.scale else ofWord w
  if f.bf16 then do
    let y ← rnd fmtBf16 x
    return leBytes 2 (toBf16 y)
  else do
    let y ← rnd32 x
    return leBytes 4 (toWord y).toNat

/-- The products of a tile to write: entry index and place in the tile, but for those of refused vectors. -/
def drainList (f : IxForm) (t : Tile) (as bs : List OpVec) : List (Nat × Nat) :=
  let sz := f.tile
  (List.range 256).filterMap (fun k =>
    let i := t.u * sz.1 + k / sz.2
    let j := t.v * sz.2 + k % sz.2
    if f.wants i j ∧ !(vecAt as i).refused ∧ !(vecAt bs j).refused then some (f.entry i j, k) else none)

/-- SHADOW_DRAIN_DONE: a shadow slot writes its products and becomes free, for the next tile that waits. It waits while an output does not translate. -/
def opShadowDrain (die slot : Nat) (e : Eng) : Eng :=
  let k := 8 * die + slot
  let s := Tab.get {} e.ix.shadows k
  if !s.busy ∨ 8 ≤ slot ∨ shutOut e .compute die 16 then e
  else match findCmd e s.cmdId with
    | none => e
    | some c =>
      match ixWork c with
      | none => e
      | some w =>
        let f := ixForm c.desc
        let v := (w.vecs.find? (fun v => v.1 == s.tile.sample)).map (·.2)
        let ps := drainList f s.tile ((v.map (·.1)).getD []) ((v.map (·.2)).getD [])
        let r := tallied (mapN (fun (p : Nat × Nat) => do
          let b ← drainBytes f s.acc (s.acc.vals.getD p.2 0)
          return (⟨f.out + s.tile.sample * f.stride w.align + p.1 * f.esize, b⟩ : HWrite)) ps) e
        let q := writeHost c.id r.1 e
        if !q.2 then q.1
        else
          let e := (tallied (mapN (fun p => drainBytes f s.acc (s.acc.vals.getD p.2 0)) ps) q.1).2
          let e := counts [(Ctr.ixProducts, ps.length), (Ctr.ixTilesSaturated, if s.acc.sat then 1 else 0)] e
          let e := ixStatus c.id s.tile.sample (flag s.acc.poisoned 0 ||| flag s.acc.sat 1) e
          ixFinish c.id (feedShadows { e with ix := { e.ix with shadows := Tab.set e.ix.shadows k { s with busy := false } } })

/-! ## Halted operand slots (R307, R308) -/

/-- RESUME of a halted operand slot: pairing restarts at its block. -/
def resumeSplit (slot : Nat) (e : Eng) : Eng :=
  match (stSlot e slot).split with
  | none => e
  | some x =>
    setIx x.cmdId (fun w => { w with halted := false })
      (setSplit slot (fun y => { y with halted := none }) e)

/-- CANCEL of an operand slot: its INTERACT completes with STREAM_CANCELLED. -/
def cancelSplit (slot : Nat) (e : Eng) : Eng :=
  match (stSlot e slot).split with
  | none => e
  | some x => (match findCmd e x.cmdId with
    | some c => ixEnd c { status := Status.streamCancelled } e
    | none => e)

end Sys2Proof.Machine
end

