-- ==== Sys2Proof/Machine/Select.lean ====
section
/-! DEFINITION. TOPK, DISPATCH and COMBINE (chapter 07, R233 to R247). -/

namespace Sys2Proof.Machine

/-! ## The selection order (R234) -/

/-- A candidate: its value, its bits as FP32, and its position. -/
structure Cand where
  val : FV
  bits : Word
  pos : Nat
  deriving DecidableEq, Repr

/-- Candidate `a` ranks before `b`. −0 equals +0. -/
def ranksBefore (smallest : Bool) (a b : Cand) : Bool :=
  let less := fun (x y : FV) => if smallest then x.lt y else y.lt x
  less a.val b.val || (!less b.val a.val && decide (a.pos < b.pos))

/-- Put a candidate in its place among at most `k`. -/
def insertCand (smallest : Bool) (k : Nat) (x : Cand) (l : List Cand) : List Cand :=
  let before := l.takeWhile (fun y => ranksBefore smallest y x)
  (before ++ x :: l.drop before.length).take k

/-- The best `k` candidates, best first. -/
def bestOf (smallest : Bool) (k : Nat) (l : List Cand) : List Cand := l.foldl (fun a x => insertCand smallest k x a) []

/-! ## TOPK (R233 to R235) -/

/-- TOPK_INVALID with a detail. -/
def topkBad (detail : Nat) : Refuse := { status := Status.topkInvalid, detail }

/-- Bytes of a candidate. -/
def topkSize (d : Desc) : Nat := if num d 16 1 = 0 then 4 else 2

/-- The checks of a TOPK (R248). -/
def topkFields (d : Desc) : Option Refuse :=
  let n := num d 24 4 + 1
  firstFail [
    (decide (num d 16 1 ≤ 1), topkBad 2),
    (decide (1 ≤ num d 18 2 ∧ num d 18 2 ≤ 256 ∧ 1 ≤ num d 20 4 ∧ num d 20 4 ≤ 65536), topkBad 3),
    (aligned64 (num d 32 8) && aligned64 (num d 40 8), topkBad 9),
    (decide (num d 28 4 + n ≤ 2 ^ 32), topkBad 0xA),
    (num d 20 4 == 1 || (aligned64 (num d 48 8) && decide (n * topkSize d ≤ num d 48 8)), topkBad 0xD)]

/-- The candidates of a row. -/
def topkCands (d : Desc) (bs : List Byte) : List Cand :=
  (pieces (topkSize d) bs).zipIdx.map (fun p =>
    let v := if topkSize d = 4 then fromBits 8 23 (leNat p.1) else ofBf16 (leNat p.1)
    { val := v, bits := if topkSize d = 4 then BitVec.ofNat 32 (leNat p.1) else BitVec.ofNat 32 (leNat p.1 * 2 ^ 16), pos := num d 28 4 + p.2 })

/-- The output of a row (R235), and its NaN count. -/
def topkRow (d : Desc) (bs : List Byte) : List Byte × Nat :=
  let cs := topkCands d bs
  let nan := cs.countP (fun c => c.val.isNan)
  let k := num d 18 2
  let best := bestOf (bit (num d 17 1) 0) k (cs.filter (fun c => !c.val.isNan))
  let out := leBytes 8 nan ++ leBytes 4 best.length ++ zeros 4 ++
    best.flatMap (fun c => leBytes 4 c.bits.toNat ++ leBytes 4 c.pos) ++
    (List.replicate (k - best.length) (leBytes 4 0x7FC00000 ++ leBytes 4 0xFFFFFFFF)).flatten
  (out, nan)

/-- TOPK of an accepted command. -/
def opTopk (id : Nat) (e : Eng) : Eng :=
  match findCmd e id with
  | none => e
  | some c =>
    let d := c.desc
    match topkFields d with
    | some r => refuseWith id r e
    | none =>
      let n := num d 24 4 + 1
      let rows := num d 20 4
      let stride := if rows = 1 then 0 else num d 48 8
      let q := readHost (.cmd id) ((List.range rows).map (fun r => (num d 32 8 + r * stride, n * topkSize d))) e
      match q.2 with
      | none => park id q.1
      | some ls =>
        let rs := ls.map (topkRow d)
        let step := align64 (16 + 8 * num d 18 2)
        let w := writeHost id (rs.zipIdx.map (fun p => (⟨num d 40 8 + p.2 * step, p.1.1⟩ : HWrite))) q.1
        if !w.2 then park id w.1
        else
          let nan := rs.foldl (fun a r => a + r.2) 0
          finishOk id (min nan (2 ^ 32 - 1)) (counts [(Ctr.seCandidates, rows * n), (Ctr.seNanExcluded, nan)] w.1)

/-! ## exp32 (R241) -/

/-- Terms of the exponential series at 400 fraction bits. -/
def expTerms : Nat → Nat → Int → Int → Int → Int
  | 0, _, _, _, s => s
  | f + 1, k, t, term, s =>
    let term := term * t / (2 ^ 400 * k)
    expTerms f (k + 1) t term (s + term)

/-- Squared `n` times at 400 fraction bits. -/
def squares : Nat → Int → Int
  | 0, s => s
  | n + 1, s => squares n (s * s / 2 ^ 400)

/-- exp32: e raised to an FP32 value, rounded once to FP32. At 400 fraction bits the value's error is far below half a
unit of FP32, and e^x is never a tie for x ≠ 0. Log 16. -/
def exp32 (x : FV) : N FV :=
  match x with
  | .nan => pure .nan
  | .inf n => pure (if n then .zero else .inf false)
  | .fin n m b =>
    if m = 0 then pure .one
    else if magLt 128 0 m b then pure (if n then .zero else fmt32.max false)
    else
      let t := signedAt n m (b + 392) (min 0 (b + 392)) / 2 ^ (-(min 0 (b + 392))).toNat
      let s := squares 8 (expTerms 100 1 t (2 ^ 400) (2 ^ 400))
      rndRat fmt32 false s.toNat 1 (-400)

/-! ## DISPATCH (R237 to R243) -/

/-- DISPATCH_INVALID with a detail. -/
def dispatchBad (detail : Nat) : Refuse := { status := Status.dispatchInvalid, detail }

/-- Parameters of a DISPATCH. -/
structure DpForm where
  dim : Nat
  code : Nat
  act : Nat
  experts : Nat
  choices : Nat
  gate : Nat
  gateBf : Bool
  asym : Bool
  slotScale : Bool
  pred : Bool
  slot : Nat
  tokens : Nat
  actAddr : Nat
  gateAddr : Nat
  mapAddr : Nat
  predAddr : Nat
  deriving DecidableEq, Repr

/-- The parameters of a descriptor (R237). -/
def dpForm (d : Desc) : DpForm :=
  let g := num d 23 1
  let f := num d 24 1
  { dim := num d 16 2, code := num d 18 1, act := num d 19 1, experts := num d 20 2, choices := num d 22 1, gate := fld g 0 2
    gateBf := bit g 2, asym := bit f 0, slotScale := bit f 1, pred := bit f 2, slot := fld (num d 26 2) 0 10
    tokens := num d 28 4, actAddr := num d 32 8, gateAddr := num d 40 8, mapAddr := num d 48 8, predAddr := num d 56 8 }

/-- The checks of a DISPATCH (R248). -/
def dpFields (f : DpForm) : Option Refuse :=
  firstFail [
    (dimOk f.dim f.code, dispatchBad 1),
    (decide (2 ≤ f.act ∧ f.act ≤ 4), dispatchBad 2),
    (decide (1 ≤ f.experts ∧ f.experts ≤ 4096 ∧ 1 ≤ f.choices ∧ f.choices ≤ 16 ∧ f.choices ≤ f.experts ∧ 1 ≤ f.tokens ∧ f.tokens ≤ 2 ^ 20),
      dispatchBad 3),
    (!(f.asym && f.slotScale), dispatchBad 7),
    (aligned64 f.actAddr && aligned64 f.gateAddr && aligned64 f.mapAddr && aligned64 f.predAddr, dispatchBad 9),
    (decide (f.gate ≤ 2), dispatchBad 0xB)]

/-- An entry of the expert map (R238). -/
structure Expert where
  node : Nat
  inSky : Nat
  retSky : Nat
  capacity : Nat
  inOff : Nat
  retOff : Nat
  deriving DecidableEq, Repr

/-- Expert `k` of a map. -/
def expertAt (m : List Byte) (k : Nat) : Expert :=
  let o := 32 * k
  { node := num m o 4, inSky := num m (o + 4) 1, retSky := num m (o + 5) 1, capacity := num m (o + 8) 4
    inOff := num m (o + 16) 8, retOff := num m (o + 24) 8 }

/-- Entry `k` keeps R238 (MAP_INVALID otherwise). -/
def expertOk (e : Eng) (c : Conf) (m : List Byte) (k : Nat) : Bool :=
  let x := expertAt m k
  (jobMembers e c).contains x.node && decide (x.capacity ≤ 2 ^ 20) && allZero m (32 * k + 6) 2 && allZero m (32 * k + 12) 4 &&
    decide (x.inOff < 2 ^ 48) && decide (x.retOff < 2 ^ 48)

/-- The bytes of a predicate bitmap. -/
def predBytes (n : Nat) : Nat := (n + 7) / 8

/-- Token `t` is live (R70). -/
def tokenLive (pred : Bool) (bm : List Byte) (t : Nat) : Bool := !pred || bit (num bm (t / 8) 1) (t % 8)

/-- What DISPATCH has of one token before capacity: its encoded vector, and its choices with their weights. -/
structure Routing where
  live : Bool
  vec : Option (List Byte)
  picks : List (Nat × Word)
  deriving DecidableEq, Repr

/-- The logits of a token as candidates, experts as positions. -/
def logits (f : DpForm) (bs : List Byte) : List Cand :=
  (pieces (if f.gateBf then 2 else 4) bs).zipIdx.map (fun p =>
    let v := if f.gateBf then ofBf16 (leNat p.1) else fromBits 8 23 (leNat p.1)
    { val := v, bits := toWord v, pos := p.2 })

/-- A logit takes part (R239 step 2). -/
def logitOk (f : DpForm) (c : Cand) : Bool := if f.gate = 0 then !c.val.isNan else c.val.finite

/-- Gate weights of the chosen logits (R241). -/
def gateWeights (f : DpForm) (valid best : List Cand) : N (List Word) :=
  match best with
  | [] => pure []
  | x0 :: _ =>
    if f.gate = 0 then pure (best.map (·.bits))
    else do
      let ex := fun (c : Cand) => do
        let d ← rnd32 (c.val.sub x0.val)
        exp32 d
      let among := if f.gate = 1 then best else valid
      let s ← among.foldlM (fun a c => do
        let y ← ex c
        add32 a y) FV.zero
      mapN (fun c => do
        let y ← ex c
        let w ← quotient fmt32 y s
        return toWord w) best

/-- The bytes of an encoded vector. -/
def vecBytes (asym rotated : Bool) (code : Nat) (v : OpVec) : List Byte :=
  let g := groupOf code
  let gs := (pieces g v.elems).zip (v.codes.zip (v.zeros.zip v.sums))
  operandBytes asym rotated g (v.scale2, gs.map (fun p => { code := p.2.1, zero := p.2.2.1, sum := p.2.2.2, elems := p.1 }))

/-- One token: encode its activation, choose its experts, weigh them (R239 steps 1 to 3). -/
def routeToken (f : DpForm) (step : Nat) (live : Bool) (act gate : List Byte) (e : Eng) : Routing × Eng :=
  if !live then ({ live, vec := none, picks := [] }, count Ctr.seTokensSkipped 1 e)
  else
    let r := tallied (do
      let x ← mapN rnd32 (fmtFloats f.act act)
      rotate (groupOf f.code) x) e
    let v := encodeVec f.asym f.slotScale f.slot step (groupOf f.code) r.1 r.2
    let ls := logits f gate
    let ok := ls.filter (logitOk f)
    let best := bestOf false f.choices ok
    let w := tallied (gateWeights f ok best) v.2
    let vec := if v.1.1.refused then none else some (vecBytes f.asym true f.code v.1.1)
    ({ live, vec, picks := (best.map (·.pos)).zip w.1 },
      counts [(Ctr.seNanExcluded, ls.length - ok.length), (Ctr.seTokensRouted, if v.1.1.refused then 0 else 1)] w.2)

/-- Tokens in order. -/
def routeTokens (f : DpForm) (step : Nat) : List (Bool × List Byte × List Byte) → Eng → List Routing × Eng
  | [], e => ([], e)
  | t :: ts, e =>
    let r := routeToken f step t.1 t.2.1 t.2.2 e
    let q := routeTokens f step ts r.2
    (r.1 :: q.1, q.2)

/-- Capacity (R239 step 4): the slot of every kept choice, as (token, rank, expert, slot), rank by rank, and the number
each expert has taken. -/
def assign (f : DpForm) (map : List Byte) (rs : List Routing) : List (Nat × Nat × Nat × Nat) × Tab Nat :=
  let order := (List.range f.choices).flatMap (fun r => rs.zipIdx.filterMap (fun p =>
    if p.1.vec.isSome then (p.1.picks[r]?).map (fun k => (p.2, r, k.1)) else none))
  order.foldl (fun a x =>
    let n := Tab.get 0 a.2 x.2.2
    if n < (expertAt map x.2.2).capacity then (a.1 ++ [(x.1, x.2.1, x.2.2, n)], Tab.set a.2 x.2.2 (n + 1)) else a) ([], [])

/-- The map entry of a choice (R240). -/
def choiceOf (kept : List (Nat × Nat × Nat × Nat)) (p : Nat × Routing) (r : Nat) : Choice :=
  let none' := 0xFFFFFFFF
  if !p.2.live then { expert := 0xFFFF, status := 3, slot := none', weight := 0 }
  else match p.2.picks[r]? with
    | none => { expert := 0xFFFF, status := 2, slot := none', weight := 0 }
    | some k =>
      if p.2.vec.isNone then { expert := k.1, status := 4, slot := none', weight := k.2 }
      else match kept.find? (fun x => x.1 == p.1 && x.2.1 == r) with
        | some x => { expert := k.1, status := 0, slot := x.2.2.2, weight := k.2 }
        | none => { expert := k.1, status := 1, slot := none', weight := k.2 }

/-- Bytes of an entry of the dispatch map. -/
def Choice.bytes (c : Choice) : List Byte :=
  leBytes 2 c.expert ++ leBytes 1 c.status ++ [0] ++ leBytes 4 c.slot ++ leBytes 4 c.weight.toNat ++ zeros 4

/-- rec_size (R242). -/
def recSize (f : DpForm) : Nat := align64 (20 + 4 * (f.dim / groupOf f.code) + f.dim)

/-- A record (R242). -/
def dispatchRecord (e : Eng) (f : DpForm) (t rank expert : Nat) (w : Word) (vec : List Byte) : List Byte :=
  let b := leBytes 4 t ++ leBytes 4 e.fb.node ++ leBytes 1 rank ++ [0] ++ leBytes 2 expert ++ leBytes 4 w.toNat ++ vec
  b.take (recSize f) ++ zeros (recSize f - b.length)

/-- A region header (R242). -/
def regionHeader (e : Eng) (c : RunCmd) (kept : Nat) : List Byte :=
  leBytes 6 c.step ++ zeros 2 ++ leBytes 4 e.fb.node ++ leBytes 4 c.seq.toNat ++ leBytes 4 kept ++ zeros 44

/-- Places of spans of this engine's own skylights: found, waited for, or refused. -/
inductive OwnSky
  | ok (ps : List (List StPiece))
  | waits
  | denied (reason : Nat)
  deriving DecidableEq, Repr

/-- Translate spans of this engine's own skylights, as (skylight, offset, bytes). -/
def ownSpans (id acc : Nat) : List (Nat × Nat × Nat) → Eng → Eng × OwnSky
  | [], e => (e, .ok [])
  | x :: t, e =>
    let q := useSky (.cmd id) e.fb.node x.1 acc x.2.1 x.2.2 e
    match q.2 with
    | .denied r => (count Ctr.mtSkyDenied 1 q.1, .denied r)
    | .stopped _ => (q.1, .waits)
    | .ok ps =>
      let r := ownSpans id acc t q.1
      (r.1, match r.2 with
        | .ok l => .ok (ps.map (fun p => { place := if p.stack then .stack p.addr else .host p.addr, len := p.len }) :: l)
        | x => x)

/-- What a DISPATCH reads: activations and logits of each token, the expert map, the predicate. -/
structure DpInput where
  tokens : List (Bool × List Byte × List Byte)
  map : List Byte
  deriving DecidableEq, Repr

/-- Read the inputs of a DISPATCH. -/
def dpRead (id : Nat) (f : DpForm) (e : Eng) : Eng × Option DpInput :=
  let za := f.dim * fmtSize f.act
  let zg := f.experts * (if f.gateBf then 2 else 4)
  let span := fun (base z t : Nat) => (base + t * align64 z, z)
  let ts := List.range f.tokens
  let map := (f.mapAddr + align64 (16 * f.tokens * f.choices), 32 * f.experts)
  let q := readHost (.cmd id) (map :: (f.predAddr, if f.pred then predBytes f.tokens else 0) ::
    (ts.map (span f.actAddr za) ++ ts.map (span f.gateAddr zg))) e
  match q.2 with
  | some (m :: p :: l) =>
    (q.1, some { map := m, tokens := ts.map (fun t => (tokenLive f.pred p t, l.getD t [], l.getD (f.tokens + t) [])) })
  | _ => (q.1, none)

/-- One kept record on its way: expert, skylight, offset and bytes. -/
structure Outgoing where
  expert : Nat
  node : Nat
  sky : Nat
  offset : Nat
  data : List Byte
  deriving DecidableEq, Repr

/-- The records of the kept choices. -/
def dpRecords (e : Eng) (f : DpForm) (map : List Byte) (rs : List Routing) (kept : List (Nat × Nat × Nat × Nat)) : List Outgoing :=
  kept.filterMap (fun k =>
    match rs[k.1]? with
    | some r =>
      let x := expertAt map k.2.2.1
      let w := (r.picks[k.2.1]?).map (·.2)
      some { expert := k.2.2.1, node := x.node, sky := x.inSky, offset := x.inOff + 64 + k.2.2.2 * recSize f
             data := dispatchRecord e f k.1 k.2.1 k.2.2.1 (w.getD 0) (r.vec.getD []) }
    | none => none)

/-- Send the records to other engines, and write this engine's own. -/
def dpSend (c : RunCmd) (os : List Outgoing) (own : List (List StPiece)) (e : Eng) : Eng :=
  let mine := os.filter (fun o => o.node == e.fb.node)
  let e := (mine.zip own).foldl (fun e p => putPieces false c.id p.2 p.1.data e) e
  (os.filter (fun o => o.node != e.fb.node && reachable e o.node)).foldl (fun e o => skySend c.id o.node c.step o.expert o.sky o.offset o.data e) e

/-- A region's records are all acknowledged. -/
def regionReady (e : Eng) (id : Nat) (r : Region) : Bool :=
  if r.node = e.fb.node then outputsAcked e id else !(skyOut e id).any (fun q => q.tag == r.expert)

/-- Mark a region. -/
def setRegion (id k : Nat) (g : Region → Region) (e : Eng) : Eng :=
  setCmd id (fun c => match c.work with
    | .dispatch rs cs => { c with work := .dispatch (rs.map (fun r => if r.expert = k then g r else r)) cs }
    | _ => c) e

/-- Tag of a header's requests: those of records are tagged with the expert. -/
def headTag (expert : Nat) : Nat := 2 ^ 16 + expert

/-- Write the header of a region whose records are acknowledged (R239 step 6). -/
def sendHeader (c : RunCmd) (r : Region) (e : Eng) : Eng :=
  if r.headed || r.lost then e
  else
    let h := regionHeader e c r.kept
    let e := setRegion c.id r.expert (fun r => { r with headed := true }) e
    if r.node = e.fb.node then putPieces false c.id r.head h e
    else skySend c.id r.node c.step (headTag r.expert) r.sky r.offset h e

/-- The map as it is written: kept choices of a lost expert are UNREACHABLE (R243). -/
def finalChoice (rs : List Region) (c : Choice) : Choice :=
  if c.status = 0 ∧ rs.any (fun r => r.expert == c.expert && r.lost) then { c with status := 5 } else c

/-- The record of a DISPATCH (R239 step 7, R243, R248). -/
def dispatchRec (rs : List Region) (cs : List Choice) : Rec :=
  let n := cs.countP (fun c => c.status == 0)
  match rs.find? (·.lost) with
  | some r => { status := Status.peerUnavailable, count := n, errRow := r.expert }
  | none => if cs.any (fun c => c.status == 4) then { status := Status.scaleRefused, count := n } else { count := n }

/-- Go on with a running DISPATCH: headers, then the dispatch map once everything is acknowledged. It halts while a peer reports a pending
fault (R334). -/
def goDispatch (id : Nat) (e : Eng) : Eng :=
  match findCmd e id with
  | none => e
  | some c =>
    match (if c.skyHalt.isEmpty then c.work else .none) with
    | .dispatch rs _ =>
      let e := (rs.filter (regionReady e id)).foldl (fun e r => sendHeader c r e) e
      match (findCmd e id).map (fun (c : RunCmd) => c.work) with
      | some (Work.dispatch rs cs) =>
        if !outputsAcked e id then tryAgain id e
        else if rs.all (fun r => r.headed || r.lost) && (skyOut e id).isEmpty && !c.carried then
          let cs := cs.map (finalChoice rs)
          let q := writeHost id [⟨(dpForm c.desc).mapAddr, cs.flatMap Choice.bytes⟩] e
          if q.2 then
            finish id (dispatchRec rs cs) (counts [(Ctr.seChoicesKept, cs.countP (fun c => c.status == 0)),
              (Ctr.seChoicesDropped, cs.countP (fun c => c.status == 1))] q.1)
          else q.1
        else e
      | _ => e
    | _ => e

/-- Start a DISPATCH whose inputs are read: encode, choose, weigh, assign, send (R239). Nothing is sent or changed while
a place of this engine's own skylights is not found. -/
def startDispatch (c : RunCmd) (f : DpForm) (x : DpInput) (e : Eng) : Eng :=
  let r := routeTokens f c.step x.tokens e
  let kept := assign f x.map r.1
  let os := dpRecords e f x.map r.1 kept.1
  let es := (List.range f.experts).map (fun k => (k, expertAt x.map k))
  let mine := os.filter (fun o => o.node == e.fb.node)
  let heads := es.filter (fun p => p.2.node == e.fb.node)
  let q := ownSpans c.id 1 (mine.map (fun o => (o.sky, o.offset, o.data.length)) ++ heads.map (fun p => (p.2.inSky, p.2.inOff, 64))) e
  match q.2 with
  | .waits => park c.id q.1
  | .denied n => finish c.id { status := Status.skylightDenied, detail := n } q.1
  | .ok ps =>
    let e := (routeTokens f c.step x.tokens q.1).2
    let hp := heads.zip (ps.drop mine.length)
    let regions := es.map (fun p =>
      ({ expert := p.1, node := p.2.node, sky := p.2.inSky, offset := p.2.inOff, kept := Tab.get 0 kept.2 p.1
         head := ((hp.find? (fun h => h.1.1 == p.1)).map (·.2)).getD [], headed := false, lost := !reachable e p.2.node } : Region))
    let cs := (r.1.zipIdx).flatMap (fun p => (List.range f.choices).map (choiceOf kept.1 (p.2, p.1)))
    goDispatch c.id (dpSend c os (ps.take mine.length) (setWork c.id (.dispatch regions cs) e))

/-- DISPATCH of an accepted command. -/
def opDispatch (id : Nat) (e : Eng) : Eng :=
  match findCmd e id with
  | none => e
  | some c =>
    match c.work with
    | .dispatch _ _ => goDispatch id e
    | _ =>
      let f := dpForm c.desc
      if !stepKnown e then park id e
      else match dpFields f with
        | some r => refuseWith id r e
        | none =>
          if f.slotScale && slotBusy e id c.step f.slot then setWork id .blocked e
          else
            let q := dpRead id f e
            match q.2 with
            | none => park id q.1
            | some x =>
              if (List.range f.experts).all (expertOk q.1 (confAt q.1 c.step) x.map) then startDispatch c f x q.1
              else refuseWith id (dispatchBad 0xC) q.1

/-! ## COMBINE (R244 to R246) -/

/-- COMBINE_INVALID with a detail. -/
def combineBad (detail : Nat) : Refuse := { status := Status.combineInvalid, detail }

/-- Parameters of a COMBINE. -/
structure CbForm where
  dim : Nat
  code : Nat
  ret : Nat
  out : Nat
  t16 : Bool
  pred : Bool
  choices : Nat
  slot : Nat
  experts : Nat
  tokens : Nat
  mapAddr : Nat
  outAddr : Nat
  stride : Nat
  predAddr : Nat
  deriving DecidableEq, Repr

/-- The parameters of a descriptor (R244). -/
def cbForm (d : Desc) : CbForm :=
  let f := num d 21 1
  { dim := num d 16 2, code := num d 18 1, ret := num d 19 1, out := num d 20 1, t16 := bit f 0, pred := bit f 1
    choices := num d 22 1, slot := fld (num d 24 2) 0 10, experts := num d 26 2, tokens := num d 28 4, mapAddr := num d 32 8
    outAddr := num d 40 8, stride := num d 48 4, predAddr := num d 56 8 }

/-- Bytes of an expert output. -/
def CbForm.size (f : CbForm) : Nat := f.dim * fmtSize f.ret

/-- The checks of a COMBINE (R248). -/
def cbFields (f : CbForm) : Option Refuse :=
  firstFail [
    (dimOk f.dim f.code, combineBad 1),
    (decide (2 ≤ f.ret ∧ f.ret ≤ 4 ∧ f.out ≤ 3) && (f.out == 2 || f.out == 3 || f.slot == 0), combineBad 2),
    (decide (1 ≤ f.experts ∧ f.experts ≤ 4096 ∧ 1 ≤ f.choices ∧ f.choices ≤ 16 ∧ f.choices ≤ f.experts ∧ 1 ≤ f.tokens ∧ f.tokens ≤ 2 ^ 20),
      combineBad 3),
    (aligned64 f.mapAddr && aligned64 f.outAddr && aligned64 f.predAddr, combineBad 9),
    (aligned64 f.stride && decide (f.size ≤ f.stride), combineBad 0xD)]

/-- A term before its output is read. -/
structure TermPlace where
  term : Term
  sky : Nat
  offset : Nat
  deriving DecidableEq, Repr

/-- The weight of a map entry is +0 or −0. -/
def zeroWord (w : Nat) : Bool := w % 2 ^ 31 == 0

/-- The terms of a COMBINE in token and rank order (R245), and the terms skipped. -/
def cbTerms (f : CbForm) (dm em bm : List Byte) : List TermPlace × Nat :=
  (List.range f.tokens).foldl (fun (a : List TermPlace × Nat) t =>
    if !tokenLive f.pred bm t then a
    else (List.range f.choices).foldl (fun a r =>
      let o := 16 * (t * f.choices + r)
      let x := expertAt em (num dm o 2)
      if num dm (o + 2) 1 ≠ 0 ∨ zeroWord (num dm (o + 8) 4) then (a.1, a.2 + 1)
      else (a.1 ++ [{ term := { token := t, weight := BitVec.ofNat 32 (num dm (o + 8) 4), expert := num dm o 2, node := x.node
                                data := none, lost := false }
                      sky := x.retSky, offset := x.retOff + num dm (o + 4) 4 * f.stride }], a.2)) a) ([], 0)

/-- A kept entry of the dispatch map names an expert of the map. Log 57. -/
def cbMapOk (f : CbForm) (dm : List Byte) : Bool :=
  (List.range (f.tokens * f.choices)).all (fun k => num dm (16 * k + 2) 1 != 0 || decide (num dm (16 * k) 2 < f.experts))

/-- Whether tokens are live, by the predicate. -/
def cbLive (f : CbForm) (bm : List Byte) : List Bool := (List.range f.tokens).map (tokenLive f.pred bm)

/-- The exact values of a term, in the basis the token's sum is in: transport forms are rotated; local outputs are
rotated where another term is remote (R245). -/
def termValues (f : CbForm) (own : Nat) (anyFar : Bool) (t : Term) : N (List FV) :=
  let td := bareTD f.dim f.code
  let bs := t.data.getD []
  if t.node = own then
    let v := fmtFloats f.ret bs
    if anyFar then rotate td.group v else pure v
  else if f.t16 then pure ((pieces 2 bs).map (fun b => ofBf16 (leNat b)))
  else pure (Block.values .int8 td.group { scale2 := num bs 0 2, codes := (slice bs 2 td.groups).map (·.toNat)
                                           elems := (slice bs (2 + td.groups) f.dim).map (·.toNat) })

/-- The pooled result of a token (R245): one chunk in F24, in binary32 where it holds a local FP32 output. Log 58. -/
def poolToken (f : CbForm) (own : Nat) (ts : List Term) : N (List FV) := do
  let far := ts.any (fun t => t.node != own)
  let fm := if f.ret = 2 ∧ ts.any (fun t => t.node == own) then fmt32 else fmtF24
  let acc ← ts.foldlM (fun acc t => do
    let v ← termValues f own far t
    zipN (fun a y => rnd fm (a.add (y.mul (ofWord t.weight)))) acc v) (List.replicate f.dim FV.zero)
  let tot ← mapN rnd32 acc
  if far then rotate (groupOf f.code) tot else return tot

/-- One token's output and status; `bad` where its recomputation failed too (R75, R76, R245, R246). -/
def cbToken (f : CbForm) (own step align : Nat) (live bad : Bool) (t : Nat) (ts : List Term) (a : OutAcc) (e : Eng) : OutAcc × Eng :=
  let td := bareTD f.dim f.code
  let at' := f.outAddr + t * outStride (outSize td f.out) align
  let put := fun (st : Nat) (a : OutAcc) => { a with status := a.status ++ [BitVec.ofNat 8 st] }
  if !live then (put 4 a, e)
  else if bad || ts.any (·.lost) then (put 1 { a with writes := a.writes ++ [⟨at', poisonBytes td f.out⟩], poisoned := a.poisoned ++ [none] }, e)
  else
    let r := tallied (poolToken f own ts) e
    let o := encodeOut td f.out f.slot step r.1 r.2
    match o.1.1 with
    | none => (put (64 + flag ts.isEmpty 5) { a with refused := a.refused + 1 }, o.2)
    | some bs => (put (flag o.1.2 4 + flag ts.isEmpty 5) { a with writes := a.writes ++ [⟨at', bs⟩] }, o.2)

/-- Every token in order. -/
def cbTokens (f : CbForm) (own step align : Nat) (errs : List Nat) (ts : List Term) : List (Nat × Bool) → OutAcc → Eng → OutAcc × Eng
  | [], a, e => (a, e)
  | p :: l, a, e =>
    let r := cbToken f own step align p.2 (decide (2 ≤ errs.count p.1)) p.1 (ts.filter (fun t => t.token == p.1)) a e
    cbTokens f own step align errs ts l r.1 r.2

/-- The record of a COMBINE (R246, R248). -/
def combineRec (a : OutAcc) (ts : List Term) : Rec :=
  match sortNat ((ts.filter (·.lost)).map (·.expert)) with
  | x :: _ => { status := Status.peerUnavailable, count := a.poisoned.length, errRow := x }
  | [] =>
    if !a.poisoned.isEmpty then { status := Status.poisoned, count := a.poisoned.length, errRow := 0xFFFFFFFFFF }
    else if 0 < a.refused then { status := Status.scaleRefused, count := a.refused } else {}

/-- Finish a COMBINE whose terms are all in: it waits for an earlier step's blocks and for its outputs' translation, and halts while a peer
reports a pending fault (R334). -/
def goCombine (id : Nat) (e : Eng) : Eng :=
  match findCmd e id with
  | none => e
  | some c =>
    match (if c.skyHalt.isEmpty then c.work else .none) with
    | .combine ts live =>
      let f := cbForm c.desc
      let fp8 := f.out == 2 || f.out == 3
      if c.carried || !ts.all (fun t => t.lost || t.data.isSome) then e
      else if fp8 && slotBusy e id c.step f.slot then tryAgain id e
      else
        let align := alignOf c.align
        let stride := outStride (outSize (bareTD f.dim f.code) f.out) align
        let toks := live.zipIdx.map (fun p => (p.2, p.1))
        let all := fun (a : OutAcc) => a.writes ++ [(⟨f.outAddr + align64 (f.tokens * stride), a.status⟩ : HWrite)]
        let q := translateHost (.cmd id) ((all (cbTokens f e.fb.node c.step align c.tokenErrs ts toks {} e).1).map (fun w => ⟨w.addr, w.data.length, 1⟩)) e
        match q.2 with
        | none => q.1
        | some ps =>
          let r := cbTokens f q.1.fb.node c.step align c.tokenErrs ts toks {} q.1
          let e := (ps.zip (all r.1)).foldl (fun e p => writePieces id p.1 p.2.data e) r.2
          finish id (combineRec r.1 ts) (count Ctr.seCombineReads (ts.countP (fun t => !t.lost)) e)
    | _ => e

/-- Start a COMBINE: read the local outputs, ask for the remote ones (R245). -/
def startCombine (c : RunCmd) (f : CbForm) (dm em bm : List Byte) (e : Eng) : Eng :=
  let r := cbTerms f dm em bm
  let mine := r.1.filter (fun t => t.term.node == e.fb.node)
  let q := ownSpans c.id 0 (mine.map (fun t => (t.sky, t.offset, f.size))) e
  match q.2 with
  | .waits => park c.id q.1
  | .denied n => finish c.id { status := Status.skylightDenied, detail := n } q.1
  | .ok ps =>
    let e := counts [(Ctr.seCombineSkipped, r.2), (Ctr.seTokensSkipped, (cbLive f bm).countP (!·))] q.1
    let got := ps.foldl (fun (a : List (List Byte) × Eng) p => let d := getPieces false p a.2; (a.1 ++ [d.1], d.2)) ([], e)
    let fill := (r.1.zipIdx).foldl (fun (a : List Term × List (List Byte)) p =>
      if p.1.term.node = e.fb.node then (a.1 ++ [{ p.1.term with data := some (a.2.headD []) }], a.2.drop 1)
      else (a.1 ++ [{ p.1.term with lost := !reachable e p.1.term.node }], a.2)) ([], got.1)
    let e := setWork c.id (.combine fill.1 (cbLive f bm)) got.2
    let e := (r.1.zipIdx).foldl (fun e p =>
      if p.1.term.node = e.fb.node ∨ !reachable e p.1.term.node then e
      else sendSky c.id p.1.term.node c.step p.2 (.skyRead { sky := p.1.sky, offset := p.1.offset, length := f.size, cmdId := c.id
                                                             transform := some (f.dim, f.code + 4 * f.ret + flag f.t16 5) }) e) e
    goCombine c.id e

/-- COMBINE of an accepted command. -/
def opCombine (id : Nat) (e : Eng) : Eng :=
  match findCmd e id with
  | none => e
  | some c =>
    match c.work with
    | .combine _ _ => goCombine id e
    | _ =>
      let f := cbForm c.desc
      if !stepKnown e then park id e
      else match cbFields f with
        | some r => refuseWith id r e
        | none =>
          let nd := 16 * f.tokens * f.choices
          let q := readHost (.cmd id) [(f.mapAddr, nd), (f.mapAddr + align64 nd, 32 * f.experts),
            (f.predAddr, if f.pred then predBytes f.tokens else 0)] e
          match q.2 with
          | some [dm, em, bm] =>
            if (List.range f.experts).all (expertOk q.1 (confAt q.1 c.step) em) && cbMapOk f dm then startCombine c f dm em bm q.1
            else refuseWith id (combineBad 0xC) q.1
          | _ => park id q.1

/-- Data for a term of a COMBINE. -/
def termData (id tag : Nat) (bs : List Byte) (e : Eng) : Eng :=
  goCombine id (setCmd id (fun c => match c.work with
    | .combine ts l => { c with work := .combine (ts.zipIdx.map (fun p => if p.2 = tag then { p.1 with data := some bs } else p.1)) l }
    | _ => c) e)

end Sys2Proof.Machine
end

