-- ==== Sys2Proof/Machine/StreamCmds.lean ====
section
/-! DEFINITION. STREAM, BUF_SWAP and the shingle commands (R277 to R310), and what answers to skylight requests do to the
commands that sent them (R334). -/

namespace Sys2Proof.Machine

/-! ## Refusals (R310) -/

/-- STREAM_INVALID with a detail. -/
def streamBad (detail : Nat) : Refuse := { status := Status.streamInvalid, detail }

/-- Fields of a stream descriptor that must be zero: reserved ones, and those of features it does not use (R281). Log 48. -/
def sdReserved (d : List Byte) : Bool :=
  let conv := sdConv d
  let chained := sdChained d
  let side := fun (dst : Bool) =>
    let s := sdSide d dst
    (s.space == 2 || s.node == 0) && (s.space == 2 || s.space == 3 || s.sel == 0) && fld s.node 20 12 == 0
  fld (num d 2 1) 2 6 == 0 && (!conv || num d 2 1 == 0) && fld (num d 3 1) 6 2 == 0 && side false && side true &&
    (conv || (allZero d 112 4 && allZero d 120 8)) && fld (num d 116 2) 10 6 == 0 && (sdFlag d 3 || num d 116 2 == 0) &&
    (chained || (!sdFlag d 4 && !sdFlag d 5 && num d 118 1 == 0xFF && num d 119 1 == 0xFF))

/-- Counts keep R281 and R283. -/
def sdDimsOk (d : List Byte) : Bool :=
  let n := num d 1 1
  decide (1 ≤ n ∧ n ≤ 5) && (List.range 5).all (fun k => if k < n then decide (1 ≤ num d (32 + 4 * k) 4) else num d (32 + 4 * k) 4 == 0) &&
    decide ((sdCounts d).foldl (· * ·) 1 * sdElem d ≤ 2 ^ 48)

/-- Spaces keep R282. -/
def sdSpacesOk (e : Eng) (d : List Byte) : Bool :=
  let a := sdSide d false
  let b := sdSide d true
  let one := fun (s : Side) => decide (s.space ≤ 4) && (s.space != 2 || (jobMembers e e.ls.active).contains s.node) &&
    (s.space != 3 || decide (s.sel < bufCount e))
  one a && one b && !(a.space == b.space && (a.space == 0 || a.space == 2 || a.space == 4))

/-- CONVERT keeps R287. -/
def sdConvOk (d : List Byte) : Bool :=
  if sdConv d then
    dimOk (sdDim d) (num d 114 1) && decide (num d 112 1 ≤ 1 ∧ 3 ≤ num d 113 1 ∧ num d 113 1 ≤ 5 ∧ num d 115 1 ≤ 1)
  else !sdFlag d 2 && !sdFlag d 3

/-- A chained run keeps R299 and R300. -/
def sdHandlesOk (e : Eng) (d : List Byte) : Bool :=
  let q := num d 118 1
  let r := num d 119 1
  !sdChained d || (decide (2 ≤ num d 1 1 ∧ q < 32 ∧ r < 32) && (hqueue e q).enable && (hqueue e r).enable)

/-- Bases and strides are multiples of the element size, but for strides the run ignores (R283, R287). -/
def sdAlignOk (d : List Byte) : Bool :=
  [false, true].all (fun dst =>
    let s := sdSide d dst
    s.base % sdElem d == 0 && (sdQuantSide d dst || (s.strides.take (num d 1 1)).all (fun x => x % sdElem d == 0)))

/-- The checks of a stream descriptor, in ascending detail (R310). -/
def sdFail (e : Eng) (d : List Byte) : Option Refuse :=
  firstFail [
    (num d 0 1 == 1, { status := Status.versionInvalid }),
    (sdReserved d, { status := Status.reservedField }),
    (sdDimsOk d, streamBad 5), (sdSpacesOk e d, streamBad 6), (sdConvOk d, streamBad 7), (sdHandlesOk e d, streamBad 8),
    (sdExtentOk e d, streamBad 9), (sdAlignOk d, streamBad 0xA)]

/-! ## STREAM (R278, R279, R307, R308) -/

/-- The checks of a STREAM before its descriptor is read. -/
def streamFields (d : Desc) : Option Refuse :=
  let a := num d 18 1
  firstFail [
    (decide (a ≤ 2), streamBad 1),
    (decide (num d 16 2 ≤ if a = 0 then 247 else 255), streamBad 2),
    (a != 0 || aligned64 (num d 24 8), streamBad 0xA)]

/-- A slot is in HALTED_SKEW. -/
def slotSkewed (e : Eng) (n : Nat) : Bool :=
  let s := stSlot e n
  (match s.run with | some r => r.state == .haltedSkew | none => false) ||
    (match s.split with | some x => x.halted.isSome | none => false)

/-- A slot holds a run or an operand pairing that CANCEL can name. -/
def slotLive (e : Eng) (n : Nat) : Bool := (stSlot e n).run.isSome || (stSlot e n).split.isSome

/-- The checks of a RESUME or CANCEL (R307, R308). -/
def controlFail (e : Eng) (d : Desc) : Option Refuse :=
  let n := num d 16 2
  let resume := num d 18 1 == 1
  firstFail [
    (slotGen e n == num d 20 2 && (resume || slotLive e n), streamBad 3),
    (!resume || slotSkewed e n, streamBad 4)]

/-- Prepare a STREAM: its fields, and an ARM's descriptor, read once (R279, R310). -/
def prepStream (w : Waiter) (_step : Nat) (d : Desc) (e : Eng) : Eng × Prep :=
  match streamFields d with
  | some r => (e, .refuse r)
  | none =>
    if num d 18 1 = 0 then
      if (stSlot e (num d 16 2)).waiting.isSome then (e, .wait 0)
      else
        let q := readHost w [(num d 24 8, 128)] e
        match q.2 with
        | none => (q.1, .wait 0)
        | some ls =>
          match sdFail q.1 ls.flatten with
          | some r => (unserve w q.1, .refuse r)
          | none => (unserve w q.1, .ready ls.flatten)
    else match controlFail e d with
      | some r => (e, .refuse r)
      | none => (e, .ready [])

/-- Latch a run into a slot (R277, R279). -/
def latchRun (c : RunCmd) (ins : List Byte) (e : Eng) : Eng :=
  let n := num c.desc 16 2
  let g := (stSlot e n).gen + 1
  let r : Run := { cmdId := c.id, gen := g, desc := ins, step := c.step, prefetch := bit (Tab.get 0 e.mt.prefetch (n / 32)).toNat (n % 32) }
  let e := setWork c.id (.stream n) e
  let s := stSlot e n
  if s.run.isNone && s.owner.isNone then setSlot n (fun s => { s with gen := g, run := some r }) e
  else count Ctr.stRearmBusy 1 (setSlot n (fun s => { s with gen := g, waiting := some r }) e)

/-- Commit a STREAM. -/
def commitStream (c : RunCmd) (ins : List Byte) (e : Eng) : Eng :=
  let n := num c.desc 16 2
  match num c.desc 18 1 with
  | 0 => latchRun c ins e
  | 1 => finishSlot c {} (if n < 248 then resumeRun n e else resumeSplit n e)
  | _ => finishSlot c {} (if n < 248 then stopRun n Status.streamCancelled 0 e else cancelSplit n e)

/-- An ARM waits for the run that waits in its slot. -/
def armBlocked (e : Eng) (d : Desc) : Bool := num d 18 1 == 0 && (stSlot e (num d 16 2)).waiting.isSome

/-- A refusal, with what its record carries of the command's slot (R369). -/
def slotRefuse (e : Eng) (ring : Nat) (d : Desc) (r : Refuse) : Refuse :=
  if opcode d = 0x30 ∨ opcode d = 0x31 then { r with errTable := (recSlot e ring d).1, errRow := (recSlot e ring d).2 } else r

/-- BUF_SWAP of an accepted command (R293). -/
def opBufSwap (id : Nat) (e : Eng) : Eng :=
  match findCmd e id with
  | none => e
  | some c =>
    let b := num c.desc 16 1
    if bufCount e ≤ b then refuseWith id (slotRefuse e c.ring c.desc (streamBad 6)) e
    else setWork id (.swap b) { e with st := { e.st with swaps := e.st.swaps ++ [(id, b)] } }

/-! ## Shingles (R301 to R305) -/

/-- The checks of a shingle command (R310). -/
def shingleFields (e : Eng) (d : Desc) : Option Refuse :=
  let n := num d 16 2
  firstFail [
    (decide (1 ≤ num d 18 1 ∧ num d 18 1 ≤ 2) && (num d 18 1 != 2 || (jobMembers e e.ls.active).contains (num d 20 4)), streamBad 6),
    (decide (1 ≤ n ∧ n ≤ 256 ∧ num d 24 8 % 4096 + n ≤ 4096), streamBad 0xB)]

/-- Where the target of a shingle on this engine lies. -/
inductive ShinglePlace
  | far
  | ok (ps : List StPiece)
  | waits
  | denied (reason : Nat)
  deriving DecidableEq, Repr

/-- Find the target of a shingle command. -/
def shinglePlace (id acc : Nat) (d : Desc) (e : Eng) : Eng × ShinglePlace :=
  let n := num d 16 2
  if num d 18 1 = 1 then
    let q := translate (.cmd id) 1 acc (num d 24 8) n e
    match q.2 with
    | .ok ps _ => (q.1, .ok (ps.map (fun p => { place := if p.stack then .stack p.addr else .host p.addr, len := p.len })))
    | .stopped _ => (q.1, .waits)
  else if num d 20 4 = e.fb.node then
    let q := ownSpans id acc [(num d 19 1, num d 24 8, n)] e
    match q.2 with
    | .ok ps => (q.1, .ok ps.flatten)
    | .waits => (q.1, .waits)
    | .denied r => (q.1, .denied r)
  else (e, .far)

/-- A shingle command is complete; a read's data returns in records of 32 bytes (R303). -/
def shingleDone (c : RunCmd) (bs : List Byte) (e : Eng) : Eng :=
  let n := num c.desc 16 2
  let e := count Ctr.stShingleOps 1 e
  if opcode c.desc = 0x33 then
    finish c.id { data := (pieces 32 (bs.take n)).map (fun p => p ++ zeros (32 - p.length)) } e
  else finishOk c.id 0 (count Ctr.stBytesWritten n e)

/-- The payload of a SHINGLE_WRITE (R301, R302). -/
def shinglePayload (d : Desc) : List Byte :=
  let p := (slice d 32 32 ++ d.drop 64).take (num d 16 2)
  p ++ zeros (num d 16 2 - p.length)

/-- SHINGLE_WRITE and SHINGLE_READ of an accepted command. -/
def opShingle (id : Nat) (e : Eng) : Eng :=
  match findCmd e id with
  | none => e
  | some c =>
    let d := c.desc
    let wr := opcode d == 0x32
    match shingleFields e d with
    | some r => refuseWith id r e
    | none =>
      let q := shinglePlace id (if wr then 1 else 0) d e
      match q.2 with
      | .waits => park id q.1
      | .denied r => finish id { status := Status.skylightDenied, detail := r } q.1
      | .ok ps =>
        if wr then shingleDone c [] (putPieces false id ps (shinglePayload d) q.1)
        else let g := getPieces false ps q.1; shingleDone c g.1 g.2
      | .far =>
        let node := num d 20 4
        if !reachable e node then finish id { status := Status.peerUnavailable } q.1
        else
          let e := setWork id (.shingle []) q.1
          if wr then skySend id node c.step 0 (num d 19 1) (num d 24 8) (shinglePayload d) e
          else skyFetch id node c.step 0 (num d 19 1) (num d 24 8) (num d 16 2) e

/-- An answer to a shingle's skylight request. -/
def shingleSky (id off : Nat) (data : Option (List Byte)) (e : Eng) : Eng :=
  let e := setCmd id (fun c => match c.work, data with
    | .shingle g, some bs => { c with work := .shingle (Tab.set g off bs) }
    | _, _ => c) e
  match findCmd e id with
  | none => e
  | some c =>
    match c.work with
    | .shingle g => if (skyOut e id).isEmpty then shingleDone c (g.flatMap (·.2)) e else e
    | _ => e

/-! ## Answers at the sender (R334) -/

/-- A skylight request of a command is answered. -/
def skyAnswered (x : Req) (off : Nat) (data : Option (List Byte)) (e : Eng) : Eng :=
  match findCmd e x.cmdId with
  | none => e
  | some c =>
    match c.work with
    | .stream n => streamSky n x off data e
    | .shingle _ => shingleSky c.id off data e
    | .dispatch _ _ => goDispatch c.id e
    | .combine _ _ => (match data with | some bs => termData c.id x.tag bs e | none => e)
    | _ => e

/-- SKY_WRITE_ACK received. -/
def opSkyWriteAck (h : PktHdr) (cmd : Nat) (e : Eng) : Eng :=
  match takeReq e h.src cmd none with
  | some x => skyAnswered x 0 none (dropReqs (fun r => r.id == x.id) e)
  | none => e

/-- SKY_DATA received. -/
def opSkyData (h : PktHdr) (b : SkyDataBody) (e : Eng) : Eng :=
  match takeReq e h.src b.cmdId (some b.offset) with
  | some x => skyAnswered x b.offset (some b.data) (dropReqs (fun r => r.id == x.id) e)
  | none => e

/-- A command's skylight requests to a peer are still out. -/
def skyWith (e : Eng) (peer cmd : Nat) : Bool := (skyOut e cmd).any (fun r => r.peer == peer)

/-- A peer's pending fault halts a command, or no longer does (R334, R335). -/
def setHalt (cmd peer : Nat) (on : Bool) (e : Eng) : Eng :=
  setCmd cmd (fun c => { c with skyHalt := (if on then [peer] else []) ++ c.skyHalt.filter (· != peer) }) e

/-- FAULT_PENDING received: the command halts with its position saved. -/
def opFaultPending (h : PktHdr) (cmd : Nat) (e : Eng) : Eng :=
  if !skyWith e h.src cmd then e
  else
    let e := setHalt cmd h.src true e
    match slotOfCmd e cmd with
    | some n => haltRun n e
    | none => e

/-- A DISPATCH or COMBINE goes on with what it has. -/
def goSky (cmd : Nat) (e : Eng) : Eng := goCombine cmd (goDispatch cmd e)

/-- RESUME received: the command sends again what is not done. -/
def opSkyResume (h : PktHdr) (cmd : Nat) (e : Eng) : Eng :=
  if !skyWith e h.src cmd then e
  else
    let e := setHalt cmd h.src false e
    match slotOfCmd e cmd with
    | some n => resumeFar n h.src e
    | none => goSky cmd (resendSky cmd h.src e)

/-- A command whose skylight use ends badly completes with a status (R333 to R335). -/
def endSky (cmd status detail : Nat) (e : Eng) : Eng :=
  match slotOfCmd e cmd with
  | some n =>
    let e := dropReqs (fun r => r.cmdId == cmd && isSky r.body) e
    let far := fun (q : StReq) => q.src.any (·.far) || q.dst.any (·.far)
    match (stSlot e n).run with
    | some r =>
      -- the position is kept before the requests that will never complete are forgotten
      let b := bytesBefore r
      let e := stopRun n status detail e
      setRun n (fun r => { r with issued := r.issued.filter (fun q => !far q), bytes := b, passes := r.passes.map (fun p => { p with finished := [] }) }) e
    | none => e
  | none =>
    dropReqs (fun r => r.cmdId == cmd && isSky r.body)
      (setCmd cmd (fun c => { c with skyHalt := [] }) (finish cmd { status, detail } e))

/-- ABORTED received: SKYLIGHT_FAULT. -/
def opAborted (h : PktHdr) (cmd : Nat) (e : Eng) : Eng := if skyWith e h.src cmd then endSky cmd Status.skylightFault 0 e else e

/-- DENIED received: SKYLIGHT_DENIED, with the refusal as detail (R333). -/
def opDenied (h : PktHdr) (cmd reason : Nat) (e : Eng) : Eng :=
  if skyWith e h.src cmd then endSky cmd Status.skylightDenied reason e else e

/-- A peer a command's skylight requests went to is lost (R243, R246): DISPATCH and COMBINE go on without it; another
command completes with PEER_UNAVAILABLE. -/
def skyLost (cmd peer : Nat) (e : Eng) : Eng :=
  let e := setHalt cmd peer false e
  match findCmd e cmd with
  | none => e
  | some c =>
    match c.work with
    | .dispatch rs cs =>
      let e := dropReqs (fun r => r.cmdId == cmd && isSky r.body && r.peer == peer) e
      goDispatch cmd (setWork cmd (.dispatch (rs.map (fun r => if r.node = peer then { r with lost := true } else r)) cs) e)
    | .combine ts l =>
      let e := dropReqs (fun r => r.cmdId == cmd && isSky r.body && r.peer == peer) e
      goCombine cmd (setWork cmd (.combine (ts.map (fun t => if t.node = peer ∧ t.data.isNone then { t with lost := true } else t)) l) e)
    | _ => endSky cmd Status.peerUnavailable 0 e

end Sys2Proof.Machine
end

