-- ==== Sys2Proof/Machine/Configs.lean ====
section
/-! DEFINITION. Lodestar: CONFIG_STAGE, CONFIG_DISCARD and CONFIG_ACTIVATE with the checks of R544, beacons received
(R421) and the epoch check of delivered packets (R422). -/

namespace Sys2Proof.Machine

/-! ## Refusals (R61, R206, R424) -/

/-- CONFIG_INVALID with a detail. -/
def configBad (detail : Nat) : Refuse := { status := Status.configInvalid, detail }

/-- TABLE_INVALID with a detail, at a table. -/
def tableBad (t detail : Nat) : Refuse := { status := Status.tableInvalid, detail, errTable := t }

/-- QUANT_INVALID with a detail. -/
def quantBad (detail : Nat) : Refuse := { status := Status.quantInvalid, detail }

/-- A wrong desc_version. -/
def versionBad : Refuse := { status := Status.versionInvalid }

/-- A reserved field that is not zero. -/
def reservedBad : Refuse := { status := Status.reservedField }

/-! ## Items on their own (R418, R544) -/

/-- A format field of a class keeps R36 item 3. -/
def fmtOk (permitted : Bool) (codes : List Nat) (f : Nat) : Bool := if permitted then codes.contains f else f == 0

/-- A table descriptor checked on its own (R32 to R36, R48, R61, R544). An ID of 0xFFFF names no table (R31); no detail is
given for it. Log 61. -/
def tableItem (e : Eng) (d : List Byte) : Option Refuse :=
  let t := parseTD d
  let bad := tableBad t.id
  let i16 := t.permits 3
  let x := ofBf16 t.scale
  firstFail [
    (num d 0 1 == 1, versionBad),
    (fld (num d 1 1) 2 6 == 0 && fld t.mask 4 4 == 0 && allZero d 21 3 && allZero d 35 29, reservedBad),
    (t.id != 0xFFFF, bad 0),
    (t.dim % 32 == 0 && decide (32 ≤ t.dim ∧ t.dim ≤ 1024), bad 1),
    (decide (t.groupCode ≤ 2) && t.dim % t.group == 0, bad 2),
    (t.mask != 0 && decide (t.init ≤ 3) && t.permits t.init && (!i16 || t.mask == 8) && fmtOk (t.permits 0) [1, 2] t.fmtH &&
      fmtOk (t.permits 1) [3, 4, 5, 6] t.fmtW && fmtOk (t.permits 2) [7, 8] t.fmtC, bad 3),
    (t.classes.all (fun c => decide (t.slotSize (t.fmtOf c) ≤ 4096)), bad 4),
    (decide (t.cb ≤ 63) || t.cb == 0xFF, bad 5),
    (t.indirect || t.classes.length == 1, bad 6),
    (decide (t.bandOff + t.bandLen ≤ e.store.bandTop), bad 7),
    (t.rows != 0 && decide (t.perShard ≤ 2 ^ 34), bad 9),
    (decide (t.mode ≤ 2) && t.shards != 0 && (t.mode != 0 || t.shards == 1), bad 10),
    (!(t.rotated && i16), bad 11),
    (if i16 then x.finite && !x.isZero else t.scale == 0, bad 15)]

/-- The entries of a codebook. -/
def cbEntries (bs : List Byte) : List FV := (pieces 2 bs).map (fun b => ofBf16 (leNat b))

/-- A codebook item on its own (R37, R190). -/
def codebookItem (d : List Byte) : Option Refuse :=
  let v := cbEntries (d.drop 64)
  firstFail [
    (allZero d 1 63, reservedBad),
    (decide (num d 0 1 ≤ 63) && v.all (·.finite) && v.any (fun x => !x.isZero), tableBad 0xFFFF 5)]

/-- A value of a profile: finite and not negative. -/
def nonNeg (x : FV) : Bool := x.finite && !x.lt .zero

/-- A decay constant: from 0 up to 1, 1 excluded. -/
def below1 (x : FV) : Bool := nonNeg x && x.lt .one

/-- An optimiser profile on its own (R166, R167). -/
def profileItem (d : List Byte) : Option Refuse :=
  let k := num d 2 1
  let g := sext 16 (num d 4 2)
  let zero := fun (o : Nat) => num d o 4 == 0
  firstFail [
    (num d 0 1 == 1, versionBad),
    (fld (num d 3 1) 1 7 == 0 && allZero d 6 2 && allZero d 32 32, reservedBad),
    (decide (num d 1 1 ≤ 63) && decide (k ≤ 4) && (k == 4 || !bit (num d 3 1) 0) && decide (-149 ≤ g ∧ g ≤ 104) &&
      nonNeg (floatAt d 8) && (if k = 4 then below1 (floatAt d 12) && below1 (floatAt d 16) else zero 12 && zero 16) &&
      (if k ≤ 1 then zero 20 else (floatAt d 20).finite && FV.lt .zero (floatAt d 20)) && nonNeg (floatAt d 24) &&
      (if k = 2 ∨ k = 3 then nonNeg (floatAt d 28) else zero 28), tableBad 0xFFFF 14)]

/-- A scale slot descriptor on its own (R205, R206); `used` are the slots staged before it. -/
def slotItem (e : Eng) (used : List Nat) (d : List Byte) : Option Refuse :=
  let l := num d 4 1
  firstFail [
    (num d 0 1 == 1, versionBad),
    (fld (num d 1 1) 2 6 == 0 && fld (num d 2 2) 10 6 == 0 && allZero d 7 57, reservedBad),
    (decide (1 ≤ l ∧ l ≤ 16), quantBad 1), (decide (num d 5 1 ≤ 15), quantBad 2), (decide (num d 6 1 ≤ 2), quantBad 3),
    (!bit (num d 1 1) 0 || e.variant.clipShare, quantBad 4), (!used.contains (num d 2 2), quantBad 5)]

/-- A shard map entry for its form: reserved bits, and an owner that names a pair by its even node (R418, R424). -/
def shardItem (d : List Byte) : Option Refuse :=
  firstFail [(fld (num d 4 4) 20 12 == 0, reservedBad), (num d 4 4 % 2 == 0, configBad 4)]

/-- Strictly ascending. -/
def ascending : List Nat → Bool
  | a :: b :: t => decide (a < b) && ascending (b :: t)
  | _ => true

/-- The members that a MEMBERSHIP item lists. -/
def memberList (n : Nat) (d : List Byte) : List Nat := (pieces 4 (slice d 16 (4 * n))).map leNat

/-- A MEMBERSHIP item (R424). -/
def memberItem (e : Eng) (n : Nat) (d : List Byte) : Option Refuse :=
  let ms := memberList n d
  firstFail [
    (allZero d 12 4, reservedBad),
    (num d 8 4 == n && ascending ms && ms.all (fun m => decide (m < 2 ^ 15)) && ms.contains e.fb.node && ms.contains e.fb.partner,
      configBad 3)]

/-- The plan header of a ROUTES item (R411, R412, R424). -/
def planItem (d : List Byte) : Option Refuse :=
  let m := num d 8 1
  let us := num d 12 2
  firstFail [
    (allZero d 14 18, reservedBad),
    (decide (m ≤ 1) && (m == 0 || decide (6 ≤ num d 9 1 ∧ num d 9 1 ≤ 14)) && decide (1 ≤ num d 10 1 ∧ num d 11 1 ≤ 7) &&
      decide (10 ≤ us ∧ us ≤ 10000), configBad 5)]

/-- A route entry of a ROUTES item. -/
def routeItem (plan d : List Byte) : Option Refuse :=
  let i := num d 0 4
  let g := num plan 9 1
  let inRange := if num plan 8 1 = 0 then decide (i < 32768) else decide (i < 2 ^ g) || decide (16384 ≤ i ∧ i < 16384 + 2 ^ (20 - g))
  firstFail [(allZero d 4 4 && fld (num d 8 8) 40 23 == 0, reservedBad), (inRange, configBad 5)]

/-- The first refusal of the items of a list. -/
def firstItem (f : List Byte → Option Refuse) (l : List (List Byte)) : Option Refuse := l.findSome? f

/-- Scale slot items in order, each checked against those before it. -/
def slotItems (e : Eng) : List Nat → List (List Byte) → Option Refuse
  | _, [] => none
  | used, d :: t => (slotItem e used d).or (slotItems e (num d 2 2 :: used) t)

/-- Bytes before the items, and bytes of an item, by kind (R418). -/
def itemSize (kind : Nat) : Nat × Nat :=
  match kind with
  | 1 => (0, 64)
  | 2 => (0, 576)
  | 3 => (0, 64)
  | 4 => (0, 64)
  | 5 => (0, 8)
  | 6 => (16, 4)
  | 7 => (32, 16)
  | 8 => (0, 2)
  | _ => (0, 0)

/-- The largest count of a kind (R418). -/
def itemLimit (kind : Nat) : Nat :=
  match kind with
  | 1 => 4096
  | 2 => 64
  | 3 => 64
  | 4 => 1024
  | 5 => 2 ^ 28
  | 6 => 20480
  | 7 => 32768
  | 8 => 4096
  | _ => 0

/-- The items of a CONFIG_STAGE. -/
def itemsOf (kind : Nat) (bs : List Byte) : List (List Byte) := pieces (itemSize kind).2 (bs.drop (itemSize kind).1)

/-- The checks of a CONFIG_STAGE's items (R544). -/
def itemsFail (e : Eng) (kind n : Nat) (bs : List Byte) : Option Refuse :=
  let l := itemsOf kind bs
  match kind with
  | 1 => firstItem (tableItem e) l
  | 2 => firstItem codebookItem l
  | 3 => firstItem profileItem l
  | 4 => slotItems e (e.ls.staged.slots.map (·.1)) l
  | 5 => firstItem shardItem l
  | 6 => memberItem e n bs
  | 7 => (planItem bs).or (firstItem (routeItem bs) l)
  | 8 => firstItem (fun d => if (Tab.find? e.ls.active.tables (leNat d)).isSome then none else some (configBad 10)) l
  | _ => none

/-- The checks of a CONFIG_STAGE's own fields (R424, R544). -/
def stageFields (e : Eng) (d : Desc) : Option Refuse :=
  let k := num d 16 1
  let n := num d 20 4
  firstFail [
    (decide (1 ≤ k ∧ k ≤ 9), configBad 1),
    (if k = 9 then n == 0 else decide (1 ≤ n ∧ n ≤ itemLimit k), configBad 2),
    (aligned64 (num d 32 8), configBad 9),
    (e.ls.pend.isNone, configBad 6)]

/-- Every check of a CONFIG_STAGE, on the items read (R418, R544). -/
def checkConfigStage (_step : Nat) (d : Desc) (ins : List Byte) (e : Eng) : Prep :=
  match stageFields e d with
  | some r => .refuse r
  | none =>
    if num d 16 1 = 9 then .ready []
    else match itemsFail e (num d 16 1) (num d 20 4) ins with
      | some r => .refuse r
      | none => .ready ins

/-- Prepare a CONFIG_STAGE: its items are read, once, and checked (R418, R544). -/
def prepConfigStage (w : Waiter) (step : Nat) (d : Desc) (e : Eng) : Eng × Prep :=
  match stageFields e d with
  | some r => (e, .refuse r)
  | none =>
    if num d 16 1 = 9 then (e, .ready [])
    else
      let z := itemSize (num d 16 1)
      readThenCheck w [(num d 32 8, z.1 + num d 20 4 * z.2)] (checkConfigStage step d) e

/-- Change the pending set. -/
def setStaged (f : Staged → Staged) (e : Eng) : Eng := { e with ls := { e.ls with staged := f e.ls.staged } }

/-- Put items in a table by a key. -/
def putItems (key : List Byte → Nat) (l : List (List Byte)) (t : Tab (List Byte)) : Tab (List Byte) :=
  l.foldl (fun t d => Tab.set t (key d) d) t

/-- Add items to the pending set; a map, membership or routes item replaces the one before it (R418). Log 61. -/
def stageItems (kind n : Nat) (bs : List Byte) (s : Staged) : Staged :=
  let l := itemsOf kind bs
  match kind with
  | 1 => { s with tables := putItems (fun d => num d 2 2) l s.tables }
  | 2 => { s with codebooks := l.foldl (fun t d => Tab.set t (num d 0 1) (d.drop 64)) s.codebooks }
  | 3 => { s with profiles := putItems (fun d => num d 1 1) l s.profiles }
  | 4 => { s with slots := putItems (fun d => num d 2 2) l s.slots }
  | 5 => { s with shardMap := some (l.map (fun d => { table := num d 0 2, shard := num d 2 2, owner := num d 4 4 })) }
  | 6 => { s with membership := some (num bs 0 8, memberList n bs) }
  | 7 => { s with routes := some (bs.take 32, l.foldl (fun t d => Tab.set t (num d 0 4) (num d 8 8)) ([] : Tab Nat)) }
  | 8 => { s with removes := nub (s.removes ++ l.map leNat) }
  | _ => {}

/-- Commit a CONFIG_STAGE. -/
def commitConfigStage (c : RunCmd) (ins : List Byte) (e : Eng) : Eng :=
  releaseJournal c (finishOk c.id 0 (setStaged (stageItems (num c.desc 16 1) (num c.desc 20 4) ins) e))

/-! ## The pending set as a whole (R419, R544) -/

/-- Merge one table of items over another. -/
def mergeTab (new old : Tab (List Byte)) : Tab (List Byte) := new.foldl (fun t p => Tab.set t p.1 p.2) old

/-- The configuration that the pending set makes of the active one. A codebook that no table of it names is freed
(R60). -/
def pendingConf (e : Eng) (epoch : BitVec 16) : Conf :=
  let a := e.ls.active
  let s := e.ls.staged
  let tables := mergeTab s.tables (a.tables.filter (fun p => !s.removes.contains p.1))
  let named := fun (k : Nat) => tables.any (fun p => (parseTD p.2).cb == k)
  { epoch
    jobId := match s.membership with | some m => m.1 | none => a.jobId
    members := match s.membership with | some m => m.2 | none => a.members
    plan := match s.routes with | some r => r.1 | none => a.plan
    routes := match s.routes with | some r => r.2 | none => a.routes
    shardMap := s.shardMap.getD a.shardMap
    tables
    codebooks := (mergeTab s.codebooks a.codebooks).filter (fun p => named p.1)
    profiles := mergeTab s.profiles a.profiles
    slots := mergeTab s.slots a.slots
    fresh := (s.tables.map (·.1)).filter (fun t => s.removes.contains t)
    freshSlots := s.slots.map (·.1) }

/-- Entries of the shard map that name one shard. -/
def shardCount (c : Conf) (t s : Nat) : Nat := c.shardMap.countP (fun m => m.table == t && m.shard == s)

/-- The shard map rules of R424 and R34: the table at fault. -/
def shardMapFail (c : Conf) : Option Refuse :=
  let bad := fun (t : Nat) => { configBad 4 with errTable := t }
  let ms := sortShards c.shardMap
  let entry := ms.findSome? (fun m =>
    match tdIn c m.table with
    | none => some (bad m.table)
    | some t =>
      if m.owner % 2 = 0 ∧ c.members.contains m.owner ∧ m.shard < t.shards ∧ shardCount c m.table m.shard = 1 then none else some (bad m.table))
  entry.or (c.tables.findSome? (fun p =>
    let t := parseTD p.2
    if c.shardMap.countP (fun m => m.table == p.1) = t.shards ∧
        (nub ((c.shardMap.filter (fun m => m.table == p.1)).map (fun m => m.owner / 2))).all (fun q => decide (localTop c t q ≤ 2 ^ 34)) then none
    else some (bad p.1)))

/-- Bands overlap. -/
def bandsMeet (a b : TD) : Bool := overlaps a.bandOff a.bandLen b.bandOff b.bandLen

/-- Units of a band that a table needs (R48). -/
def bandNeed (e : Eng) (c : Conf) (t : TD) : Nat :=
  let ls := localSpace c t
  if t.indirect then ceilDiv (ceilDiv ls 4) e.variant.channels
  else ceilDiv ls e.variant.channels * t.slotUnits t.directFmt

/-- The class that uses a codebook format, if just one does; none if none does. -/
def codebookFmts (t : TD) : List Nat := (t.classes.map t.fmtOf).filter (fun f => f == 6 || f == 8)

/-- Item 4 of R36, with R37 and R190 for the format that uses the codebook. -/
def codebookOk (c : Conf) (t : TD) : Bool :=
  match codebookFmts t with
  | [] => t.cb == 0xFF
  | [f] =>
    let v := cbEntries (Tab.get [] c.codebooks t.cb)
    decide (t.cb ≤ 63) && (Tab.find? c.codebooks t.cb).isSome &&
      c.tables.countP (fun p => (parseTD p.2).cb == t.cb) == 1 &&
      (f == 6 || ((v.drop 16).all (·.isZero) && (v.take 16).any (fun x => !x.isZero)))
  | _ => false

/-- A staged descriptor of an active table differs only by added classes (R59). -/
def mutableOk (old new : TD) : Bool :=
  let kept := (List.range 4).all (fun k => !old.permits k || (new.permits k && new.fmtOf k == old.fmtOf k))
  old == { new with mask := old.mask, fmtH := old.fmtH, fmtW := old.fmtW, fmtC := old.fmtC } && kept &&
    (old.indirect || old.mask == new.mask)

/-- Heap units that the tables up to `t` take on a die: rows in their initial class, and optimiser state (R61, R167). -/
def heapNeed (e : Eng) (c : Conf) (upto d : Nat) : Nat :=
  (c.tables.filter (fun p => decide (p.1 ≤ upto))).foldl (fun a p =>
    let t := parseTD p.2
    let u := (if t.indirect then t.slotUnits (t.fmtOf t.init) else 0) + t.stateSize c / 32
    if u = 0 then a else a + u * (localRows c t (ownPair e)).countP (fun i => homeDie e t i == d)) 0

/-- The kind of the profile a table uses in a configuration. -/
def profileKindOf (c : Conf) (n : Nat) : Option Nat := (Tab.find? c.profiles n).map (fun d => num d 2 1)

/-- The checks of one table of the pending set (R61, R167, R544), the lowest detail first. Which table TOO_MANY_TABLES names is not stated:
it is found at the set's lowest table. Log 129. -/
def pendTableFail (e : Eng) (c : Conf) (p : Nat × List Byte) : Option Refuse :=
  let t := parseTD p.2
  let bad := tableBad p.1
  let old := if c.fresh.contains p.1 then none else (Tab.find? e.ls.active.tables p.1).map parseTD
  let k := profileKindOf c t.profile
  firstFail [
    (codebookOk c t && decide (c.codebooks.length ≤ 64), bad 5),
    (decide (bandNeed e c t ≤ t.bandLen) && c.tables.all (fun q => q.1 == p.1 || !bandsMeet t (parseTD q.2)), bad 7),
    ((List.range e.variant.msDies).all (fun d => decide (heapNeed e c p.1 d ≤ heapUnits e)), bad 8),
    (decide (c.tables.length ≤ 4096), bad 12),
    (match old with | some o => mutableOk o t | none => true, bad 13),
    (k.isSome && (match old with | some o => profileKindOf e.ls.active o.profile == k | none => true), bad 14)]

/-- A profile that an active table uses and keeps has changed its kind, or every check holds (R419 item 1). -/
def pendingFail (e : Eng) (c : Conf) : Option Refuse :=
  (shardMapFail c).or (c.tables.findSome? (pendTableFail e c))

/-- The checks of a CONFIG_ACTIVATE (R419, R424, R544). -/
def prepConfigActivate (_w : Waiter) (_step : Nat) (d : Desc) (e : Eng) : Eng × Prep :=
  let n := num d 16 6
  let ep := BitVec.ofNat 16 (num d 22 2)
  let later := match e.steps.lastOpened with | some o => decide (o < n) | none => decide (1 ≤ n)
  match firstFail [(e.ls.pend.isNone, configBad 6), (later, configBad 7), (ep == e.ls.active.epoch + 1, configBad 8)] with
  | some r => (e, .refuse r)
  | none =>
    match pendingFail e (pendingConf e ep) with
    | some r => (e, .refuse r)
    | none => (e, .ready [])

/-- Commit a CONFIG_ACTIVATE: the set is scheduled for step n, and its storage made now if the close before is complete
(R419). -/
def commitConfigActivate (c : RunCmd) (_ins : List Byte) (e : Eng) : Eng :=
  let conf := pendingConf e (BitVec.ofNat 16 (num c.desc 22 2))
  let e := { e with ls := { e.ls with pend := some (num c.desc 16 6, conf), staged := {} } }
  releaseJournal c (finishOk c.id 0 (storePending e))

/-! ## Beacons received (R421) -/

/-- Count a digest mismatch of a peer, and raise its event once for an epoch. -/
def digestMismatch (peer : Nat) (epoch : BitVec 16) (digest : BitVec 64) (e : Eng) : Eng :=
  let e := count Ctr.lsDigestMismatch 1 { e with ls := { e.ls with lastPeer := some peer } }
  if e.ls.digestSeen.contains (peer, epoch) then e
  else raiseEvent { kind := Kind.digestMismatch, node := some peer, arg0 := digest.toNat, arg1 := epoch.toNat }
    { e with ls := { e.ls with digestSeen := (peer, epoch) :: e.ls.digestSeen } }

/-- BEACON received. -/
def opBeacon (b : BeaconBody) (e : Eng) : Eng :=
  let mine := beaconOf e
  let e := count Ctr.lsBeaconsRx 1 e
  let e := setSession b.node (fun s => { s with beacons := Tab.set s.beacons b.epoch.toNat b.digest }) e
  let e := if b.epoch = mine.epoch ∧ b.digest ≠ mine.digest then digestMismatch b.node b.epoch b.digest e else e
  if b.pendStep ≠ 0 ∧ mine.pendStep ≠ 0 ∧ b.pendEpoch = mine.pendEpoch ∧ b.pendDigest ≠ mine.pendDigest then
    digestMismatch b.node b.pendEpoch b.pendDigest e
  else e

/-! ## The epoch of a delivered packet (R422) -/

/-- The packets whose epoch is checked. -/
def epochChecked : Body → Bool
  | .index _ | .record _ | .fence _ | .restep _ _ | .skyWrite _ | .skyRead _ => true
  | _ => false

/-- The request a rejection names. -/
def rejectKey : Body → Nat
  | .index b => b.cmdId
  | .skyWrite b => b.cmdId
  | .skyRead b => b.cmdId
  | _ => 0

/-- The peer's last beacon, for an epoch equal to this engine's, carried another digest. -/
def digestDiffers (e : Eng) (peer : Nat) : Bool :=
  match Tab.find? (session e peer).beacons e.ls.active.epoch.toNat with
  | some d => d != digestOf e e.ls.active
  | none => false

/-- Check the epoch of a delivered packet: whether it is applied (R422). -/
def checkEpoch (h : PktHdr) (b : Body) (e : Eng) : Eng × Bool :=
  if !epochChecked b then (e, true)
  else
    let mine := epochAt? e h.step
    let same := mine == some h.epoch
    let e := if same then e else
      let e := count Ctr.lsEpochMismatch 1 { e with ls := { e.ls with lastPeer := some h.src } }
      if e.ls.mismatched.contains (h.src, h.step) then e
      else raiseEvent { kind := Kind.epochMismatch, node := some h.src, step := some h.step
                        arg1 := h.epoch.toNat + at_ (epochAt e h.step).toNat 16 }
        { e with ls := { e.ls with mismatched := (h.src, h.step) :: e.ls.mismatched } }
    let reject := (!same && e.ls.policy != 0) || (e.ls.policy == 2 && digestDiffers e h.src)
    if reject then
      (sendPacket h.src h.step (.epochReject (epochAt e h.step) (bodyCls b) (rejectKey b)) false (count Ctr.lsRejects 1 e), false)
    else (e, true)

end Sys2Proof.Machine
end

