-- ==== Sys2Proof/Machine/Lookups.lean ====
section
/-! DEFINITION. LOOKUP_POOL and LOOKUP_ROWS at the requester (chapter 03): checks in the order of R101, bags and parts,
and routing to the owners. -/

namespace Sys2Proof.Machine

/-- LOOKUP_INVALID with a detail (R101). -/
def lookupBad (detail : Nat) : Refuse := { status := Status.lookupInvalid, detail }

/-- One position on its way to its owner: bag, place, weight, shard and shard-local row (R34, R83). -/
structure Routed where
  bag : Nat
  pos : Nat
  row : Nat
  weight : Option Word
  shard : Nat
  loc : Nat
  deriving DecidableEq, Repr

/-- Route one position by the shard map (R34, R83). -/
def routePos (c : Conf) (t : TD) (p : Pos) : Routed :=
  { bag := p.bag, pos := p.pos, row := p.row, weight := p.weight.map toWord, shard := (t.shardOf p.row).1
    loc := localIndex c t p.row }

/-- The weight is +0 or -0. -/
def zeroWeight (w : Option FV) : Bool :=
  match w with
  | some (.fin _ m _) => m == 0
  | _ => false

/-- The parts of a bag, in ascending shard number. Positions of weight zero are dropped before, and a part does not count them. Log 28. -/
def partsOf (c : Conf) (t : TD) (ps : List Routed) : List PartItem :=
  (sortNat (nub (ps.map (·.shard)))).map (fun s =>
    let q := ps.filter (fun p => p.shard == s)
    { shard := s, n := q.length, pair := (ownerOf c t.id s).getD 0 / 2, firstPos := (q.head?.map (·.pos)).getD 0
      firstRow := (q.head?.map (·.row)).getD 0, data := none })

/-- A bag with its routed positions. -/
structure RoutedBag where
  item : BagItem
  poss : List Routed
  deriving DecidableEq, Repr

/-- The kind of a bag's batches: the partials of a spanning MEAN bag are undivided sums (R84, R405). Log 13. -/
def kindOf (mode : Nat) (b : BagItem) : Nat := if mode = 1 ∧ 1 < b.parts.length then 0 else mode

/-- The key under which positions travel together: kind, pair, half and shard (R83, R431). -/
structure RouteKey where
  kind : Nat
  pair : Nat
  half : Nat
  shard : Nat
  deriving DecidableEq, Repr

/-- The positions of one part, under their key. -/
def partRoute (t : TD) (mode : Nat) (b : RoutedBag) (p : PartItem) : RouteKey × List Routed :=
  let q := b.poss.filter (fun x => x.shard == p.shard)
  ({ kind := kindOf mode b.item, pair := p.pair, half := halfOf t.id ((q.head?.map (·.loc)).getD 0), shard := p.shard }, q)

/-- Group routed positions by key, keys in order of first use. -/
def groupRoutes (l : List (RouteKey × List Routed)) : List (RouteKey × List Routed) :=
  (nub (l.map (·.1))).map (fun k => (k, (l.filter (fun p => p.1 == k)).flatMap (·.2)))

/-- The INDEX batch of a group (R405). -/
def routeBatch (t : TD) (id : Nat) (t16 : Bool) (k : RouteKey) (ps : List Routed) : IndexBody :=
  { table := t.id, shard := k.shard, cmdId := id, kind := k.kind, transport16 := t16
    entries := ps.map (fun p => { row := p.loc, bag := p.bag, pos := p.pos, weight := p.weight })
    lasts := nub (ps.map (·.bag)) }

/-- The look-up ends poisoned: a reset stopped it after its step's STEP_CLOSE (R473). -/
def poisonsAll (e : Eng) (id : Nat) : Bool := match findCmd e id with | some c => c.poison | none => false

/-- A live bag with every part poisoned. -/
def poisonItem (b : BagItem) : BagItem :=
  let bad : PartData := { poisoned := true, unavail := false, saturated := false, errRow := some (0, 0xFFFFFFFFFF), vals := [], slot := [] }
  if b.skipped then b
  else if b.parts.isEmpty then { b with parts := [{ shard := 0, n := b.total, pair := 0, firstPos := 0, firstRow := 0, data := some bad }] }
  else { b with parts := b.parts.map (fun p => { p with data := some bad }) }

/-- Send every position of a look-up to its owner, and finish the look-up if nothing is outstanding. -/
def sendLookup (id step mode align : Nat) (t : TD) (t16 : Bool) (bs : List RoutedBag) (e : Eng) : Eng :=
  if poisonsAll e id then
    tryLookup id (count Ctr.geBagsPoisoned (bs.countP (fun b => !b.item.skipped)) (setWork id (.lookup align (bs.map (fun b => poisonItem b.item))) e))
  else
  let e := setWork id (.lookup align (bs.map (·.item))) e
  let rs := groupRoutes (bs.flatMap (fun b => b.item.parts.map (partRoute t mode b)))
  tryLookup id (rs.foldl (fun e r => requestIndex r.1.pair r.1.half step (routeBatch t id t16 r.1 r.2) e) e)

/-! ## LOOKUP_POOL -/

/-- The checks of a LOOKUP_POOL that need no list (R101 items 1 and 2). -/
def poolFields (d : Desc) (t : Option TD) : Option Refuse :=
  let f := listForm d
  let mode := num d 18 1
  let i16 := match t with | some t => t.permits 3 | none => false
  firstFail [
    (decide (mode ≤ 2) && f.weights == (mode == 2) && !(mode == 2 && i16), lookupBad 1),
    (decide (num d 19 1 ≤ 3) && (num d 19 1 == 2 || num d 19 1 == 3 || num d 22 2 == 0), lookupBad 2),
    (decide (1 ≤ f.bags ∧ f.bags ≤ 2 ^ 20 ∧ f.n ≤ 2 ^ 31), lookupBad 3),
    (aligned64 (num d 32 8) && aligned64 (num d 40 8) && aligned64 (num d 48 8), lookupBad 8),
    (!f.wide || f.high == 0, lookupBad 6)]

/-- The checks of an index list block (R101 items 3 and 4). -/
def blockFail (bad : Nat → Refuse) (f : ListForm) (t : Option TD) (blk : List Byte) : Option Refuse :=
  if !f.offsetsOk blk then some (bad 4)
  else indexFail (bad 5).status f.wide (match t with | some t => t.rows | none => 2 ^ 64)
    ((List.range f.n).map (f.row blk))

/-- One bag of a LOOKUP_POOL: a skipped bag routes nothing, and WSUM drops positions of weight zero (R73, R76). EMPTY goes by the bag's
positions, whatever their weights. Log 28. -/
def poolBag (c : Conf) (t : TD) (f : ListForm) (blk : List Byte) (b : Nat) : RoutedBag :=
  if !f.live blk b then { item := { bag := b, total := (f.positions blk b).length, skipped := true, parts := [] }, poss := [] }
  else
    let ps := ((f.positions blk b).filter (fun p => !zeroWeight p.weight)).map (routePos c t)
    { item := { bag := b, total := (f.positions blk b).length, skipped := false, parts := partsOf c t ps }, poss := ps }

/-- Live WSUM positions of weight zero (R104). -/
def zeroSkips (f : ListForm) (blk : List Byte) : Nat :=
  (List.range f.bags).foldl (fun a b => a + if f.live blk b then (f.positions blk b).countP (fun p => zeroWeight p.weight) else 0) 0

/-- Partial records a look-up needs (R77). -/
def recordsNeeded (bs : List RoutedBag) : Nat :=
  bs.foldl (fun a b => if 1 < b.item.parts.length then a + b.item.parts.length else a) 0

/-- Start a checked LOOKUP_POOL: count, check the room for partial records, and route (R77, R83). -/
def startPool (c : RunCmd) (cf : Conf) (t : TD) (f : ListForm) (blk : List Byte) (e : Eng) : Eng :=
  let d := c.desc
  let bs := (List.range f.bags).map (poolBag cf t f blk)
  if !bit (num d 21 1) 4 && decide (num d 56 4 < recordsNeeded bs) then
    refuseWith c.id { lookupBad 7 with count := recordsNeeded bs } e
  else
    sendLookup c.id c.step (num d 18 1) (alignOf c.align) t (bit (num d 21 1) 5) bs
      (counts [(Ctr.plBagsSkipped, bs.countP (·.item.skipped)), (Ctr.plZeroWeightSkips, zeroSkips f blk)] e)

/-- LOOKUP_POOL of an accepted command (R72 to R78, R100, R101). -/
def opLookupPool (id : Nat) (e : Eng) : Eng :=
  match findCmd e id with
  | none => e
  | some c =>
    if !stepKnown e then park id e
    else
      let d := c.desc
      let f := listForm d
      let cf := confAt e c.step
      let t := tdIn cf (num d 16 2)
      match poolFields d t with
      | some r => refuseWith id r e
      | none =>
        let q := readHost (.cmd id) [(num d 32 8, f.size)] e
        match q.2 with
        | none => park id q.1
        | some ls =>
          let blk := ls.headD []
          match blockFail lookupBad f t blk, t with
          | some r, _ => refuseWith id r q.1
          | none, none => refuseWith id { status := Status.tableUnknown } q.1
          | none, some t => startPool c cf t f blk q.1

/-! ## LOOKUP_ROWS -/

/-- The checks of a LOOKUP_ROWS that need no list (R101 items 1 and 2). -/
def rowsFields (d : Desc) : Option Refuse :=
  let fmt := num d 19 1
  firstFail [
    ((decide (fmt ≤ 3) || fmt == 0xF) && (fmt == 2 || fmt == 3 || num d 22 2 == 0), lookupBad 2),
    (decide (1 ≤ num d 24 4 ∧ num d 24 4 ≤ 2 ^ 20), lookupBad 3),
    (aligned64 (num d 32 8) && aligned64 (num d 40 8), lookupBad 8),
    (!bit (num d 21 1) 0 || num d 20 1 == 0, lookupBad 6)]

/-- One output of a LOOKUP_ROWS: a bag of one position (R83). -/
def rowBag (c : Conf) (t : TD) (p : Nat × Nat) : RoutedBag :=
  let r := routePos c t { bag := p.2, pos := 0, row := p.1, weight := none }
  { item := { bag := p.2, total := 1, skipped := false, parts := partsOf c t [r] }, poss := [r] }

/-- LOOKUP_ROWS of an accepted command (R79 to R82, R100, R101). -/
def opLookupRows (id : Nat) (e : Eng) : Eng :=
  match findCmd e id with
  | none => e
  | some c =>
    if !stepKnown e then park id e
    else
      let d := c.desc
      let wide := bit (num d 21 1) 0
      let k := num d 24 4
      let cf := confAt e c.step
      let t := tdIn cf (num d 16 2)
      match rowsFields d with
      | some r => refuseWith id r e
      | none =>
        let q := readHost (.cmd id) [(num d 32 8, plainSize wide k)] e
        match q.2 with
        | none => park id q.1
        | some ls =>
          let idx := plainIndices wide (num d 20 1) k (ls.headD [])
          match indexFail Status.lookupInvalid wide (match t with | some t => t.rows | none => 2 ^ 64) idx, t with
          | some r, _ => refuseWith id r q.1
          | none, none => refuseWith id { status := Status.tableUnknown } q.1
          | none, some t =>
            sendLookup id c.step 3 (alignOf c.align) t false (idx.zipIdx.map (rowBag cf t)) q.1

end Sys2Proof.Machine
end

