-- ==== Sys2Proof/Machine/Accept.lean ====
section
/-! DEFINITION. Rings and acceptance (R351 to R368): NOP and FENCE, the operation of each opcode, what holds the head of
a ring, journaling before acceptance, and the acceptance of a command. -/

namespace Sys2Proof.Machine

/-! ## NOP and FENCE (R365 to R367) -/

/-- NOP of an accepted command. -/
def opNop (id : Nat) (e : Eng) : Eng := finishOk id 0 e

/-- The rings a FENCE names: its own, and the enabled ones of its mask (R365). -/
def fenceRings (e : Eng) (c : RunCmd) : List Nat :=
  (List.range 64).filter (fun r => r == c.ring || (bit (num c.desc 16 8) r && (ring e r).enable))

/-- FENCE of an accepted command: its snapshot (R366). -/
def opFence (id : Nat) (e : Eng) : Eng :=
  match findCmd e id with
  | none => e
  | some c =>
    let rs := fenceRings e c
    let snap := (e.hl.cmds.filter (fun o => rs.contains o.ring && o.id != id)).map (·.id)
    settleFences (setWork id (.fence snap) e)

/-! ## Operations by opcode -/

/-- A state-changing command in three parts: what it reads and checks before acceptance, the checks again on what it read, and what it
does after. -/
structure Change where
  needsStep : Bool
  prep : Waiter → Nat → Desc → Eng → Eng × Prep
  check : Nat → Desc → List Byte → Eng → Prep
  commit : RunCmd → List Byte → Eng → Eng

/-- The checks of a command that reads no host memory. -/
def plainCheck (prep : Waiter → Nat → Desc → Eng → Eng × Prep) (step : Nat) (d : Desc) (_ins : List Byte) (e : Eng) : Prep :=
  (prep (.head 0) step d e).2

/-- A state-changing command that reads no host memory. -/
def plainChange (needsStep : Bool) (prep : Waiter → Nat → Desc → Eng → Eng × Prep) (commit : RunCmd → List Byte → Eng → Eng) : Change :=
  ⟨needsStep, prep, plainCheck prep, commit⟩

/-- STEP_OPEN (R137). -/
def stepOpenChange : Change := plainChange false prepStepOpen commitStepOpen

/-- STEP_CLOSE (R139). -/
def stepCloseChange : Change := plainChange false prepStepClose commitStepClose

/-- UPDATE_GRAD (R151). -/
def updateGradChange : Change := ⟨true, prepUpdateGrad, checkUpdateGrad, commitUpdateGrad⟩

/-- ROW_WRITE (R156). -/
def rowWriteChange : Change := ⟨true, prepRowWrite, checkRowWrite, commitRowWrite⟩

/-- HOT_SET_LOAD (R112). -/
def hotSetLoadChange : Change := ⟨true, prepHotSetLoad, checkHotSetLoad, commitHotSetLoad⟩

/-- THATCH_REFRESH (R117). -/
def thatchRefreshChange : Change := plainChange true prepThatchRefresh commitThatchRefresh

/-- MIGRATE_ROWS (R119). -/
def migrateRowsChange : Change := ⟨true, prepMigrateRows, checkMigrateRows, commitMigrateRows⟩

/-- TABLE_REPLACE (R125). -/
def tableReplaceChange : Change := ⟨true, prepTableReplace, checkTableReplace, commitTableReplace⟩

/-- TABLE_REMAP (R129). -/
def tableRemapChange : Change := plainChange false prepTableRemap commitTableRemap

/-- ATOMIC (R270). -/
def atomicChange : Change := ⟨false, prepAtomic, checkAtomic, commitAtomic⟩

/-- CONFIG_STAGE (R418). -/
def configStageChange : Change := ⟨false, prepConfigStage, checkConfigStage, commitConfigStage⟩

/-- CONFIG_ACTIVATE (R419). -/
def configActivateChange : Change := plainChange false prepConfigActivate commitConfigActivate

/-- The parts of a state-changing command. -/
def changeOf (d : Desc) : Option Change :=
  match opcode d with
  | 0x01 => some stepOpenChange
  | 0x02 => some stepCloseChange
  | 0x18 => some updateGradChange
  | 0x19 => some rowWriteChange
  | 0x20 => some hotSetLoadChange
  | 0x21 => some thatchRefreshChange
  | 0x22 => some migrateRowsChange
  | 0x23 => some tableReplaceChange
  | 0x24 => some tableRemapChange
  | 0x34 => some atomicChange
  | 0x50 => some configStageChange
  | 0x51 => some configActivateChange
  | _ => none

/-- The operation of a read-only command. -/
def readOp (d : Desc) : Nat → Eng → Eng :=
  match opcode d with
  | 0x03 => opFence
  | 0x10 => opLookupPool
  | 0x11 => opLookupRows
  | 0x31 => opBufSwap
  | 0x32 => opShingle
  | 0x33 => opShingle
  | 0x40 => opInteract
  | 0x41 => opTopk
  | 0x42 => opDispatch
  | 0x43 => opCombine
  | _ => opNop

/-- How a host command is accepted: a state-changing one after its journaling, a STREAM once its descriptor is read, any other at
once. -/
inductive Meaning
  | change (x : Change)
  | stream
  | read (op : Nat → Eng → Eng)

/-- The meaning of a descriptor, by its opcode (R358). -/
def meaningOf (d : Desc) : Meaning :=
  match changeOf d with
  | some x => .change x
  | none => if opcode d = 0x30 then .stream else .read (readOp d)

/-- The inputs of an accepted state-changing command, from its journal entry (R362). -/
def journaledInputs (e : Eng) (c : RunCmd) : List Byte :=
  match e.rg.own.find? (sameEntry e.fb.node c.ring c.seq) with
  | some j => j.inputs
  | none => []

/-- An accepted state-changing command that waited for the first STEP_OPEN acts, on the inputs read before its acceptance (R138, R362),
or is refused where the configuration of its step does not allow it. Log 87. -/
def changeNow (x : Change) (c : RunCmd) (e : Eng) : Eng :=
  if !stepKnown e then e
  else
    let ins := journaledInputs e c
    match x.check c.step c.desc ins e with
    | .refuse r => releaseJournal c (refuseWith c.id r e)
    | _ => x.commit c ins (journalCmd c.ring c.step c.desc ins e)

/-- An accepted command that waited goes on. -/
def goOnCmd (c : RunCmd) (e : Eng) : Eng :=
  match changeOf c.desc with
  | some x => changeNow x c e
  | none => readOp c.desc c.id e

/-! ## The head of a ring (R302, R356, R360, R364) -/

/-- Continuation entries of a head (R302, R304): at most four. -/
def contEntries (d : List Byte) : Nat :=
  match opcode d with
  | 0x32 => min 4 (ceilDiv (num d 16 2 - 32) 64)
  | 0x34 => if bit (num d 18 1) 0 then min 4 (ceilDiv (inlineSize (num d 17 1) (num d 24 4) (bit (num d 18 1) 1)) 64) else 0
  | _ => 0

/-- The ring entry at an index. -/
def ringEntry (e : Eng) (r : Nat) (i : Word) : List Byte :=
  let q := ring e r
  hostRead e (q.base + 64 * (i.toNat % q.size)) 64

/-- The descriptor at the head of a ring, with its continuation entries. -/
def headDesc (e : Eng) (r : Nat) : Desc :=
  let q := ring e r
  let d := ringEntry e r q.cons
  d ++ (List.range (contEntries d)).flatMap (fun k => ringEntry e r (q.cons + BitVec.ofNat 32 (k + 1)))

/-- Entries a ring's head and its continuations take. -/
def headLen (d : Desc) : Nat := d.length / 64

/-- A FENCE of the ring is not satisfied. -/
def fenceAhead (e : Eng) (r : Nat) : Bool :=
  e.hl.cmds.any (fun c => c.ring == r && !c.carried && c.done.isNone && (match c.work with | .fence _ => true | _ => false))

/-- The bound completion ring is full (R371). -/
def boundFull (e : Eng) (r : Nat) : Bool :=
  let q := ring e (64 + (ring e r).cq)
  !q.runs || q.free == 0

/-- The firmware core that accepts commands, the scheduler core, runs (R364, R461, R462). -/
def schedulerUp (e : Eng) : Bool := coreRuns e 1

/-- The member acts as a requester: it serves, or it joins and holds its command journal again (R434, R448, R453). -/
def requests (e : Eng) : Bool := serving e || (e.rg.state == .joining && e.rg.resilver.journaled)

/-- What holds a ring's head before its descriptor is read (R364, R368). -/
def ringHeld (e : Eng) (r : Nat) : Bool :=
  !attached e || e.stopped || !schedulerUp e || !requests e || fenceAhead e r || decide (4096 ≤ e.hl.cmds.length) ||
    decide (512 ≤ e.hl.cmds.countP (fun c => c.ring == r)) || boundFull e r || (Tab.get {} e.hl.ctxs (ring e r).context).stop

/-- A ring has a command at its head. -/
def hasHead (e : Eng) (r : Nat) : Bool := (ring e r).runs && (ring e r).prod != (ring e r).cons

/-- The head's inputs wait for a translation, so its acceptance is held (R330). -/
def headWaits (e : Eng) (r : Nat) : Bool :=
  let w := Waiter.head r
  (e.mt.walks ++ e.mt.queued).any (fun k => k.waiters.contains w) || e.mt.starved.contains w || e.mt.deferred.contains w ||
    e.mt.resume.contains w || e.mt.faults.any (fun p => p.2.pending && p.2.waiters.contains w)

/-- Every journal copy the pair state asks for exists (R361, R449). -/
def journalsIn (e : Eng) (h : Head) : Bool := h.own && (h.other || !mirrored e)

/-- What holds a head that is read: its journaling, the retention space, the run that waits in its stream slot, or the restart of the
fabric core before a configuration takes effect (R361, R364, R465). Log 60. -/
def latchedHeld (e : Eng) (h : Head) : Bool :=
  (h.begun && !journalsIn e h) || retentionHeld e h.need || (opcode h.desc == 0x30 && armBlocked e h.desc) ||
    (opcode h.desc == 1 && !coreRuns e 2 && takesEffect e (num h.desc 16 6))

/-- HL_RING_STATE.HELD: the head of the ring waits (R364). -/
def headHeld (e : Eng) (r : Nat) : Bool :=
  hasHead e r && (ringHeld e r || headWaits e r || (match (ring e r).head with | some h => latchedHeld e h | none => false))

/-- The weight of a context (R393). -/
def ctxWeight (e : Eng) (c : Nat) : Nat := (Tab.get {} e.hl.ctxs c).weight

/-- A ring as it takes part in turns. -/
def ringTurn (e : Eng) (r : Nat) : Turn := { prio := (ring e r).priority, ctx := (ring e r).context, ring := r }

/-- The rings whose heads nothing holds. -/
def readyRings (e : Eng) : List Turn := ((List.range 64).filter (fun k => hasHead e k && !headHeld e k)).map (ringTurn e)

/-- A ring has its turn: none of a higher priority is ready, its context has not used up its share, nor the ring its turn (R368). -/
def hasTurn (e : Eng) (r : Nat) : Bool := mayServe e.hl.turns (readyRings e) (ringTurn e r)

/-- A ring's command is accepted: its context and the ring have had a turn (R368). -/
def tookTurn (r : Nat) (e : Eng) : Eng :=
  { e with hl := { e.hl with turns := afterServe (ctxWeight e) e.hl.turns (ringTurn e r :: readyRings e) (ringTurn e r) } }

/-- Note what the head of a ring waits for. -/
def setHead (r : Nat) (h : Head) (e : Eng) : Eng := setRing r (fun q => { q with head := some h }) e

/-- Accept the command at the head of a ring: the consumer index passes it, and is published (R360). -/
def takeHead (r : Nat) (d : Desc) (advance : Bool) (e : Eng) : Eng × Nat :=
  let q := addCmd r d (tookTurn r e)
  let e := setRing r (fun k => { k with
    cons := k.cons + BitVec.ofNat 32 (headLen d), head := none
    lastSeq := if advance then BitVec.ofNat 32 (num d 4 4) else k.lastSeq }) q.1
  (if attached e then publish r 0 false e else e, q.2)

/-- Accept and refuse. -/
def refuseHead (r : Nat) (d : Desc) (x : Refuse) (e : Eng) : Eng :=
  let q := takeHead r d true e
  refuseWith q.2 (slotRefuse e r d x) q.1

/-- Journaling of the head begins (R361, R437). -/
def beginJournal (r : Nat) (d : Desc) (ins : List Byte) (e : Eng) : Eng :=
  setHead r { desc := d, begun := true } (journalHead r (stepNow e) d ins e)

/-- The command waits for an earlier one of its ring that waits for the first STEP_OPEN, so that they act in ring order (R363). -/
def behindEarly (e : Eng) (c : RunCmd) : Bool :=
  opcode c.desc == 0x34 && e.hl.cmds.any (fun o => o.ring == c.ring && o.work == .parked && stateChanging o.desc && o.id != c.id)

/-- Row entries a command will number (R149). -/
def entryCount (x : Change) (c : RunCmd) (ins : List Byte) (e : Eng) : Nat := (x.commit c ins e).steps.srcSeq - e.steps.srcSeq

/-- A state-changing command is accepted, and acts; before the first STEP_OPEN one that belongs to a step waits for it (R138, R361). Its
entries count from its acceptance, so that the next ones are held to R151. -/
def acceptChange (r : Nat) (x : Change) (d : Desc) (ins : List Byte) (e : Eng) : Eng :=
  let q := takeHead r d true e
  match findCmd q.1 q.2 with
  | none => q.1
  | some c =>
    let e := journalCmd r c.step d ins q.1
    if (x.needsStep && !stepKnown e) || behindEarly e c then
      let first := nextSrcSeq e c.step
      let n := entryCount x c ins { e with steps := { e.steps with srcStep := c.step, srcSeq := first } }
      park c.id { e with steps := { e.steps with srcStep := c.step, srcSeq := first + n } }
    else x.commit c ins e

/-- The journaled descriptor and inputs of a head. -/
def headEntry (e : Eng) (r : Nat) (h : Head) : Option JournalBody :=
  e.rg.own.find? (sameEntry e.fb.node r (BitVec.ofNat 32 (num h.desc 4 4)))

/-- Go on with a head whose journaling has begun: once its copies exist it is checked as the engine stands now, and accepted (R21, R361).
A refused command is not journaled. -/
def journaledHead (r : Nat) (h : Head) (x : Change) (e : Eng) : Eng :=
  match headEntry e r h with
  | none => setHead r { desc := h.desc } e
  | some j =>
    if !journalsIn e h then e
    else match x.check (stepNow e) h.desc j.inputs e with
      | .wait _ => e
      | .refuse f => refuseHead r h.desc f (dropJournal (sameEntry e.fb.node r j.seq) e)
      | .ready ins => acceptChange r x h.desc ins e

/-- Accept the head of a ring whose header is good. With `now`, journaling happens within the command (log 7). -/
def acceptGood (now : Bool) (r : Nat) (m : Meaning) (h : Head) (e : Eng) : Eng :=
  let d := h.desc
  match m with
  | .change x =>
    if h.begun then journaledHead r h x e
    else
      let q := x.prep (.head r) (stepNow e) d e
      match q.2 with
      | .wait n => setHead r { h with need := n } q.1
      | .refuse f => refuseHead r d f q.1
      | .ready ins => if now then acceptChange r x d ins q.1 else beginJournal r d ins q.1
  | .stream =>
    let q := prepStream (.head r) (stepNow e) d e
    match q.2 with
    | .wait _ => q.1
    | .refuse f => refuseHead r d f q.1
    | .ready ins =>
      let t := takeHead r d true q.1
      match findCmd t.1 t.2 with
      | some c => commitStream c ins t.1
      | none => t.1
  | .read op =>
    let q := takeHead r d true e
    op q.2 q.1

/-- Check the seq and header of a head that is read, and accept it (R357, R359, R360). -/
def acceptLatched (now : Bool) (r : Nat) (m : Meaning) (h : Head) (e : Eng) : Eng :=
  let d := h.desc
  let k := (BitVec.ofNat 32 (num d 4 4) - (ring e r).lastSeq).toNat
  if k = 1 then
    match headerFail d with
    | some f => refuseHead r d f e
    | none => acceptGood now r m h e
  else
    let q := takeHead r d false e
    refuseWith q.2 (slotRefuse e r d { status := if k = 0 ∨ 2 ^ 31 ≤ k then Status.duplicate else Status.seqInvalid }) q.1

/-- Read the head of a ring, once, where all its entries are there (R356). -/
def readHead (r : Nat) (e : Eng) : Eng :=
  match (ring e r).head with
  | some _ => e
  | none =>
    let d := headDesc e r
    if ((ring e r).prod - (ring e r).cons).toNat < headLen d then e else setHead r { desc := d } (hostIn d.length e)

/-- An ARM that a FENCE holds at the head of its ring is counted once, as the run that R288 holds. -/
def countFenced (r : Nat) (e : Eng) : Eng :=
  if !attached e || e.stopped || !schedulerUp e || !fenceAhead e r then e
  else
    let e := readHead r e
    match (ring e r).head with
    | some h =>
      if opcode h.desc = 0x30 ∧ num h.desc 18 1 = 0 ∧ !h.fenced then count Ctr.stFenceWaits 1 (setHead r { h with fenced := true } e) else e
    | none => e

/-- ACCEPT_COMMAND: the head of a submission ring is accepted, or held (R360, R364, R368). -/
def opAccept (r : Nat) (e : Eng) : Eng :=
  if 64 ≤ r ∨ !hasHead e r then e
  else if headHeld e r ∨ !hasTurn e r then countFenced r e
  else
    let e := readHead r e
    match (ring e r).head with
    | some h => acceptLatched false r (meaningOf h.desc) h e
    | none => e

/-- A host command stands at the head of its ring: the ring's producer index lies past it. -/
def postHead (r : Nat) (d : Desc) (e : Eng) : Eng :=
  let n := headLen d
  setRing r (fun q => { q with
    head := some { desc := d }
    prod := if (q.prod - q.cons).toNat < n then q.cons + BitVec.ofNat 32 n else q.prod }) e

/-- A host command with this descriptor at the head of its ring, which nothing holds: it is accepted, journaled within the command where it
changes state, and carried out (R357 to R361). Log 7. -/
def opHostCommand (m : Meaning) (r : Nat) (d : Desc) (e : Eng) : Eng := acceptLatched true r m { desc := d } (postHead r d e)

/-- The head's own journal copy is written (R361). Log 60. -/
def opJournalDone (r : Nat) (e : Eng) : Eng :=
  setRing r (fun q => { q with head := q.head.map (fun h => { h with own := true }) }) e

/-- JOURNAL_ACK: the partner holds its copy of a head (R437). -/
def opJournalAck (r : Nat) (seq : Word) (e : Eng) : Eng :=
  setRing r (fun q => { q with head := q.head.map (fun h => if BitVec.ofNat 32 (num h.desc 4 4) = seq then { h with other := true } else h) }) e

/-- A head that will not be accepted is given up: what was read of it, and its journaling on both members (R361). -/
def dropHead (r : Nat) (e : Eng) : Eng :=
  match (ring e r).head with
  | none => e
  | some h => setRing r (fun q => { q with head := none })
      (if h.begun then dropJournal (sameEntry e.fb.node r (BitVec.ofNat 32 (num h.desc 4 4))) e else e)

end Sys2Proof.Machine
end

