-- ==== Sys2Proof/Machine/Faults.lean ====
section
/-! DEFINITION. Resolving translation faults and ending invalidations (R326, R331, R335), and the dormer window (R337 to
R339). -/

namespace Sys2Proof.Machine

/-! ## Invalidation and faults -/

/-- A waiter resumes: one on another engine is told so (R331, R334). -/
def resumeWaiter (w : Waiter) (e : Eng) : Eng :=
  match w with
  | .remote h (.skyWrite b) => skyReply h (.skyResume b.cmdId) e
  | .remote h (.skyRead b) => skyReply h (.skyResume b.cmdId) e
  | w => wake [w] e

/-- Resume waiters in order. -/
def resumeWaiters : List Waiter → Eng → Eng
  | [], e => e
  | w :: t, e => resumeWaiters t (resumeWaiter w e)

/-- The walks an invalidation discarded start again, and waiters of a RETRY that came meanwhile resume, those on other engines by RESUME
(R326, R331). -/
def afterInvalidation (e : Eng) : Eng :=
  let e := { e with mt := { e.mt with queued := e.mt.queued.map (fun (w : Walk) => { w with held := false }) } }
  let ws := e.mt.deferred
  resumeWaiters ws (startQueued { e with mt := { e.mt with deferred := [] } })

/-- INVALIDATION_DONE: every access that used a removed translation has completed. -/
def opInvalidationDone (e : Eng) : Eng :=
  if e.mt.busy && !shutOut e .io 0 6 then afterInvalidation { e with mt := { e.mt with busy := false } } else e

/-- A requester that waits without being a waiter tries again once an entry is freed (R330). -/
def wakeStarved (e : Eng) : Eng :=
  let ws := e.mt.starved
  wake ws { e with mt := { e.mt with starved := [] } }

/-- Free a fault entry. -/
def freeFault (id : Nat) (e : Eng) : Eng :=
  wakeStarved (setFault id { faultEntry e id with pending := false, waiters := [] } e)

/-- An ID and generation name a pending entry (R331). -/
def namesFault (e : Eng) (id : Nat) (gen : BitVec 8) : Bool :=
  decide (id < 32) && (faultEntry e id).pending && (faultEntry e id).gen == gen

/-- RETRY (R331): the span is invalidated, the entry freed, and the waiters resume, once no earlier invalidation is in progress. The
invalidation of the RETRY sets BUSY as any does (R326). Log 24. -/
def opFaultRetry (id : Nat) (gen : BitVec 8) (e : Eng) : Eng :=
  if !namesFault e id gen then count Ctr.mtResolveStale 1 e
  else
    let f := faultEntry e id
    let t := freeFault id (invalidate f.table f.start (f.fin - f.start) e)
    if e.mt.busy then { t with mt := { t.mt with deferred := t.mt.deferred ++ f.waiters } } else resumeWaiters f.waiters t

/-- An accepted command ends with the kind of its fault (R331). -/
def abortCmd (id kind : Nat) (e : Eng) : Eng :=
  match findCmd e id with
  | none => e
  | some c =>
    let r : Rec := { status := Status.xlateFault, detail := kind }
    let e := dropReqs (fun q => q.cmdId == id) e
    if (ixWork c).isSome then ixEnd c r e else finish id r e

/-- A waiter is aborted (R331, R334): a command completes with XLATE_FAULT, a head as a refused command does, and a
command on another engine is told. Log 59. -/
def abortWaiter (kind : Nat) (w : Waiter) (e : Eng) : Eng :=
  match w with
  | .cmd id => abortCmd id kind e
  | .stream n => stopRun n Status.xlateFault kind e
  | .head r =>
    match (ring e r).head with
    | some h => if attached e then refuseHead r h.desc { status := Status.xlateFault, detail := kind } e else e
    | none => e
  | .remote h (.skyWrite b) => skyReply h (.aborted b.cmdId) e
  | .remote h (.skyRead b) => skyReply h (.aborted b.cmdId) e
  | .remote _ _ => e

/-- Abort waiters in order. -/
def abortWaiters (kind : Nat) : List Waiter → Eng → Eng
  | [], e => e
  | w :: t, e => abortWaiters kind t (abortWaiter kind w e)

/-- Abort a pending fault. -/
def abortFault (id : Nat) (e : Eng) : Eng :=
  let f := faultEntry e id
  abortWaiters f.kind f.waiters (freeFault id e)

/-- ABORT (R331). -/
def opFaultAbort (id : Nat) (gen : BitVec 8) (e : Eng) : Eng :=
  if namesFault e id gen then abortFault id e else count Ctr.mtResolveStale 1 e

/-- Abort every pending fault (R386). -/
def abortAllFaults (e : Eng) : Eng :=
  (List.range 32).foldl (fun e id => if (faultEntry e id).pending then abortFault id e else e) e

/-- A waiter is a command of another engine. -/
def Waiter.far : Waiter → Bool
  | .remote _ _ => true
  | _ => false

/-- SKY_FAULT_LIMIT: a pending fault's remote waiters are aborted, its local ones stay; an entry with no waiter left is
free (R335). Log 48. -/
def opSkyFaultLimit (id : Nat) (e : Eng) : Eng :=
  let f := faultEntry e id
  let far := f.waiters.filter Waiter.far
  let near := f.waiters.filter (fun w => !w.far)
  if !f.pending || far.isEmpty then e
  else
    let e := count Ctr.mtSkyFaultTimeouts far.length e
    let e := if near.isEmpty then freeFault id e else setFault id { f with waiters := near } e
    abortWaiters f.kind far e

/-- The command waits on a fault at another engine (R334). -/
def skyWaits (e : Eng) (cmd : Nat) : Bool :=
  match findCmd e cmd with
  | some c => c.done.isNone && !c.skyHalt.isEmpty
  | none => false

/-- SENDER_FAULT_WAIT_LIMIT: a command has waited twice the limit for RESUME or ABORTED (R335). -/
def opSenderFaultWaitLimit (cmd : Nat) (e : Eng) : Eng :=
  if skyWaits e cmd then endSky cmd Status.skylightFault 0 (count Ctr.mtSkyFaultTimeouts 1 e) else e

/-! ## The dormer window (R337 to R339) -/

/-- A window access is naturally aligned, of 1 to 64 bytes (R338). -/
def windowOk (x size : Nat) : Bool := [1, 2, 4, 8, 16, 32, 64].contains size && x % size == 0 && decide (x + size ≤ 2 ^ 28)

/-- The stack address of a window byte (R337). -/
def windowAddr (e : Eng) (x : Nat) : Nat := e.mt.dwWindow * 2 ^ 28 + x

/-- How a window access is handled (R339). -/
inductive WindowCase
  | off
  | reserved
  | readOnly
  | normal
  deriving DecidableEq, Repr

/-- The unit of an address lies in the reserved region (R47). -/
def inReserved (e : Eng) (u : Nat × Nat) : Bool := decide (channelUnits - e.store.reserved ≤ u.2)

/-- The case of an access to a window byte (R339). -/
def windowCase (e : Eng) (x : Nat) : WindowCase :=
  let u := unitOf e (windowAddr e x)
  if !e.mt.dwEnable || e.store.failedStacks.contains (u.1 / 64) then .off
  else if inReserved e u then .reserved
  else if !e.mt.dwWriteEn then .readOnly
  else .normal

/-- The value of a window read: all ones, zero, or the stack bytes, through the cache (R267, R338, R339). -/
def windowRead (x size : Nat) (e : Eng) : List Byte × Eng :=
  let e := count Ctr.dwReads 1 e
  match windowCase e x with
  | .off => (List.replicate size 0xFF, e)
  | .reserved => (zeros size, e)
  | _ => dataGet (windowAddr e x) size (cacheRead true (windowAddr e x) size e)

/-- A window write (R338, R339). -/
def windowWrite (x : Nat) (data : List Byte) (e : Eng) : Eng :=
  match windowCase e x with
  | .normal => count Ctr.dwWrites 1 (cacheWrite true (windowAddr e x) data.length (dataPut (windowAddr e x) data e))
  | _ => count Ctr.dwWritesDropped 1 e

/-- The slot or entry of an indirect table lies under a window write that would be made (R58, R339). -/
def windowForbidden (e : Eng) (x size : Nat) : Bool :=
  windowCase e x == .normal && (linesOf (windowAddr e x) size).any (fun l => indirectUnit e (unitOf e (32 * l)))

end Sys2Proof.Machine
end

