-- ==== Sys2Proof/Machine/HostIf.lean ====
section
/-! DEFINITION. Doorbells, ring set-up, acknowledged writes, interrupts, the mailbox, attachment and the loss of the host
(R347 to R388). -/

namespace Sys2Proof.Machine

/-! ## Doorbells (R353, R354) -/

/-- A ring falls in error. -/
def ringError (r : Nat) (e : Eng) : Eng :=
  let e := count Ctr.hlRingErrors 1 (setRing r (fun q => { q with error := true }) e)
  raiseEvent { kind := Kind.ringError, arg1 := r } e

/-- A producer index more than 2ⁿ ahead of a consumer index. -/
def overRun (r : Ring) (prod cons : Word) : Bool := decide (r.size < (prod - cons).toNat)

/-- A doorbell of submission ring `r` latches its producer index. -/
def opSubDoorbell (r : Nat) (v : Word) (e : Eng) : Eng :=
  let q := ring e r
  if 64 ≤ r ∨ !q.runs ∨ serialAfter q.prod v then e
  else if overRun q v q.cons then ringError r e
  else setRing r (fun q => { q with prod := v }) e

/-- A doorbell of a ring the engine writes latches its consumer index. -/
def consDoorbell (r : Nat) (v : Word) (e : Eng) : Eng :=
  let q := ring e r
  if !q.runs ∨ serialAfter q.cons v then e
  else if overRun q q.prod v then ringError r e
  else setRing r (fun q => { q with cons := v }) e

/-- A doorbell of completion ring `k`, 0 to 63. -/
def opCompDoorbell (k : Nat) (v : Word) (e : Eng) : Eng := if 64 ≤ k then e else consDoorbell (64 + k) v e

/-- The doorbell of the event ring: held records follow into the space it gives (R375). -/
def opEventDoorbell (v : Word) (e : Eng) : Eng := flushHeld (consDoorbell 128 v e)

/-- The heartbeat doorbell (R385). -/
def opHeartbeat (e : Eng) : Eng := { e with hl := { e.hl with lastBeat := e.tick } }

/-! ## Acknowledgements, records and interrupts (R348, R370, R377) -/

/-- The host acknowledges write `k` of those outstanding. -/
def opHostWriteAck (k : Nat) (e : Eng) : Eng :=
  match e.hl.unacked[k]? with
  | none => e
  | some w =>
    let e := { e with hl := { e.hl with unacked := e.hl.unacked.eraseIdx k } }
    match w with
    | .record r i irq => publishProven r (if irq then setRing r (fun q => { q with irqIdx := i :: q.irqIdx }) e else e)
    | .status r n irq => if 64 ≤ r then ringSignal r n irq e else e
    | .sky h cmd => if e.hl.unacked.contains (.sky h cmd) then e else skyReply h (.skyWriteAck cmd) e
    | .output _ => e
    | .irq => e

/-- COMMAND_COMPLETE: the completion of a command is written, where it can be (R370, R371). -/
def opCommandComplete (r : Nat) (seq : Word) (e : Eng) : Eng :=
  match e.hl.cmds.find? (fun c => c.ring == r && c.seq == seq && c.done.isSome && c.recIdx.isNone) with
  | some c => writeRecord c e
  | none => e

/-- The moderation time of a ring passes (R377). -/
def opModeration (r : Nat) (e : Eng) : Eng :=
  let q := ring e r
  if 64 ≤ r ∧ r ≤ 128 ∧ 0 < q.unsignalled ∧ q.modTime ≠ 0 then
    irqSignal q.vector (setRing r (fun q => { q with unsignalled := 0 }) e)
  else e

/-- HL_IRQ_CTRL written for a vector (R377). Log 63. -/
def irqCtrl (v : Nat) (value : Nat) (e : Eng) : Eng :=
  let q := Tab.get {} e.hl.irqs v
  let m := bit value 0
  let send := !m && q.pending && attached e
  let e := { e with hl := { e.hl with irqs := Tab.set e.hl.irqs v { q with mask := m, pending := q.pending && !send } } }
  if send then irqSend v e else e

/-! ## Ring set-up (R383, R392) -/

/-- The fields of HL_RING_CFG but ENABLE. -/
def cfgFields (v : Nat) (q : Ring) : Ring :=
  { q with sizeLog2 := fld v 26 5, vector := fld v 20 6, cq := fld v 14 6, priority := fld v 11 3, context := fld v 7 4 }

/-- A disabled ring is enabled: both indices are 0, and an error clears. -/
def enableRing (r : Nat) (e : Eng) : Eng :=
  let e := setRing r (fun q => { q with
    enable := true, prod := 0, wr := 0, cons := 0, error := false, head := none, unsignalled := 0, irqIdx := [] }) e
  let e := { e with hl := { e.hl with unacked := e.hl.unacked.map (fun w => match w with
    | .record q i irq => if q = r then .irq else .record q i irq
    | .status q n irq => if q = r then .irq else .status q n irq
    | w => w) } }
  if r = 128 then flushHeld e else e

/-- A submission ring stops accepting; a head that is being journaled is given up (R361, R383). -/
def disableRing (r : Nat) (e : Eng) : Eng :=
  let busy := e.hl.cmds.any (fun c => c.ring == r && !c.carried)
  setRing r (fun q => { q with enable := false, draining := busy && decide (r < 64) }) (dropHead r e)

/-- HL_RING_CFG written for ring `r`. Of a ring that is not disabled only the clearing of a submission ring's ENABLE takes
effect while a host is attached, draining included. Log 64. -/
def ringCfg (r v : Nat) (e : Eng) : Eng :=
  let q := ring e r
  let en := bit v 31
  if fld v 26 5 < 6 ∨ 16 < fld v 26 5 ∨ 128 < r then e
  else if hostUp e && q.enable then (if r < 64 && !en then disableRing r e else e)
  else
    let e := if q.enable && !en then disableRing r e else e
    let e := setRing r (cfgFields v) e
    if en && !q.enable then enableRing r e else e

/-! ## Losing the host (R385 to R387) -/

/-- The command is read-only (R358). -/
def readOnly (d : Desc) : Bool := opcodes.contains (opcode d) && !stateChanging d

/-- What a read-only command holds on the engine is given up: runs, pairings, shadows, swaps and requests. -/
def dropCmd (id : Nat) (e : Eng) : Eng :=
  let e := dropReqs (fun q => q.cmdId == id) e
  let mine := fun (r : Option Run) => match r with | some r => r.cmdId == id | none => false
  let gone := (e.st.slots.filter (fun s => mine s.2.run)).map (·.1)
  let e := gone.foldl (fun e n => releaseQueues n e) e
  dropDrains id { e with
    st := { e.st with
      slots := e.st.slots.map (fun s => (s.1, { s.2 with
        run := s.2.run.filter (fun r => r.cmdId != id), waiting := s.2.waiting.filter (fun r => r.cmdId != id)
        owner := s.2.owner.filter (· != id), split := s.2.split.filter (fun x => x.cmdId != id) }))
      swaps := e.st.swaps.filter (fun s => s.1 != id) } }

/-- A slot left without a run takes its waiting one, if that was not dropped. -/
def reslot (e : Eng) : Eng :=
  { e with st := { e.st with slots := e.st.slots.map (fun s => (s.1,
    if s.2.run.isNone && s.2.owner.isNone then { s.2 with run := s.2.waiting, waiting := none } else s.2)) } }

/-- Every command whose completion is not published is carried, a read-only one with HOST_LOST (R386, R387). -/
def carryCmds (e : Eng) : Eng :=
  let gone := (e.hl.cmds.filter (fun c => readOnly c.desc && !c.carried)).map (·.id)
  let slot := cmdSlot e
  let e := reslot (gone.foldl (fun e id => dropCmd id e) e)
  { e with hl := { e.hl with cmds := e.hl.cmds.map (fun c =>
      let x := slot c
      let c := { c with carried := true, recIdx := none }
      if readOnly c.desc then
        { c with work := .none, skyHalt := [], done := some { status := Status.hostLost, errTable := x.1, errRow := x.2 } }
      else c) } }

/-- Skylight writes to host memory that the host had not acknowledged are refused with HOST_DETACHED. Log 65. -/
def refuseSky (e : Eng) : Eng :=
  let ws := nub e.hl.unacked
  ws.foldl (fun e w => match w with
    | .sky h cmd => skyDeny h cmd 3 e
    | _ => e) { e with hl := { e.hl with unacked := [] } }

/-- The header and body of a mailbox reply, the body first, and its interrupt (R378, R379). -/
def mbReply (ty tag status : Nat) (body : List Byte) (e : Eng) : Eng :=
  let h := leBytes 1 ty ++ [1, 1, 0] ++ leBytes 2 body.length ++ leBytes 2 tag ++ leBytes 1 status ++ zeros 7
  let e := { e with hl := { e.hl with mailbox := memPut 0 (memPut 0 e.hl.mailbox 0x810 body) 0x800 h } }
  irqSignal e.hl.mbVector e

/-- The reply of a DETACH, which follows detachment (R384). -/
def detachReply (tag : Nat) (e : Eng) : Eng := mbReply 3 tag 0 (leBytes 1 e.hl.cause ++ zeros 15) e

/-- The attach state changes. -/
def setAttach (a : AttachState) (cause : Nat) (e : Eng) : Eng :=
  { e with hl := { e.hl with attach := a, cause, helloSeen := false } }

/-- Reply to a DRAIN in progress, once detached. -/
def drainReply (e : Eng) : Eng :=
  match e.hl.drain with
  | some d => detachReply d.1 { e with hl := { e.hl with drain := none } }
  | none => e

/-- The host is lost, with a cause (R385, R386). -/
def hostLoss (cause : Nat) (e : Eng) : Eng :=
  if !hostUp e then e
  else
    let e := (List.range 64).foldl (fun e r => dropHead r e) e
    let e := { e with hl := { e.hl with rings := e.hl.rings.map (fun r => (r.1, { r.2 with enable := false, draining := false })) } }
    let e := refuseSky e
    let e := count Ctr.hlHostLosses 1 (setAttach .detached cause (carryCmds e))
    drainReply (abortAllFaults e)

/-! ## Attaching and detaching (R380 to R384, R387) -/

/-- The code of an attach state (R382). -/
def attachCode (a : AttachState) : Nat :=
  match a with
  | .detached => 0
  | .attached => 1
  | .detaching => 2

/-- The 32 bytes of a HELLO reply (R380). -/
def helloBody (e : Eng) : List Byte :=
  [1, 0, 1, 0] ++ leBytes 1 (attachCode e.hl.attach) ++ leBytes 1 e.hl.cause ++ leBytes 1 e.variant.code ++ [0] ++
    leBytes 4 (fld e.fb.node 0 20) ++ leBytes 4 (e.hl.cmds.countP (·.carried)) ++ leBytes 6 (e.steps.lastOpened.getD 0) ++
    [0, 0] ++ leBytes 8 e.build.toNat

/-- HELLO (R380). -/
def opHello (tag : Nat) (e : Eng) : Eng := mbReply 1 tag 0 (helloBody e) { e with hl := { e.hl with helloSeen := true } }

/-- Why an ATTACH is refused, in the order of its table (R383, R477). -/
def attachFail (oos : Bool) (ms : Nat) (e : Eng) : Option Nat :=
  let on := fun (r : Nat) => (ring e r).enable
  if hostUp e ∨ !e.hl.helloSeen ∨ oos then some 2
  else if e.hl.statusBase = 0 ∨ (List.range 64).any (fun r => on r && !on (64 + (ring e r).cq)) ∨
      (e.hl.cmds.any (·.carried) ∧ !on 64) then some 5
  else if 10000 < ms then some 9
  else none

/-- Write the completions of carried commands that are done: by submission ring, then in the order of acceptance, which is
that of seq (R387). -/
def writeCarried (e : Eng) : Eng :=
  let l := (List.range 64).flatMap (fun r => e.hl.cmds.filter (fun c => c.carried && c.ring == r && c.done.isSome))
  l.foldl (fun e c => writeRecord c e) e

/-- ATTACH (R383). -/
def opAttach (oos : Bool) (tag ms : Nat) (e : Eng) : Eng :=
  match attachFail oos ms e with
  | some x => mbReply 2 tag x [] e
  | none =>
    let e := setAttach .attached e.hl.cause { e with hl := { e.hl with heartbeatMs := ms, lastBeat := e.tick, drain := none } }
    flushHeld (writeCarried (mbReply 2 tag 0 [] e))

/-- DETACH of mode DRAIN (R384). -/
def opDetachDrain (tag ms : Nat) (e : Eng) : Eng :=
  if attached e then setAttach .detaching e.hl.cause { e with hl := { e.hl with drain := some (tag, ms) } }
  else mbReply 3 tag 2 [] e

/-- DETACH of mode ABANDON (R384). -/
def opDetachAbandon (tag : Nat) (e : Eng) : Eng := if hostUp e then detachReply tag (hostLoss 2 e) else mbReply 3 tag 2 [] e

/-- DRAIN is complete: every accepted command has a published completion (R384). -/
def opDrainComplete (e : Eng) : Eng :=
  if e.hl.attach == .detaching && e.hl.cmds.isEmpty then drainReply (setAttach .detached 1 e) else e

/-- drain_ms passes first: the detachment becomes ABANDON. -/
def opDrainTimeout (e : Eng) : Eng := if e.hl.attach == .detaching then hostLoss 2 e else e

/-- No heartbeat for twice heartbeat_ms while attached (R385). -/
def opHeartbeatTimeout (e : Eng) : Eng := if attached e && e.hl.heartbeatMs != 0 then hostLoss 4 e else e

/-- The number of modules in service changes; with none left the host is lost (R349). -/
def opModuleFail (modules : Nat) (e : Eng) : Eng :=
  let n := min modules 8
  if n = e.hl.modules then e
  else
    let e := raiseEvent { kind := Kind.hostLinkDegraded, arg1 := n } { e with hl := { e.hl with modules := n } }
    if n = 0 then hostLoss 3 e else e

/-! ## The mailbox (R378, R379) -/

/-- Write bytes into the request area. -/
def mbWrite (o : Nat) (bs : List Byte) (e : Eng) : Eng := { e with hl := { e.hl with mailbox := memPut 0 e.hl.mailbox o bs } }

/-- The body length of a message type. -/
def mbLen (ty : Nat) : Nat := if ty = 1 then 0 else 16

/-- Reserved fields of a request are zero. -/
def mbReservedOk (m : List Byte) : Bool :=
  num m 1 1 / 2 == 0 && allZero m 8 8 && (match num m 0 1 with
    | 2 => allZero m 18 14
    | 3 => num m 17 1 == 0 && allZero m 22 10
    | _ => true)

/-- MAILBOX_DOORBELL: the request in the mailbox is handled. -/
def opMailbox (oos : Bool) (e : Eng) : Eng :=
  let m := memRead 0 e.hl.mailbox 0 32
  let ty := num m 0 1
  let tag := num m 6 2
  if ty = 0 ∨ 3 < ty then mbReply ty tag 1 [] e
  else if num m 4 2 ≠ mbLen ty then mbReply ty tag 3 [] e
  else if !mbReservedOk m then mbReply ty tag 4 [] e
  else match ty with
    | 1 => opHello tag e
    | 2 => opAttach oos tag (num m 16 2) e
    | _ => match num m 16 1 with
      | 0 => opDetachDrain tag (num m 18 4) e
      | 1 => opDetachAbandon tag e
      | _ => mbReply 3 tag 9 [] e

end Sys2Proof.Machine
end

