-- ==== Sys2Proof/Machine/Loss.lean ====
section
/-! DEFINITION. Requests that are lost, redirected, held or rejected (R411, R422, R442, R443), sessions that end (R406,
R409), and logical links (R396, R400). -/

namespace Sys2Proof.Machine

/-! ## Lost requests (R411, R442) -/

/-- Forget one request. -/
def endReq (r : Req) (e : Eng) : Eng := dropReqs (fun q => q.id == r.id) e

/-- An INDEX request is lost: reissued to the other member, or lost there too, as for an unreachable owner. -/
def loseIndex (r : Req) (b : IndexBody) (e : Eng) : Eng :=
  let e := endReq r e
  let m := mate r.peer
  if r.reissued || absent e m then indexUnavailable b e
  else sendIndex r.pair m r.step b true (count Ctr.fbReissues 1 e)

/-- The entries a RECORD request still waits for. -/
def reqEntries (e : Eng) (r : Req) : List Entry :=
  (e.steps.outRecs.filter (fun o => o.cmdId == r.cmdId && o.step == r.step && o.peer == r.peer && !o.acked)).map (·.entry)

/-- A request's entries are now owed to another member. -/
def moveEntries (r : Req) (peer : Nat) (e : Eng) : Eng :=
  { e with steps := { e.steps with outRecs := e.steps.outRecs.map (fun (o : OutRec) =>
    if o.cmdId = r.cmdId ∧ o.step = r.step ∧ o.peer = r.peer ∧ !o.acked then { o with peer } else o) } }

/-- A RECORD request is lost: reissued to the other member, or kept and sent again by turns (R442). -/
def loseRecord (r : Req) (e : Eng) : Eng :=
  if r.reissued then
    { e with fb := { e.fb with reqs := e.fb.reqs.map (fun q => if q.id = r.id then { q with tag := 1 } else q) } }
  else
    let es := reqEntries e r
    let m := mate r.peer
    let e := markPartner r.cmdId true (moveEntries r m (endReq r e))
    sendEntries r.cmdId r.pair m r.step es true (count Ctr.fbReissues 1 e)

/-- A request is lost (R411): the rest of its step goes to the other member, with one FAILOVER a step (R442, R443). -/
def loseReq (r : Req) (e : Eng) : Eng :=
  if e.fb.reqs.all (fun q => q.id != r.id) then e
  else
    let e := failover r.step r.peer e
    match r.body with
    | .index b => loseIndex r b (redirectStep r.step r.peer e)
    | .record _ => loseRecord r (redirectStep r.step r.peer e)
    | _ => skyLost r.cmdId r.peer e

/-- Lose every request that satisfies a test, but RECORD requests that wait to be sent again. -/
def loseReqs (p : Req → Bool) (e : Eng) : Eng :=
  (e.fb.reqs.filter (fun r => p r && !(r.tag == 1 && bodyCls r.body == 3))).foldl (fun e r => loseReq r e) e

/-- Every request to a peer is lost. -/
def losePeer (peer : Nat) (e : Eng) : Eng := loseReqs (fun r => r.peer == peer) e

/-! ## Sessions (R406, R409) -/

/-- A session that ended with packets waiting opens again. -/
def reopen (peer : Nat) (e : Eng) : Eng :=
  let s := session e peer
  if !s.isOpen && !s.syncSent && !s.waiting.isEmpty then startSync peer e else e

/-- A generation of a peer is learnt: where it is new, requests to the peer are lost (R411). -/
def newGen (h : PktHdr) (e : Eng) : Eng :=
  let s := session e h.src
  let known := s.isOpen || s.rxOpen || s.syncSent
  let e' := learnGen h.src h.srcGen e
  if known && s.peerGen != h.srcGen && (s.isOpen || s.rxOpen) then reopen h.src (losePeer h.src e') else e'

/-- SYNC received (R406). -/
def opSyncMsg (h : PktHdr) (e : Eng) : Eng := opSync h (newGen h e)

/-- STALE received (R406, R411). -/
def opStale (h : PktHdr) (e : Eng) : Eng := newGen h e

/-- A peer is unreachable (R409). -/
def declareUnreachable (peer : Nat) (e : Eng) : Eng :=
  let e := setSession peer (fun s => { s with unreachable := true }) (closeSession peer e)
  let e := raiseEvent { kind := Kind.peerUnreachable, node := some peer } e
  startSync peer (losePeer peer e)

/-- RETRANSMIT_TIMEOUT: the oldest unacknowledged packet, or a SYNC without an answer, is sent again; after RETRIES of them
the peer is unreachable, and it gets one SYNC a timeout (R409). Log 66. -/
def opRetransmit (peer : Nat) (e : Eng) : Eng :=
  let s := session e peer
  if s.unreachable then (if s.isOpen then e else startSync peer e)
  else if s.isOpen && s.unacked.isEmpty || !s.isOpen && !s.syncSent then e
  else if e.fb.retries ≤ s.tries then declareUnreachable peer e
  else
    let e := setSession peer (fun s => { s with tries := s.tries + 1 }) e
    if s.isOpen then resendOldest peer (count Ctr.fbRetransmits 1 e) else startSync peer e

/-! ## Timers and replies of requests (R411, R422, R442) -/

/-- A request's RECORD traffic waits to be sent again after EPOCH_REJECT. -/
def recordKept (e : Eng) (r : Req) : Bool :=
  bodyCls r.body == 3 && e.fb.kept.any (fun k => k.1 == r.peer && k.2.1 == r.step && bodyCls k.2.2 == 3)

/-- REPLY_TIMEOUT of a request. -/
def opReplyTimeout (id : Nat) (e : Eng) : Eng := loseReqs (fun r => r.id == id && !recordKept e r) e

/-- REDIRECT received: the requests of its step to that member are lost (R442). -/
def opRedirect (h : PktHdr) (e : Eng) : Eng := loseReqs (fun r => r.peer == h.src && r.step == h.step) e

/-- Requests of a peer for a step that this member holds. -/
def holds (e : Eng) (peer step : Nat) : Bool :=
  let far := fun (w : Waiter) => match w with | .remote h _ => h.src == peer && h.step == step | _ => false
  e.store.heldIndex.any (fun p => p.1.src == peer && p.1.step == step) ||
    e.steps.heldEntries.any (fun p => p.1.src == peer && p.1.step == step) ||
    e.mt.starved.any far || (e.mt.walks ++ e.mt.queued).any (fun w => w.waiters.any far)

/-- HOLD_TIMER: a HOLD goes to a peer whose requests are held (R411). -/
def opHoldTimer (peer step : Nat) (e : Eng) : Eng :=
  if peer ≠ e.fb.node ∧ holds e peer step then sendPacket peer step .hold false (count Ctr.fbHolds 1 e) else e

/-- State-changing traffic of a class and step that this engine sent to a peer. -/
def sentTo (e : Eng) (peer step cls : Nat) : List Body :=
  nub ((e.fb.tx.filter (fun p => p.hdr.dst == peer && p.hdr.step == step && bodyCls p.body == cls)).map (·.body))

/-- Keep rejected traffic for its peer. -/
def keepTraffic (peer step : Nat) (bs : List Body) (e : Eng) : Eng :=
  { e with fb := { e.fb with kept := nub (e.fb.kept ++ bs.map (fun b => (peer, step, b))) } }

/-- EPOCH_REJECT received: read-only requests are lost, state-changing traffic is kept (R422). -/
def opEpochReject (h : PktHdr) (cls cmd : Nat) (e : Eng) : Eng :=
  match cls with
  | 1 => loseReqs (fun r => r.peer == h.src && r.step == h.step && r.cmdId == cmd && bodyCls r.body == 1) e
  | 3 => keepTraffic h.src h.step [.record []] e
  | 5 => keepTraffic h.src h.step (sentTo e h.src h.step 5) e
  | 6 => keepTraffic h.src h.step (sentTo e h.src h.step 6) e
  | _ => loseReqs (fun r => r.peer == h.src && r.cmdId == cmd && isSky r.body) e

/-- Send one piece of rejected traffic again to the same member. -/
def resendKept (peer : Nat) (k : Nat × Nat × Body) (e : Eng) : Eng :=
  match k.2.2 with
  | .record _ =>
    (e.fb.reqs.filter (fun r => r.peer == peer && r.step == k.2.1 && bodyCls r.body == 3)).foldl (fun e r =>
      sendRecords peer r.step (reqEntries e r) r.reissued e) e
  | b => sendPacket peer k.2.1 b false e

/-- A RECORD request lost at both members goes to `peer`, the one it was not sent to last. -/
def resendTurn (peer : Nat) (r : Req) (e : Eng) : Eng :=
  let es := reqEntries e r
  let e := moveEntries r peer e
  let e := { e with fb := { e.fb with reqs := e.fb.reqs.map (fun (q : Req) => if q.id = r.id then { q with peer } else q) } }
  if peer = e.fb.node then
    (if serving e then takeRecords { hdrTo e peer r.step (.record es) true with step := r.step } es (countSent es (endReq r e)) else e)
  else if unreachable e peer then e else sendRecords peer r.step es true e

/-- RECORD_RESEND towards a peer (R422, R442). -/
def opRecordResend (peer : Nat) (e : Eng) : Eng :=
  let ks := e.fb.kept.filter (fun k => k.1 == peer)
  let e := { e with fb := { e.fb with kept := e.fb.kept.filter (fun k => k.1 != peer) } }
  let e := ks.foldl (fun e k => resendKept peer k e) e
  (e.fb.reqs.filter (fun r => r.tag == 1 && bodyCls r.body == 3 && r.pair == peer / 2 && r.peer != peer)).foldl
    (fun e r => resendTurn peer r e) e

/-! ## Logical links (R396, R400) -/

/-- The LINK_CHANGE event of a link. -/
def linkEvent (l : Nat) (up : Bool) (e : Eng) : Eng := raiseEvent { kind := Kind.linkChange, arg0 := l, arg1 := flag up 0 } e

/-- A fabric link goes down. -/
def linkDown (l : Nat) (e : Eng) : Eng :=
  if e.fb.linksUp.contains l then
    linkEvent l false { e with fb := { e.fb with linksUp := e.fb.linksUp.filter (· != l), links := Tab.erase e.fb.links l } }
  else e

/-- Logical links of a port with a breakout (R395); the reserved breakout gives none. -/
def breakoutLinks (k : Nat) : Nat :=
  match k with
  | 0 => 1
  | 1 => 2
  | 2 => 4
  | _ => 0

/-- A logical link that its port's breakout gives, in Ethernet or direct mode (R395, R396). -/
def linkRuns (e : Eng) (l : Nat) : Bool :=
  decide (l % 4 < breakoutLinks (Tab.get {} e.fb.ports (l / 4)).breakout) && (linkMode e l == 1 || linkMode e l == 2)

/-- A fabric link goes up: a direct-mode link starts with sequence number 0. -/
def linkUp (l : Nat) (e : Eng) : Eng :=
  if e.fb.linksUp.contains l ∨ !linkRuns e l then e
  else linkEvent l true { e with fb := { e.fb with linksUp := e.fb.linksUp ++ [l], links := Tab.erase e.fb.links l } }

/-- FB_PORT_CFG written: every logical link of the port retrains (R396). -/
def portCfg (port v : Nat) (e : Eng) : Eng :=
  let e := (List.range 4).foldl (fun e k => linkDown (4 * port + k) e) e
  let p : Port := { medium := fld v 14 2, anEn := bit v 13, pfcEn := bit v 12, breakout := fld v 8 2, linkMode := fld v 0 8 }
  { e with fb := { e.fb with ports := Tab.set e.fb.ports port p } }

/-- A direct-mode link. -/
def directLink (e : Eng) (l : Nat) : DirectLink := Tab.get {} e.fb.links l

/-- Change a direct-mode link. -/
def setLink (l : Nat) (f : DirectLink → DirectLink) (e : Eng) : Eng :=
  { e with fb := { e.fb with links := Tab.modify {} e.fb.links l f } }

/-- Frames of the replay buffer from a sequence number on; none where it is not there. -/
def replayFrom (d : DirectLink) (seq : Nat) : List (Nat × List Byte) := d.replay.dropWhile (fun f => f.1 != seq)

/-- A negative acknowledgement names a frame: it and those after it are sent again; after three failed replays of one frame
the link goes down and retrains (R400). -/
def opLinkNak (l seq : Nat) (e : Eng) : Eng :=
  let d := directLink e l
  match replayFrom d seq with
  | [] => e
  | fs =>
    let again := (d.replay.head?.map (·.1)) == some seq
    let n := if again then d.fails else 0
    if 3 ≤ n then linkDown l e
    else
      let e := setLink l (fun d => { d with replay := fs, fails := n + 1 }) (count Ctr.fbLinkReplays 1 e)
      fs.foldl (fun e f => putWire l f.2 e) e

/-- Put packet bytes that this engine forwards on a link (R401): a link frame, or an Ethernet frame from this engine. -/
def putTransit (l dst : Nat) (pkt : List Byte) (e : Eng) : Eng :=
  if linkMode e l = 2 then putDirect l pkt e
  else
    let tag := if e.fb.vlanEn then be2 0x8100 ++ be2 (at_ e.fb.pcp 13 + e.fb.vid) else []
    let b := macOf e dst ++ macOf e e.fb.node ++ tag ++ be2 e.fb.ethertype ++ pkt
    let b := b ++ zeros (60 - b.length)
    putWire l (b ++ leBytes 4 (crc32 b)) e

/-- Forward packet bytes to another node: one hop fewer, by the routing table (R401). -/
def forward (pkt : List Byte) (e : Eng) : Eng :=
  let hops := num pkt 3 1
  let dst := fld (num pkt 8 3) 0 20
  if hops = 0 then count Ctr.fbHopExpired 1 e
  else
    let r := Tab.get 0 e.fb.rr dst
    match pickTurn (slotsTo e dst) (r / 4) with
    | none => count Ctr.fbUnroutable 1 e
    | some (k, l, _) =>
      putTransit l dst (pkt.take 3 ++ leBytes 1 (hops - 1) ++ pkt.drop 4) (count Ctr.fbTransit 1
        { e with fb := { e.fb with rr := Tab.set e.fb.rr dst (4 * (r / 4 + 1) + k) } })

/-- Send a negative acknowledgement that names the frame expected next. -/
def sendNak (l : Nat) (e : Eng) : Eng :=
  let d := directLink e l
  putWire l (linkFrame d.txSeq d.rxSeq 1 []) e

/-- A link frame checks: its CRC and its length (R400). -/
def linkFrameOk (f : List Byte) : Bool :=
  decide (12 ≤ f.length) && crc32 (f.take (f.length - 4)) == num f (f.length - 4) 4

/-- A frame received in Ethernet mode is accepted: the packet bytes in it (R398). -/
def etherPacket (e : Eng) (f : List Byte) : Option (List Byte) :=
  let n := f.length - 4
  let tagged := slice f 12 2 == be2 0x8100
  let o := if tagged then 16 else 12
  let vidOk := if e.fb.vlanEn then tagged && (num f 14 1 % 16 * 256 + num f 15 1 == e.fb.vid) else !tagged
  if decide (64 ≤ f.length) && f.take 6 == macOf e e.fb.node && vidOk && slice f o 2 == be2 e.fb.ethertype &&
      crc32 (f.take n) == num f n 4 then
    some ((f.take n).drop (o + 2))
  else none

end Sys2Proof.Machine
end

