-- ==== Sys2Proof/Machine/Elnan.lean ====
section
/-! DEFINITION. The serial flash, the firmware banks and the Elnan image (R482, R511, R513 to R517). The sections LINKS,
ESCALATION and POWER have no byte layout in the spec; log 14 names the one taken. -/

namespace Sys2Proof.Machine

/-! ## The flash (R513, R514) -/

/-- Bytes of the flash; an erased byte reads 0xFF. -/
def flashRead (fw : Firmware) (a n : Nat) : List Byte := memRead 0xFF fw.flash a n

/-- Program bytes of the flash. -/
def flashPut (a : Nat) (bs : List Byte) (fw : Firmware) : Firmware := { fw with flash := memPut 0xFF fw.flash a bs }

/-- Erase a sector of 4 KiB. -/
def flashErase (a : Nat) (fw : Firmware) : Firmware :=
  { fw with flash := fw.flash.filter (fun c => c.1 < a ∨ a + 4096 ≤ c.1) }

/-- Where a firmware bank begins. -/
def bankBase (b : Nat) : Nat := 0x00100000 + b * 0x00C00000

/-- Bytes of a firmware bank. -/
def bankSize : Nat := 0x00C00000

/-- Where an Elnan copy begins. -/
def copyBase (k : Nat) : Nat := 0x01900000 + k * 0x00100000

/-- Bytes of an Elnan copy. -/
def copySize : Nat := 0x00100000

/-- Where the boot loader begins, and its bytes. -/
def loaderBase : Nat := 0x00010000
/-- Bytes of the boot loader. -/
def loaderSize : Nat := 0x000F0000

/-! ## Firmware banks (R482, R511) -/

/-- The image in a bank, as the bytes that are not erased, by offset. -/
def bankImage (fw : Firmware) (b : Nat) : List (Nat × Byte) :=
  (fw.flash.filter (fun c => bankBase b ≤ c.1 ∧ c.1 < bankBase b + bankSize)).map (fun c => (c.1 - bankBase b, c.2))

/-- Build identifier of the image in a bank; the factory's is 1. Log 4, log 15. -/
def bankBuild (fw : Firmware) (b : Nat) : BitVec 64 := if fw.factory.contains b then 1 else Config.imageBuild (bankImage fw b)

/-- Security version of the image in a bank; the factory's is 0. -/
def bankSecurity (fw : Firmware) (b : Nat) : Nat :=
  if fw.factory.contains b then 0 else (Config.imageSecurity (bankImage fw b)).toNat

/-- The image in a bank passes verification (R482). -/
def bankOk (fw : Firmware) (b : Nat) : Bool :=
  (fw.factory.contains b || Config.imageVerifies (bankImage fw b)) && decide (fw.antiRollback ≤ bankSecurity fw b)

/-- The bank that boots, if any: the active one or the other (R482), as BOOT_SEL lets it at a cold reset (R511). -/
def bootBank (fw : Firmware) (bootSel : Nat) : Option Nat :=
  let try' := fun (bs : List Nat) => bs.find? (bankOk fw)
  match bootSel with
  | 0 => try' [fw.activeBank, 1 - fw.activeBank]
  | 1 => try' [0]
  | 2 => try' [1]
  | _ => none

/-! ## The Elnan image (R516, R517) -/

/-- Sections of an image copy: ID and content. -/
def sectionsF : Nat → List Byte → List (Nat × List Byte)
  | 0, _ => []
  | n + 1, bs =>
    if bs.length < 8 then []
    else (num bs 0 4, slice bs 8 (num bs 4 4)) :: sectionsF n (bs.drop (8 + ceilDiv (num bs 4 4) 8 * 8))

/-- The sections of copy `k`. -/
def copySections (fw : Firmware) (k : Nat) : List (Nat × List Byte) :=
  let n := num (flashRead fw (copyBase k) 32) 12 4
  sectionsF (n / 8) (flashRead fw (copyBase k + 32) n)

/-- A section's content. -/
def findSection (ss : List (Nat × List Byte)) (id : Nat) : Option (List Byte) := (ss.find? (fun s => s.1 == id)).map (·.2)

/-- Copy `k` is valid: header, CRC and IDENTITY (R517). -/
def copyOk (fw : Firmware) (k : Nat) : Bool :=
  let h := flashRead fw (copyBase k) 32
  let n := num h 12 4
  h.take 5 == [0x45, 0x4C, 0x4E, 0x4E, 0x01] && decide (n ≤ copySize - 32) &&
    crc32c (flashRead fw (copyBase k + 32) n) == num h 16 4 &&
    (match findSection (copySections fw k) 1 with | some s => decide (8 ≤ s.length) | none => false)

/-- Sequence of copy `k`. -/
def copySeq (fw : Firmware) (k : Nat) : Word := BitVec.ofNat 32 (num (flashRead fw (copyBase k) 32) 8 4)

/-- The copy in use: the valid one of the later sequence (R352, R517). -/
def copyInUse (fw : Firmware) : Option Nat :=
  match copyOk fw 0, copyOk fw 1 with
  | true, true => if serialAfter (copySeq fw 1) (copySeq fw 0) then some 1 else some 0
  | true, false => some 0
  | false, true => some 1
  | false, false => none

/-- The sections in use; none where no copy is valid. -/
def imageSections (fw : Firmware) : List (Nat × List Byte) :=
  match copyInUse fw with
  | some k => copySections fw k
  | none => []

/-- Port set-up of fabric port `p`, or of ridge port `p - 16`, from the LINKS section: breakout, medium, AN_EN, LINK_MODE. Log 14. -/
def linkRecord (s : List Byte) (p : Nat) : Port :=
  let r := slice s (8 * p) 8
  { breakout := fld (num r 0 1) 0 2, medium := fld (num r 1 1) 0 2, anEn := bit (num r 2 1) 0, linkMode := num r 3 1 }

/-- The identity and the port set-up (R516). -/
def imageLinks (ss : List (Nat × List Byte)) (e : Eng) : Eng :=
  let id := (findSection ss 1).getD []
  let ports : Tab Port := match findSection ss 2 with
    | some s => (List.range 20).foldl (fun t p => if 8 * p < s.length then Tab.set t p (linkRecord s p) else t) []
    | none => []
  if ss.isEmpty then { e with fb := { e.fb with node := 0xFFFFF, partner := 0xFFFFF, ports := [] } }
  else { e with fb := { e.fb with node := fld (num id 0 4) 0 20, partner := fld (num id 4 4) 0 20, ports } }

/-- Routing tables and fabric constants: the plan header and entries of R418, or R411's reset constants (R516). -/
def imageRoutes (ss : List (Nat × List Byte)) (e : Eng) : Eng :=
  let base := { e.fb with groupMode := false, shift := 0, hopLimit := 16, retries := 3, timeoutUs := 200, routes := [] }
  match findSection ss 3 with
  | none => { e with fb := base }
  | some s =>
    let es := (pieces 16 (s.drop 32)).foldl (fun t d => Tab.set t (num d 0 4) (num d 8 8)) ([] : Tab Nat)
    { e with fb := { base with
      groupMode := num s 8 1 == 1, shift := num s 9 1, hopLimit := num s 10 1, retries := num s 11 1
      timeoutUs := num s 12 2, routes := es } }

/-- Quantisation defaults and the reserved units of the stacks (R516). -/
def imageBlocks (ss : List (Nat × List Byte)) (e : Eng) : Eng :=
  let q := match findSection ss 7 with
    | some s => (num s 0 1, num s 1 1, num s 2 1)
    | none => (4, 1, 1)
  let r := match findSection ss 8 with
    | some s => num s 0 4
    | none => 2 ^ 20
  { e with quDefault := q, store := { e.store with reserved := r } }

/-- What the image gives the data path. -/
def imageEng (ss : List (Nat × List Byte)) (e : Eng) : Eng := imageBlocks ss (imageRoutes ss (imageLinks ss e))

/-- Windows and limits of R476, the watchdog period and the hold-off: eight numbers of two bytes. Log 14. -/
def imageFw (ss : List (Nat × List Byte)) (fw : Firmware) : Firmware :=
  match findSection ss 4 with
  | none => { fw with escUnit := (10, 4), escCore := (60, 3), escEngine := (600, 3), wdogMs := 50, holdoffSec := 60 }
  | some s =>
    { fw with
      escUnit := (num s 0 2, num s 2 2), escCore := (num s 4 2, num s 6 2), escEngine := (num s 8 2, num s 10 2)
      wdogMs := num s 12 2, holdoffSec := num s 14 2 }

/-- A cap within the configuration's range (R507). -/
def clampCap (v : Variant) (w : Nat) : Nat := max v.capFloor (min v.designPower w)

/-- A window of the cap, or the one in force where it lies outside 1 to 1,000 ms (R527). -/
def clampWindow (old w : Nat) : Nat := if 1 ≤ w ∧ w ≤ 1000 then w else old

/-- The power section: cap, window, thresholds lowered by kind and level, current limits by kind. Log 14. -/
def imagePower (v : Variant) (ss : List (Nat × List Byte)) (pw : Power) : Power :=
  match findSection ss 5 with
  | none => { pw with capWatts := v.designPower, capWindow := 10, lowered := [], currentLimits := [] }
  | some s =>
    { pw with
      capWatts := clampCap v (num s 0 2), capWindow := clampWindow 10 (num s 2 2)
      lowered := (List.range 12).foldl (fun t k => Tab.set t k (min 20 (num s (4 + k) 1))) []
      currentLimits := (List.range 3).foldl (fun t k => Tab.set t k (num s (16 + 2 * k) 2)) [] }

/-- The Nightwatch section: mode, I3C static address, SMBus address. Log 14. -/
def imageNw (ss : List (Nat × List Byte)) (nw : Nightwatch) : Nightwatch :=
  match findSection ss 6 with
  | none => { nw with smbus := false, staticAddr := 0x4A }
  | some s =>
    let smbus := num s 0 1 == 1
    { nw with smbus, staticAddr := fld (num s (if smbus then 2 else 1) 1) 0 7 }

end Sys2Proof.Machine
end

