-- ==== Sys2Proof/Machine/Ridge.lean ====
section
/-! DEFINITION. Ridge pairs (chapter 13): journals in custody, forwarding, repair from the partner, pair states and
verdicts, stand-down, joining, resilvering and cutover. -/

namespace Sys2Proof.Machine

/-! ## Packets of the ridge link -/

/-- The ridge core runs (R461, R465). -/
def ridgeCoreUp (e : Eng) : Bool := coreRuns e 3

/-- Change the pair. -/
def setRidge (f : Ridge → Ridge) (e : Eng) : Eng := { e with rg := f e.rg }

/-- Send a STATUS with what it reports now (R432). -/
def sendStatus (e : Eng) : Eng := sendRidge (.status (statusOf e)) e

/-- What the partner may take in again after a held link (R436). -/
def linkResumed (e : Eng) : Eng := admitEntries e

/-! ## Journals (R437) -/

/-- Change an entry held in custody. -/
def setCustody (b : JournalBody) (f : JournalBody → JournalBody) (e : Eng) : Eng :=
  setRidge (fun g => { g with custody := g.custody.map (fun j => if sameEntry b.node b.ring b.seq j then f j else j) }) e

/-- JOURNAL: the custody copy is written and acknowledged; a notice without a descriptor tells of acceptance or release, one
without inputs of completion. Log 62. -/
def opJournal (b : JournalBody) (e : Eng) : Eng :=
  let same := sameEntry b.node b.ring b.seq
  let rest := e.rg.custody.filter (fun j => !same j)
  if b.desc.isEmpty then
    if b.done then setRidge (fun g => { g with custody := rest }) e
    else setCustody b (fun (j : JournalBody) => { j with step := b.step, first := b.first, accepted := true }) e
  else if b.done && b.inputs.isEmpty then setCustody b (fun (j : JournalBody) => { j with done := true }) e
  else
    sendRidge (.journalAck b.ring b.seq)
      (count Ctr.rgJournalBytes (b.desc.length + b.inputs.length) (setRidge (fun g => { g with custody := rest ++ [b] }) e))

/-! ## Forwarding (R150, R270, R431, R440) -/

/-- The ATOMIC of the partner is applied here already (R444). -/
def atomDone (e : Eng) (ring : Nat) (seq : Word) : Bool :=
  e.rg.custody.any (fun j => sameEntry e.fb.partner ring seq j && j.done)

/-- The key that the acknowledgement of a forwarded item names. A replacement row that was passed on is acknowledged by its
return. -/
def keysOf : FwdItem → List FwdKey
  | .entry s x => [.entry (keyOf s x)]
  | .replace _ _ => []
  | .atomic r q _ _ _ _ _ => [.atomic r q]

/-- Take one forwarded item. -/
def takeItem (done : List (Nat × Word)) (e : Eng) : FwdItem → Eng
  | .entry s x => takeForward s x e
  | .replace s x => takeReplaceForward s x e
  | .atomic r q op ty ex a x => if done.contains (r, q) then e else applyAtom op ty ex a x e

/-- The ATOMICs of a packet. -/
def atomsOf (items : List FwdItem) : List (Nat × Word) :=
  nub (items.filterMap (fun i => match i with | .atomic r q _ _ _ _ _ => some (r, q) | _ => none))

/-- FORWARD: entries not seen are added, ATOMIC elements are applied once, and the keys are acknowledged. Entries that this member's close has
yet to reach wait, unacknowledged. -/
def opForward (items : List FwdItem) (e : Eng) : Eng :=
  let e := { e with steps := { e.steps with heldForwards := e.steps.heldForwards ++ items.filter (forwardWaits e) } }
  let items := items.filter (fun f => !forwardWaits e f)
  let as := atomsOf items
  let e' := items.foldl (takeItem (as.filter (fun a => atomDone e a.1 a.2))) e
  let e' := setRidge (fun g => { g with custody := g.custody.map (fun (j : JournalBody) =>
    if as.contains (j.ring, j.seq) && j.node == e.fb.partner then { j with done := true } else j) }) e'
  let ks := items.flatMap keysOf
  if ks.isEmpty then e' else sendRidge (.forwardAck ks) e'

/-- FORWARD_ACK. -/
def opForwardAck (ks : List FwdKey) (e : Eng) : Eng :=
  let es := ks.filterMap (fun k => match k with | .entry x => some x | .atomic _ _ => none)
  atomsAcked ks (forwardAcked es e)

/-! ## Repair (R45, R98, R110, R126, R174, R175) -/

/-- The partner's answer to a request for a row of the step's snapshot (R98 item 2, R126). While this member's own close of the step before is
not complete its rows do not hold that snapshot, and it answers UNAVAILABLE too. Log 135. -/
def rowAnswer (r : RepairReq) (e : Eng) : RepairData × Eng :=
  match tdAt e r.step r.table with
  | none => (.unavailable, e)
  | some t =>
    if e.rg.state != .paired || !admits e r.step || rowsFinished e r.step then (.unavailable, e)
    else
      let q := seekRow t r.row e
      match q.1 with
      | none => (.unavailable, count Ctr.geIntegrityErr 1 q.2)
      | some l =>
        if t.indirect && decide (r.version < 256) && l.version != r.version then (.unavailable, q.2)
        else
          let e := stackBytes (32 * l.units) (count Ctr.geRowsRead 1 q.2)
          let s := slotAt e l
          if slotGood t l s then (.slot s, e) else (.unavailable, count Ctr.geIntegrityErr 1 e)

/-- The partner's answer to a request for a replica: the first of its own that passes; those that fail are marked invalid and counted
(R110 item 3). -/
def replicaAnswer (r : RepairReq) (e : Eng) : RepairData × Eng :=
  match tdAt e r.step r.table with
  | none => (.unavailable, e)
  | some t =>
    if e.rg.state != .paired then (.unavailable, e)
    else
      let xs := (validReplicas e r.table r.row).filter (fun x => x.version == r.version)
      let e := (xs.takeWhile (fun x => !replicaGood t x)).foldl (fun e x => failReplica x e) e
      match xs.find? (replicaGood t) with
      | some x => (.slot x.slot, e)
      | none => (.unavailable, e)

/-- The partner's answer to a request for a staged row (R175). -/
def stagingAnswer (e : Eng) (r : RepairReq) : RepairData :=
  if stepClosed e r.step then .unavailable
  else match e.steps.staging.find? (fun x => x.table == r.table && x.row == r.row) with
    | some x => if x.bad || x.lost then .unavailable else .staged x
    | none => .unavailable

/-- Answer a repair request. -/
def answerRepair (r : RepairReq) (d : RepairData × Eng) : Eng := sendRidge (.repairReply r d.1) d.2

/-- REPAIR: a request for the finished row of a close waits until item 3 is done for it (R174). -/
def opRepair (r : RepairReq) (e : Eng) : Eng :=
  match r.kind with
  | .row => answerRepair r (rowAnswer r e)
  | .replica => answerRepair r (replicaAnswer r e)
  | .staging => answerRepair r (stagingAnswer e r, e)
  | .closeRow =>
    if rowsFinished e r.step then answerFinished r e
    else setRidge (fun g => { g with heldRepairs := g.heldRepairs ++ [r] }) e

/-- The place among the outstanding reads of one that waits for the partner. -/
def waitingRead (e : Eng) (r : RepairReq) (ph : ReadPhase) : Option (Nat × GRead) :=
  let k := e.store.reads.findIdx (fun g => g.table == r.table && g.row == r.row && g.step == r.step && g.phase == ph)
  (e.store.reads[k]?).map (fun g => (k, g))

/-- The partner's row arrives: written back, and used (R98 item 3, R100). -/
def rowIn' (r : RepairReq) (slot : List Byte) (e : Eng) : Eng :=
  match tdAt e r.step r.table with
  | none => e
  | some t =>
    let w := waitingRead e r .repair
    if w.isNone && (rowLoc e t r.row).isSome && !regrains e t.id r.row then e
    else
      let c := confAt e r.step
      let e := count Ctr.gePartnerRepair 1 (writeBack t r.row slot e)
      let e := raiseEvent { kind := Kind.rowRepaired, table := t.id, row := globalRow c t (ownPair e) r.row } e
      match w with
      | some (k, g) => deliver false (.got slot) g.waiters (retireRead k g e)
      | none => e

/-- The partner cannot supply a row: a newer entry is served, any other read is poisoned, and an entry that was to be placed anew is written
with VALID clear (R45, R98 item 4, R126). -/
def rowGone (r : RepairReq) (e : Eng) : Eng :=
  match tdAt e r.step r.table with
  | none => e
  | some t =>
    let bad := t.indirect && ((rowLoc e t r.row).isNone || regrains e t.id r.row)
    let e := if bad then voidEntry t r.row 0 0 (rebuildLater t r.row (regrained t.id r.row e)) else e
    match waitingRead e r .repair with
    | none => e
    | some (k, g) =>
      let a := parseEntry (readEntry e t r.row)
      if t.indirect && !bad && decide (r.version < 256) && a.version != r.version then
        stackBytes (32 * a.units) (count Ctr.geRowsRead 1 (setRead k { g with
          phase := .slotAgain, entry := readEntry e t r.row, channel := a.channel, offset := a.offset, units := a.units } e))
      else deliver false .poison g.waiters (retireRead k g e)

/-- The partner's replica arrives for one read, or cannot be had (R110 items 3 and 4). -/
def replicaIn (r : RepairReq) (d : RepairData) (e : Eng) : Eng :=
  match waitingRead e r .replicaRepair with
  | none => e
  | some (k, g) =>
    match d with
    | .slot s => deliver false (.got s) g.waiters (retireRead k g e)
    | _ => deliver false .poison g.waiters (retireRead k g e)

/-- REPAIR_REPLY. -/
def opRepairReply (r : RepairReq) (d : RepairData) (e : Eng) : Eng :=
  match r.kind, d with
  | .row, .slot s => rowIn' r s e
  | .row, _ => rowGone r e
  | .replica, d => replicaIn r d e
  | .closeRow, d => takeCloseRow r d e
  | .staging, d => takeSums r d e

/-- The row version that a read waiting for the partner found, or 256 where its entry failed. -/
def versionFound (e : Eng) (g : GRead) : Nat :=
  if entryGood g.entry (placeId e g.table) g.row then (parseEntry g.entry).version else 256

/-- A member that leaves PAIRED: its requests to the partner count as answered UNAVAILABLE (R98, R110, R126). -/
def abandonRepairs (e : Eng) : Eng :=
  let e := e.store.reads.foldl (fun e g =>
    let q : RepairReq := { kind := .row, table := g.table, row := g.row, step := g.step, version := versionFound e g }
    match g.phase with
    | .repair => rowGone q e
    | .replicaRepair => replicaIn { q with kind := .replica } .unavailable e
    | _ => e) e
  e.store.regrain.foldl (fun e q => rowGone { kind := .row, table := q.1, row := q.2.1, step := q.2.2, version := 256 } e) e

/-! ## SOLO and DOWN (R434 to R436, R449, R450) -/

/-- Why a member enters SOLO (R458). -/
def soloCause (e : Eng) : Nat :=
  match e.rg.partner with
  | some p => if p.standDown then 2 else if p.outOfService then 3 else if e.rg.verdict = .awaitDeassert then 1 else 0
  | none => if e.rg.verdict = .awaitDeassert then 1 else 0

/-- Enter SOLO: the dirty map dates from the partner's last reported close, and what waited for the partner goes on alone. -/
def enterSolo (cause : Nat) (e : Eng) : Eng :=
  let last := e.rg.partner.bind (·.lastClosed)
  let e := setRidge (fun g => { g with
    state := .solo, verdict := .none, standDown := false, aliveOut := true, releasing := false, rejoin := false
    closeOfDirty := last, resilver := {}, heldRepairs := [], waiting := [] }) e
  let e := raiseEvent { kind := Kind.soloEntered, node := some e.fb.partner, arg1 := cause } (count Ctr.rgSoloEntries 1 e)
  admitEntries (admitHeld (ackAlone (atomsAlone (closeAlone (abandonRepairs e)))))

/-- An own look-up in progress as the batch that asked for it. -/
def jobBatch (e : Eng) (j : Job) : PktHdr × IndexBody :=
  let b : IndexBody :=
    { table := j.table, shard := j.shard, cmdId := j.cmdId, kind := j.kind, transport16 := j.transport16
      entries := j.poss.map (fun p => { row := p.row, bag := j.bag, pos := p.pos, weight := p.weight })
      lasts := if j.complete then [j.bag] else [] }
  ({ hdrTo e e.fb.node j.step (.index b) false with step := j.step }, b)

/-- A request packet that a member in DOWN or JOINING does not serve is answered with REDIRECT (R434). -/
def redirectReq (peer step : Nat) (e : Eng) : Eng :=
  sendPacket peer step .redirect false (count Ctr.rgRedirects (if e.rg.state = .down then 1 else 0) (consume peer e))

/-- The member stops serving: look-ups of other engines are given up, requests it held are redirected, its own wait. -/
def stopServing (e : Eng) : Eng :=
  let mine := (e.store.jobs.filter (fun j => j.requester == e.fb.node)).map (jobBatch e)
  let far := nub (((e.store.heldIndex.map (·.1)) ++ (e.steps.heldEntries.map (·.1))).filter (fun h => h.src != e.fb.node))
  let e := { e with
    store := { e.store with jobs := [], reads := [], regrain := [], tags0 := 0, tags1 := 0
                            startWait := [], heldIndex := mine ++ e.store.heldIndex.filter (fun p => p.1.src == e.fb.node) }
    steps := { e.steps with heldEntries := [], heldForwards := [], unforwarded := [], closing := none } }
  far.foldl (fun e h => redirectReq h.src h.step e) e

/-- Enter DOWN: a STATUS says so first where the link is up, and the signal is released by RIDGE_ALIVE_RELEASE; without a link it
is released at once (R433). What a member that was PAIRED asked of its partner counts as answered UNAVAILABLE (R98). -/
def goDown (sd oos : Bool) (e : Eng) : Eng :=
  let up := !e.rg.portsUp.isEmpty && !e.rg.linkLost
  let was := e.rg.state == .paired
  let e := setRidge (fun g => { g with
    state := .down, verdict := .none, standDown := false, resilver := {}, heldRepairs := [], waiting := [], joinSent := false
    releasing := g.aliveOut && up, aliveOut := g.aliveOut && up }) e
  stopServing (sendRidge (.status { statusOf e with standDown := sd, outOfService := oos }) (if was then abandonRepairs e else e))

/-- Reach a verdict on the partner (R435). -/
def takeVerdict (e : Eng) : Eng :=
  if e.rg.state != .paired || e.rg.verdict == .deferred then e
  else match e.rg.aliveIn, e.rg.linkLost with
    | true, false =>
      if e.rg.verdict = .none then e else linkResumed (setRidge (fun g => { g with verdict := .none }) e)
    | false, true => enterSolo (soloCause e) e
    | false, false =>
      match e.rg.partner with
      | some p => if p.state = .paired then setRidge (fun g => { g with verdict := .awaitStatus }) e else enterSolo (soloCause e) e
      | none => setRidge (fun g => { g with verdict := .awaitStatus }) e
    | true, true =>
      if e.fb.node % 2 = 0 then setRidge (fun g => { g with verdict := .awaitDeassert }) e
      else setRidge (fun g => { g with rejoin := true }) (goDown false false e)

/-! ## Taking part again (R448, R453 order 3) -/

/-- Every entry of an accepted command that has not completed is sent again. -/
def resendCmd (e : Eng) (c : RunCmd) : Eng :=
  let mine := fun (o : OutRec) => o.cmdId == c.id
  let os := (e.steps.outRecs.filter mine).map (fun (o : OutRec) => { o with acked := false })
  let e := dropReqs (fun q => q.cmdId == c.id && bodyCls q.body == 3) e
  let e := { e with steps := { e.steps with outRecs := e.steps.outRecs.map (fun (o : OutRec) => if mine o then { o with acked := false } else o) } }
  (nub (os.map (fun (o : OutRec) => (o.step, o.pair)))).foldl (fun e g =>
    resendRecs (os.filter (fun (o : OutRec) => o.step == g.1 && o.pair == g.2)) g.1 g.2 false e) e

/-- Numbering goes on from a command's first src_seq. -/
def numberFrom (j : JournalBody) (e : Eng) : Eng := { e with steps := { e.steps with srcStep := j.step, srcSeq := j.first } }

/-- A command that this member no longer holds is run again from its journal entry, as a carried command (R387, R457). -/
def reviveCmd (j : JournalBody) (e : Eng) : Eng :=
  let id := freshId e
  let c : RunCmd := { id, ring := j.ring, seq := j.seq, desc := j.desc, step := j.step, work := .none, carried := true, partner := false
                      done := none, recIdx := none, skyHalt := [] }
  let e := numberFrom j { e with hl := { e.hl with cmds := e.hl.cmds ++ [c], nextId := id + 1 } }
  match changeOf j.desc with
  | some x => x.commit c j.inputs e
  | none => e

/-- The records of a completed UPDATE_GRAD are regenerated for resteps and for the fence, and not sent (R151). -/
def regenGrad (j : JournalBody) (e : Eng) : Eng :=
  let cf := confAt e j.step
  match tdIn cf (num j.desc 16 2) with
  | none => e
  | some t =>
    let rs := ((gradRecords j.desc t j.inputs).run {}).1.1
    let id := freshId e
    let ns := numberEntries e.fb.node j.first (rs.map (gradEntry cf t))
    let e := { e with
      hl := { e.hl with nextId := id + 1 }
      steps := { e.steps with
        srcStep := j.step, srcSeq := max (nextSrcSeq e j.step) (j.first + ns.length)
        outRecs := e.steps.outRecs ++ ns.map (fun o =>
          { cmdId := id, step := j.step, pair := o.pair, peer := leadOf o.pair o.half, entry := o.entry, acked := true, ring := j.ring, seq := j.seq }) } }
    if rs.isEmpty then e else noteMax j.step t.id (recordsMax t (rs.map (·.2))) e

/-- This member's record of its ring says that the entry's command was accepted here: with no command of it left, the
command is complete. -/
def onRecord (e : Eng) (j : JournalBody) : Bool := decide (((ring e j.ring).lastSeq - j.seq).toNat < 2 ^ 31)

/-- The entry of a command that completed while the journal was away is released, or retained (R437). -/
def settleEntry (j : JournalBody) (e : Eng) : Eng :=
  if opcode j.desc = 0x18 ∧ e.rg.retentionGib ≠ 0 then
    tellCustody { j with inputs := [], done := true }
      { e with rg := { e.rg with own := e.rg.own.map (fun x => if sameEntry j.node j.ring j.seq x then { x with done := true } else x) } }
  else dropJournal (sameEntry j.node j.ring j.seq) e

/-- One journal entry at a member that returns. -/
def returnEntry (e : Eng) (j : JournalBody) : Eng :=
  match e.hl.cmds.find? (fun c => c.ring == j.ring && c.seq == j.seq) with
  | some c =>
    match c.work with
    | .atomic _ => sendRidge (.forward (atomItems c.ring c.seq j.desc j.inputs)) e
    | _ => if c.done.isSome then e else resendCmd e c
  | none =>
    if !j.accepted then e
    else if j.done || onRecord e j then
      let e := if j.done then e else settleEntry j e
      if opcode j.desc = 0x18 ∧ !e.steps.outRecs.any (fun o => o.ring == j.ring && o.seq == j.seq) then regenGrad j e else e
    else reviveCmd j e

/-- Every owning pair of a step's tables has settled it, as far as this member knows (R448). -/
def settledAll (e : Eng) (s : Nat) : Bool :=
  let ps := nub ((confAt e s).shardMap.map (fun m => m.owner / 2))
  !ps.isEmpty && ps.all (fun p => e.steps.settled.contains (p, s))

/-- The member's own look-ups that waited go to the partner. -/
def sendOwnHeld (e : Eng) : Eng :=
  let hs := e.store.heldIndex.filter (fun p => p.1.src == e.fb.node)
  hs.foldl (fun e p => requestIndex (ownPair e) (halfOf p.2.table ((p.2.entries.head?.map (·.row)).getD 0)) p.1.step p.2 e)
    { e with store := { e.store with heldIndex := e.store.heldIndex.filter (fun p => p.1.src != e.fb.node) } }

/-- The member acts as a requester again (R448). -/
def returnAsRequester (e : Eng) : Eng :=
  let e := { e with fb := { e.fb with reissue := true } }
  let e := e.rg.own.foldl returnEntry e
  let e := { e with fb := { e.fb with reissue := false } }
  let e := (e.steps.fencesSent.reverse).foldl (fun e f => if settledAll e f.1 then e else fenceAll f.1 f.2.1 f.2.2 e) e
  wakeParked (fun _ => true) (tryRoundFences (trySendFences (sendOwnHeld e)))

/-! ## Joining (R451) -/

/-- A member with the empty configuration at epoch 0, and no close on record. -/
def blank (e : Eng) : Bool := e.ls.active == emptyConf && e.ls.pend.isNone && e.steps.lastClosed.isNone

/-- The JOIN of this member. -/
def joinOf (e : Eng) : JoinBody :=
  { node := e.fb.node, config := e.variant, build := e.build, gen := e.fb.gen, lastClosed := e.steps.lastClosed, kept := e.rg.kept
    emptyConfig := e.ls.active == emptyConf && e.ls.pend.isNone, cleared := e.rg.cleared }

/-- Send JOIN. -/
def sendJoin (e : Eng) : Eng := sendRidge (.join (joinOf e)) (setRidge (fun g => { g with joinSent := !g.portsUp.isEmpty }) e)

/-- Refuse a JOIN. -/
def refuseJoin (b : JoinBody) (why : Nat) (e : Eng) : Eng := raiseEvent { kind := Kind.joinRefused, node := some b.node, arg1 := why } e

/-- Both members are in PAIRED: the signal is asserted, and what SOLO kept is released (R450, R453). -/
def pairUp (bytes how : Nat) (e : Eng) : Eng :=
  let e := setRidge (fun g => { g with
    state := .paired, verdict := .none, aliveOut := true, aliveIn := true, releasing := false, resilver := {}, joinSeen := none, kept := true, cleared := false
    written := [], soloJournal := [], closeOfDirty := none
    partner := some { statusOf e with state := .paired } }) e
  raiseEvent { kind := Kind.pairRestored, arg0 := bytes, arg1 := how } e

/-- Bytes of a copied row. -/
def copyRowBytes (r : CopyRow) : Nat := r.slot.length + r.state.length

/-- Bytes of copied rows. -/
def rowsBytes (rs : List CopyRow) : Nat := rs.foldl (fun a r => a + copyRowBytes r) 0

/-- Count bytes copied by resilvering. -/
def addCopied (n : Nat) (e : Eng) : Eng :=
  count Ctr.rgResilverBytes n (setRidge (fun g => { g with resilver := { g.resilver with bytes := g.resilver.bytes + n } }) e)

/-- The configuration whose rows a resilver copies: that of the step after the last close. -/
def copyConf (e : Eng) : Conf := confAt e (match e.steps.lastClosed with | some c => c + 1 | none => e.steps.lastOpened.getD 0)

/-- Every row of every active table (R452). -/
def allRows (e : Eng) : List (Nat × Nat) :=
  let c := copyConf e
  c.tables.flatMap (fun p => (localRows c (parseTD p.2) (ownPair e)).map (fun i => (p.1, i)))

/-- A row as it is copied. A slot or state that fails its reads is first handled as a SOLO member's close handles it (R174, R452). -/
def copyRow (k : Nat × Nat) (e : Eng) : Option CopyRow × Eng :=
  let c := copyConf e
  match tdIn c k.1 with
  | none => (none, e)
  | some t =>
    let q := fetchRow t k.2 e
    let e := if q.1.isSome || rowIsLost q.2 t k.2 || rowVoid q.2 t k.2 then q.2 else loseRow c (stepNow e) t k.2 q.2
    let e := if stateGood (stateOf e t (t.profile' c) k.2) then e else loseState c (stepNow e) t k.2 e
    let slot := match rowLoc e t k.2 with
      | some l => slotAt e l
      | none => lostSlot t (t.fmtOf t.init) 0
    (some { table := k.1, row := k.2, slot, state := stateOf e t (t.profile' c) k.2 }, e)

/-- Rows as they are copied. -/
def copyRows (ks : List (Nat × Nat)) (e : Eng) : List CopyRow × Eng :=
  ks.foldl (fun (a : List CopyRow × Eng) k =>
    let r := copyRow k a.2
    (a.1 ++ r.1.toList, r.2)) ([], e)

/-- Cut copied rows into packets of at most 4,096 bytes (R454). -/
def packRows : List CopyRow → Nat → List CopyRow → List (List CopyRow)
  | acc, _, [] => if acc.isEmpty then [] else [acc]
  | acc, n, x :: t =>
    if n + copyRowBytes x ≤ 4096 ∨ acc.isEmpty then packRows (acc ++ [x]) (n + copyRowBytes x) t
    else acc :: packRows [x] (copyRowBytes x) t

/-- Begin a pass: its rows are copied, and a row written from now on is dirty again (R453 order 4). Log 68. -/
def beginPass (rows : List (Nat × Nat)) (e : Eng) : Eng :=
  let r := copyRows rows e
  let e := setRidge (fun g => { g with resilver := { g.resilver with left := rows, dirty := [] } }) r.2
  (packRows [] 0 r.1).foldl (fun e p => sendRidge (.copy (.rows p)) (addCopied (rowsBytes p) e)) e

/-- A SOLO partner accepts a JOIN: the command journal goes over, then the first pass (R452, R453). -/
def acceptJoin (b : JoinBody) (e : Eng) : Eng :=
  let full := !(b.kept && e.rg.kept && b.lastClosed == e.rg.closeOfDirty)
  let rows := if full then allRows e else nub (e.rg.written.map (·.2))
  let e := setRidge (fun g => { g with joinSeen := none, resilver := { serving := true, full, journaled := true } }) (learnGen b.node b.gen e)
  beginPass rows (sendRidge (.copy (.journal e.rg.custody e.rg.own e.steps.hostClosed full e.ls.active e.ls.pend e.ls.recent)) e)

/-- A close on record is later than another. -/
def laterClose (a b : Option Nat) : Bool :=
  match a, b with
  | some x, some y => decide (y < x)
  | some _, none => true
  | none, _ => false

/-- Both members are in JOINING: the pair forms (R451). -/
def formPair (b : JoinBody) (e : Eng) : Eng :=
  if blank e && b.emptyConfig && b.lastClosed.isNone then returnAsRequester (pairUp 0 2 e)
  else
    let own := e.steps.lastClosed
    let first := laterClose own b.lastClosed || (own == b.lastClosed && e.fb.node % 2 == 0)
    if first then
      let p : StatusBody :=
        { state := .joining, lastClosed := b.lastClosed, standDown := false, outOfService := false, tableFailed := none, ridgeReset := false }
      let e := setRidge (fun g => { g with partner := some p }) e
      acceptJoin b (returnAsRequester (enterSolo 4 e))
    else setRidge (fun g => { g with joinSeen := some b }) e

/-- One member has cleared its job and the other holds a configuration still (R524). Log 150. -/
def clearedApart (e : Eng) (b : JoinBody) : Bool :=
  e.rg.cleared && !b.emptyConfig || b.cleared && !(joinOf e).emptyConfig

/-- Why a JOIN is refused (R451, R524). -/
def joinFail (e : Eng) (b : JoinBody) : Option Nat :=
  if e.rg.state = .paired then some 0
  else if b.node ≠ e.fb.partner then some 1
  else if b.config ≠ e.variant ∨ clearedApart e b then some 2
  else if b.build ≠ e.build then some 3
  else none

/-- JOIN received. In DOWN, or while the ridge core restarts, it waits (R451, R465). -/
def opJoin (b : JoinBody) (e : Eng) : Eng :=
  if e.rg.state = .down || !ridgeCoreUp e then setRidge (fun g => { g with joinSeen := some b }) e
  else match joinFail e b with
    | some why => refuseJoin b why e
    | none =>
      let e := learnGen b.node b.gen e
      if e.rg.state = .solo then acceptJoin b e
      else formPair b (if e.rg.joinSent then e else sendJoin e)

/-- A JOIN that waited is handled. -/
def takeJoinSeen (e : Eng) : Eng :=
  match e.rg.joinSeen with
  | some b => if e.rg.state = .down || !ridgeCoreUp e then e else opJoin b (setRidge (fun g => { g with joinSeen := none }) e)
  | none => e

/-- The image names a partner that differs from this member in another bit than bit 0 (R429). -/
def mispaired (e : Eng) : Bool := e.fb.node / 2 != e.fb.partner / 2

/-- Enter JOINING (R451). A member with a wrong partner does not serve: it stays DOWN (R429). Log 128. -/
def enterJoining (e : Eng) : Eng :=
  if mispaired e then setRidge (fun g => { g with state := .down, rejoin := false }) e
  else takeJoinSeen (sendJoin (setRidge (fun g => { g with state := .joining, rejoin := false, resilver := {}, verdict := .none }) e))

/-! ## The link -/

/-- The ridge link is lost: a verdict is due, or a resilver in progress ends (R435). -/
def loseLink (e : Eng) : Eng :=
  if e.rg.linkLost then e
  else
    let e := setRidge (fun g => { g with linkLost := true, joinSent := false, resilver := {} }) e
    takeVerdict e

/-- Packets that waited for a port go out, in order. -/
def sendWaiting (e : Eng) : Eng :=
  let bs := e.rg.waiting
  bs.foldl (fun e b => sendRidge b e) (setRidge (fun g => { g with waiting := [] }) e)

/-- The ridge link returns. -/
def linkBack (e : Eng) : Eng :=
  if !e.rg.linkLost then e
  else
    let e := setRidge (fun g => { g with linkLost := false, verdict := if g.verdict = .deferred then .none else g.verdict }) e
    match e.rg.state with
    | .paired => sendWaiting (linkResumed (takeVerdict e))
    | .joining => sendJoin e
    | .down => if e.rg.rejoin then enterJoining (setRidge (fun g => { g with kept := true }) e) else e
    | .solo => e

/-- A packet has arrived on the ridge link. -/
def ridgeHeard (e : Eng) : Eng := if e.rg.portsUp.isEmpty then e else linkBack e

/-- Ridge port `k` goes up or down (R432). -/
def ridgePort (k : Nat) (up : Bool) (e : Eng) : Eng :=
  if e.rg.portsUp.contains k == up then e
  else
    let e := linkEvent (64 + k) up e
    if up then linkBack (setRidge (fun g => { g with portsUp := g.portsUp ++ [k] }) e)
    else
      let e := setRidge (fun g => { g with portsUp := g.portsUp.filter (· != k) }) e
      if e.rg.portsUp.isEmpty then loseLink e else e

/-- RIDGE_LINK_SILENCE: no packet for 50 µs. -/
def opLinkSilence (e : Eng) : Eng := loseLink e

/-- RIDGE_ALIVE_LOST: the input reads deasserted. -/
def opAliveLost (e : Eng) : Eng := takeVerdict (setRidge (fun g => { g with aliveIn := false }) e)

/-- VERDICT_WAIT_TIMEOUT: no newer STATUS came within 20 µs. -/
def opVerdictWait (e : Eng) : Eng :=
  if e.rg.state == .paired && e.rg.verdict == .awaitStatus then enterSolo (soloCause e) e else e

/-- VERDICT_DEFERRAL_EXPIRY: the link is not back within 5 ms, so R435 applies (R467). -/
def opDeferralExpiry (e : Eng) : Eng :=
  if e.rg.verdict = .deferred then takeVerdict (setRidge (fun g => { g with verdict := .none }) e) else e

/-- RIDGE_ALIVE_RELEASE: the output is released (R433). -/
def opAliveRelease (e : Eng) : Eng :=
  if e.rg.releasing then setRidge (fun g => { g with releasing := false, aliveOut := false }) e else e

/-- RIDGE_HEARTBEAT_TIMER (R432). -/
def opRidgeBeat (e : Eng) : Eng := sendStatus e

/-! ## Stand-down (R455) -/

/-- A member told to stand down does so once every close begun is complete on both members. -/
def tryStandDown (e : Eng) : Eng :=
  let p := e.rg.partner.bind (·.lastClosed)
  if e.rg.standDown && e.rg.state == .paired && e.steps.closing.isNone && !laterClose e.steps.lastClosed p then goDown true false e
  else e

/-- RG_CTRL.STAND_DOWN written: ignored while the partner is not PAIRED. -/
def opStandDown (e : Eng) : Eng :=
  match e.rg.partner with
  | some p =>
    if e.rg.state == .paired && p.state == .paired then tryStandDown (setRidge (fun g => { g with standDown := true }) e) else e
  | none => e

/-! ## The joiner's side (R453) -/

/-- The command journal arrives at the joiner (R453 orders 2 and 3). A member that lost its configuration takes the partner's.
Log 67. -/
def takeJournal (own custody : List JournalBody) (hostClosed : Option Nat) (full : Bool) (act : Conf) (pend : Option (Nat × Conf))
    (recent : List (Nat × BitVec 16)) (e : Eng) : Eng :=
  let e := setRidge (fun g => { g with own := own, custody := custody, resilver := { full := full, journaled := true } }) e
  let e := if e.ls.active == emptyConf && e.ls.pend.isNone then applyRoutes act { e with ls := { e.ls with active := act, pend := pend, recent := recent } } else e
  let e := if e.steps.lastOpened.isNone then { e with steps := { e.steps with lastOpened := hostClosed, firstOpened := hostClosed, openStep := none } } else e
  returnAsRequester e

/-- RESILVER_COPY at the joiner. Rows are placed at cutover, when the tables they belong to are known. Log 69. -/
def opResilverCopy (b : CopyBlock) (e : Eng) : Eng :=
  if e.rg.state != .joining then e
  else match b with
    | .journal own custody hc full act pend recent => takeJournal own custody hc full act pend recent e
    | .rows rs => addCopied (rowsBytes rs) (setRidge (fun g => { g with resilver := { g.resilver with rows := g.resilver.rows ++ rs } }) e)

/-! ## Passes and cutover (R453) -/

/-- Bytes that rows take as copies: slot and state. -/
def sizeOfRows (e : Eng) (ks : List (Nat × Nat)) : Nat := rowsBytes (copyRows ks e).1

/-- RG_RESILVER_LEFT: rows of the pass in progress, and those dirty again. -/
def resilverLeft (e : Eng) : Nat :=
  if e.rg.resilver.serving then sizeOfRows e (nub (e.rg.resilver.left ++ e.rg.resilver.dirty)) else 0

/-- RESILVER_PASS_DONE: the partner is ready to cut over, or begins another pass. -/
def opPassDone (e : Eng) : Eng :=
  let r := e.rg.resilver
  if !(e.rg.state == .solo && r.serving && !r.ready && ridgeCoreUp e) then e
  else
    let n := r.passes + 1
    if sizeOfRows e r.dirty ≤ e.rg.cutoverMib * 2 ^ 20 ∨ e.rg.maxPasses ≤ n then
      setRidge (fun g => { g with resilver := { g.resilver with passes := n, left := [], ready := true, mark := e.steps.lastClosed } }) e
    else beginPass r.dirty (setRidge (fun g => { g with resilver := { g.resilver with passes := n } }) e)

/-- What cutover copies (R453 order 5). -/
def cutoverOf (rows : List CopyRow) (e : Eng) : CutoverBody :=
  { rows, staging := e.steps.staging, journal := e.steps.writeJournal, seen := e.steps.seen, fences := e.steps.fences
    hotSets := e.store.hotSets, exps := e.steps.exps, lastClosed := e.steps.lastClosed, active := e.ls.active, pend := e.ls.pend
    prev := e.ls.prev, moves := e.ls.moves, recent := e.ls.recent, storageStep := e.store.storageStep, making := e.ls.making }

/-- Bytes of a cutover: rows, staging and the write journal. -/
def cutoverBytes (b : CutoverBody) : Nat :=
  rowsBytes b.rows + b.staging.foldl (fun a r => a + rowBytes r) 0 + b.journal.foldl (fun a p => a + entrySize p.2) 0

/-- Both members, on entering PAIRED, run a forced refresh before the held step is admitted (R109, R453 order 6). -/
def enterPaired (bytes how : Nat) (e : Eng) : Eng :=
  admitEntries (admitHeld (forcedRefresh (count Ctr.rgResilvers 1 (pairUp bytes how e))))

/-- How a resilver copied: 1 in full, 0 incrementally. -/
def howCopied (e : Eng) : Nat := flag e.rg.resilver.full 0

/-- CUTOVER at the partner, at the completion of the next close. -/
def cutoverHere (e : Eng) : Eng :=
  let r := e.rg.resilver
  if e.rg.state == .solo && r.serving && r.ready && e.steps.lastClosed != r.mark && e.steps.closing.isNone && ridgeCoreUp e then
    let q := copyRows r.dirty e
    let b := cutoverOf q.1 q.2
    let e := sendRidge (.cutover b) (addCopied (cutoverBytes b) q.2)
    enterPaired e.rg.resilver.bytes (howCopied e) e
  else e

/-- Fences of both members' records. -/
def joinFences (a b : List FenceRec) : List FenceRec :=
  a ++ b.filter (fun f => !a.any (fun g => g.src == f.src && g.step == f.step && g.round == f.round))

/-- The tables of the partner's configuration get storage: what this member holds of another descriptor is freed (R57, R60). -/
def matchTables (old new : Conf) (e : Eng) : Eng :=
  let gone := old.tables.filter (fun p => Tab.find? new.tables p.1 != some p.2)
  let e := gone.foldl (fun e p => freeTable old (parseTD p.2) e) e
  (new.tables.filter (fun p => !e.store.ready.contains p.1)).foldl (fun e p => initTable new (parseTD p.2) e) e

/-- Place one copied row and its state (R452). -/
def placeCopy (c : Conf) (e : Eng) (r : CopyRow) : Eng :=
  match tdIn c r.table with
  | none => e
  | some t =>
    let e := if r.state.isEmpty then e else setState t.id r.row r.state e
    match placeSlot t r.row r.slot e with
    | some e => e
    | none => if t.indirect then voidEntry t r.row (slotVersion r.slot) (fmtOfSlot t r.slot) e else e

/-- CUTOVER at the joiner: the partner's step state and rows become its own. Log 43. -/
def cutoverThere (b : CutoverBody) (e : Eng) : Eng :=
  if !joinerActs e then e
  else
    let e := addCopied (cutoverBytes b) e
    let old := copyConf e
    let e := { e with ls := { e.ls with active := b.active, pend := b.pend, prev := b.prev, moves := b.moves, making := b.making, recent := b.recent } }
    let e := { e with steps := { e.steps with
      staging := b.staging, writeJournal := b.journal, seen := b.seen, fences := joinFences b.fences e.steps.fences
      lastClosed := b.lastClosed, closing := none } }
    let c := copyConf e
    let e := applyRoutes b.active (matchTables old c e)
    let e := drainAll ((e.rg.resilver.rows ++ b.rows).foldl (placeCopy c) e)
    let e := { e with
      steps := { e.steps with exps := b.exps }
      store := { e.store with hotSets := b.hotSets, replicas := [], dirty := [], storageStep := b.storageStep } }
    let e := match b.lastClosed with | some s => completeClose s e | none => e
    enterPaired e.rg.resilver.bytes (howCopied e) e

/-- CUTOVER. -/
def opCutover (b : Option CutoverBody) (e : Eng) : Eng :=
  match b with
  | none => cutoverHere e
  | some b => cutoverThere b e

/-! ## STATUS (R432, R435) -/

/-- STEP_CLOSEs of a joining member complete with the pair's close. Log 44. -/
def joinerCloses (b : StatusBody) (e : Eng) : Eng :=
  match b.lastClosed with
  | none => e
  | some c =>
    if e.rg.state != .joining then e
    else e.hl.cmds.foldl (fun e k => match k.work with
      | .stepClose s => if s ≤ c then completeClose s e else e
      | _ => e) e

/-- A state in which a member asserts its output (R433). -/
def asserts (s : PairState) : Bool := s == .paired || s == .solo

/-- The pair view after a STATUS. -/
def noteStatus (b : StatusBody) (e : Eng) : Eng :=
  let rises := asserts b.state && (match e.rg.partner with | some p => !asserts p.state | none => true)
  let done := fun (s : Nat) => match b.lastClosed with | some c => decide (s ≤ c) | none => false
  setRidge (fun g => { g with
    partner := some b, aliveIn := g.aliveIn || rises
    written := if g.state = .paired then g.written.filter (fun w => !done w.1) else g.written }) e

/-- A newer STATUS settles a verdict that waited for one. -/
def verdictStatus (b : StatusBody) (e : Eng) : Eng :=
  if e.rg.state != .paired then e
  else if b.ridgeReset then setRidge (fun g => { g with verdict := .deferred }) e
  else if e.rg.verdict = .awaitStatus && b.state = .paired then
    let e := setRidge (fun g => { g with verdict := .none }) (count Ctr.rgPinFaults 1 e)
    raiseEvent { kind := Kind.ridgePinFault, arg1 := 1 } e
  else if !e.rg.aliveIn && b.state != .paired then takeVerdict (setRidge (fun g => { g with verdict := .none }) e)
  else e

/-- A joining member whose JOIN is unanswered sends it again. Log 70. -/
def rejoinStatus (b : StatusBody) (e : Eng) : Eng :=
  if e.rg.state == .joining && !e.rg.resilver.journaled && (b.state == .solo || b.state == .joining) then sendJoin e else e

/-- STATUS received. -/
def opStatus (b : StatusBody) (e : Eng) : Eng :=
  let e := match b.tableFailed with
    | some (t, s, d) => if stepClosed e s then e else failTable s t d e
    | none => e
  rejoinStatus b (joinerCloses b (tryStandDown (verdictStatus b (noteStatus b e))))

end Sys2Proof.Machine
end

