-- ==== Sys2Proof/Machine/Survive.lean ====
section
/-! DEFINITION. What the resets and the low-power states keep of the data path (R473, R474, R480). -/

namespace Sys2Proof.Machine

/-! ## Accepted commands across a reset (R309, R473) -/

/-- STEP_CLOSE of a step has been accepted. -/
def hostClosedStep (e : Eng) (s : Nat) : Bool :=
  (match e.steps.lastOpened with | some o => decide (s ≤ o) | none => false) && e.steps.openStep != some s

/-- What an accepted command becomes: a run is aborted; a read-only command runs again from its descriptor, a look-up of a
closed step to be poisoned. -/
def resetCmd (e : Eng) (c : RunCmd) : RunCmd :=
  if c.carried || c.done.isSome || !readOnly c.desc then c
  else
    let late := (opcode c.desc == 0x10 || opcode c.desc == 0x11) && hostClosedStep e c.step
    let c := { c with poison := c.poison || late, skyHalt := [] }
    match c.work with
    | .stream slot =>
      let r : Rec := { status := Status.streamAborted, count := 0, errTable := (stSlot e slot).gen.toNat, errRow := slot }
      { c with work := .none, done := some r, doneNo := nextDone e }
    | .fence s => { c with work := .fence s }
    | .none => c
    | _ => { c with work := .parked }

/-- A FENCE waits for its snapshot, reset or not. -/
def isFence : Work → Bool
  | .fence _ => true
  | _ => false

/-- The slots of a run in progress or waiting, with what it has written. -/
def abortCounts (e : Eng) : List (Nat × Nat × Nat) :=
  e.st.slots.flatMap (fun s =>
    (match s.2.run with | some r => [(r.cmdId, bytesBefore r, r.gen.toNat)] | none => []) ++
    (match s.2.waiting with | some r => [(r.cmdId, 0, r.gen.toNat)] | none => []))

/-- The record of an aborted run: the bytes before its position, its generation and slot (R280, R309). -/
def abortRecord (l : List (Nat × Nat × Nat)) (c : RunCmd) : RunCmd :=
  match l.find? (fun x => x.1 == c.id), c.done with
  | some x, some r => if r.status = Status.streamAborted then { c with done := some { r with count := x.2.1, errTable := x.2.2 } } else c
  | _, _ => c

/-- Every accepted command at a reset that keeps the host: those to be run again have their turn once the engine runs. -/
def resetCmds (e : Eng) : Eng :=
  let l := abortCounts e
  let again := e.hl.cmds.filter (fun c => !c.carried && c.done.isNone && readOnly c.desc && c.work != .parked && c.work != .none && !isFence c.work)
  let e := { e with hl := { e.hl with cmds := e.hl.cmds.map (fun c => abortRecord l (resetCmd e c)) } }
  wake (again.map (fun c => Waiter.cmd c.id)) e

/-! ## The blocks -/

/-- A waiter that a reset leaves without its run. -/
def keepWaiter : Waiter → Bool
  | .stream _ => false
  | _ => true

/-- Meridian forgets the runs that waited for it. -/
def dropRuns (m : Meridian) : Meridian :=
  let f := fun (l : List Waiter) => l.filter keepWaiter
  { m with
    walks := m.walks.map (fun (w : Walk) => { w with waiters := f w.waiters })
    queued := m.queued.map (fun (w : Walk) => { w with waiters := f w.waiters })
    faults := m.faults.map (fun p => (p.1, { p.2 with waiters := f p.2.waiters }))
    starved := f m.starved, resume := f m.resume, deferred := f m.deferred
    notices := m.notices.filter (fun p => keepWaiter p.1), holds := [], served := [] }

/-- Scale slots keep their descriptors: histories, maxima and what they counted return to their reset values. -/
def dropHistories (q : Tab QSlot) : Tab QSlot := q.map (fun p => (p.1, ({ descs := p.2.descs } : QSlot)))

/-- Stream slots keep their generations; the rest of the stream units returns to its reset value. -/
def dropStreams (s : Streams) : Streams := { slots := s.slots.map (fun p => (p.1, ({ gen := p.2.gen } : StSlot))) }

/-- Every session ends in both directions, under a new generation (R406). -/
def dropSessions (g : BitVec 8) (e : Eng) : Eng :=
  { e with fb := { e.fb with
    gen := g, reqs := []
    sessions := e.fb.sessions.map (fun p =>
      (p.1, ({ peerGen := p.2.peerGen, known := p.2.known, beacons := p.2.beacons } : Session))) } }

/-- The logic of the compute and memory-side dies stops: look-ups in flight, caches, pending lists and replicas are gone. -/
def dropStore (s : Store) : Store :=
  { s with
    jobs := [], reads := [], regrain := [], tags0 := 0, tags1 := 0, heldIndex := [], epoch := false, free0 := [], free1 := []
    replicas := [], dirty := [], cache := [], startWait := [], parityTicks := [], stackTemp := [] }

/-- The compute dies and the memory-side logic stop (R480, R499). -/
def logicDrop (e : Eng) : Eng :=
  let e := resetCmds e
  { e with
    stopped := true, mt := dropRuns e.mt, store := dropStore e.store, qu := dropHistories e.qu
    st := dropStreams e.st, ix := {} }

/-- What nightfall leaves of the data path: as logicDrop, but handle queues, buffer roles and buffer contents are kept, and the queues are free of
the runs that are gone (R480). -/
def nightDrop (e : Eng) : Eng :=
  let d := logicDrop e
  let queues := e.st.queues.map (fun (p : Nat × HQueue) => (p.1, { p.2 with producer := none, consumer := none }))
  { d with st := { d.st with queues, drainHalf := e.st.drainHalf, bufMem := e.st.bufMem } }

/-- What an engine reset leaves of the data path, under a new fabric generation (R472, R480). -/
def engineDrop (g : BitVec 8) (e : Eng) : Eng := logicDrop (dropSessions g e)

/-- Every link goes down, with one event each (R474, R491). -/
def allLinksDown (e : Eng) : Eng :=
  let e := e.fb.linksUp.foldl (fun e l => linkDown l e) e
  [0, 1, 2, 3].foldl (fun e k => ridgePort k false e) e

/-- Counters of the always-on domain outlive every reset but a cold one (R489). -/
def alwaysOnCounter (slot : Nat) : Bool := decide (0x2800 ≤ slot ∧ slot < 0x3000)

/-- Ring set-up returns to its defaults; last seqs and carried commands are kept (R474, R477, R480). -/
def dropRings (e : Eng) : Eng :=
  { e with hl := { e.hl with
    rings := e.hl.rings.map (fun p => (p.1, ({ lastSeq := p.2.lastSeq } : Ring))), ctxs := [], statusBase := 0, mbVector := 0 } }

/-- The host is lost with cause RESET, if there is one; else no attachment is on record (R382, R474). -/
def loseHost (e : Eng) : Eng :=
  if hostUp e then hostLoss 5 e else { e with hl := { e.hl with cause := 0, helloSeen := false } }

/-- What a warm reset adds: the I/O die outside the always-on domain (R474, R480). Log 71. -/
def warmDrop (e : Eng) : Eng :=
  let e := dropRings e
  { e with
    sels := [], ctr := e.ctr.filter (fun p => alwaysOnCounter p.1), mt := {}, setup := {}
    st := {}, tickLatchHost := 0, tickLatchNw := 0
    hl := { e.hl with irqs := [], unacked := [], mailbox := [], readData := [], heartbeatMs := 0, drain := none }
    fb := { e.fb with
      sessions := [], links := [], rr := [], ethertype := 0x88B5, vlanEn := false, pcp := 0, vid := 0, macPrefix := 0x020000 }
    ls := { e.ls with policy := 1, beaconMs := 100, lastPeer := none, mismatched := [], digestSeen := [] }
    rg := { e.rg with retentionGib := 4, maxPasses := 8, cutoverMib := 64, partner := none, aliveIn := false, waiting := [] }
    store := { e.store with bandTop := 0x01000000, heapReserveMib := 0x1000, reserveNow := 0x1000 } }

/-- What a cold reset leaves: nothing but the host's memory, what has left on the wires, and the stacks' sites. -/
def coldEng (e : Eng) : Eng :=
  { variant := e.variant, host := e.host, free := e.free, store := { sites := e.store.sites }
    fb := { tx := e.fb.tx, wire := e.fb.wire } }

/-- What dark keeps of the data path: routing tables, fabric generation, last seqs, carried commands, FW_ counters and local
time; the rest is as after a cold reset (R480, R500). -/
def darkDrop (e : Eng) : Eng :=
  let kept := e.hl.cmds.filter (·.carried)
  { variant := e.variant, host := e.host, free := e.free, tick := e.tick, nwEvents := e.nwEvents
    ctr := e.ctr.filter (fun p => alwaysOnCounter p.1)
    hl := { rings := e.hl.rings.map (fun p => (p.1, ({ lastSeq := p.2.lastSeq } : Ring))), cmds := kept, nextId := e.hl.nextId }
    fb := { node := e.fb.node, partner := e.fb.partner, gen := e.fb.gen, ports := e.fb.ports, groupMode := e.fb.groupMode
            shift := e.fb.shift, hopLimit := e.fb.hopLimit, retries := e.fb.retries, timeoutUs := e.fb.timeoutUs
            routes := e.fb.routes, tx := e.fb.tx, wire := e.fb.wire }
    quDefault := e.quDefault, store := { reserved := e.store.reserved, sites := e.store.sites }, build := e.build, nextBuild := e.nextBuild }

end Sys2Proof.Machine
end

