-- ==== Sys2Proof/Machine/Firmware.lean ====
section
/-! DEFINITION. The reset ladder, escalation, out of service, unit resets, core restarts and firmware activation (chapter 14).
A reset has two parts: what it does when it falls due, and what the engine does once the rung completes; the rung in
progress is part of the state. Log 72. -/

namespace Sys2Proof.Machine

/-! ## The last-cause code (R479) -/

namespace Reason
abbrev powerOn : Nat := 0x01
abbrev resetPin : Nat := 0x02
abbrev nightwatch : Nat := 0x03
abbrev controlParity : Nat := 0x06
abbrev hang : Nat := 0x07
abbrev escUnit : Nat := 0x08
abbrev escCore : Nat := 0x09
abbrev escEngine : Nat := 0x0A
abbrev stackFailed : Nat := 0x0B
abbrev closeUnit : Nat := 0x0C
abbrev restartFailed : Nat := 0x0D
abbrev ladder : Nat := 0x0E
abbrev thermalTrip : Nat := 0x0F
abbrev clockLoss : Nat := 0x10
abbrev bootFailed : Nat := 0x11
end Reason

/-- Where a reset comes from: ORIGIN, INDEX and DETAIL. -/
structure Cause where
  origin : Nat
  index : Nat
  detail : Nat
  deriving DecidableEq, Repr

/-- The 32-bit code. -/
def causeCode (rung : Nat) (c : Cause) (reason : Nat) : Word :=
  BitVec.ofNat 32 (at_ rung 28 + at_ c.origin 24 + at_ reason 16 + at_ c.index 8 + c.detail)

/-- Board or management. -/
def board : Cause := { origin := 5, index := 0, detail := 0 }

/-- Change the data path. -/
def onEng (f : Eng → Eng) (s : State) : State := { s with eng := f s.eng }

/-- A window of seconds in ticks (R20, R476). -/
def seconds (n : Nat) : Nat := n * 10 ^ 8

/-- The events of a count that lie within its window now. -/
def within (s : State) (win : Nat) (ts : List Nat) : List Nat :=
  ts.filter (fun t => decide (s.eng.tick - t < seconds win))

/-! ## Generation tags (R470) -/

/-- The reset domains of a die of each kind (R466). -/
def domainsOf (p : Part) : Nat :=
  match p with
  | .compute => 18
  | .memory => 11
  | .io => 8
  | .stack => 0

/-- Dies of a kind. -/
def diesOf (v : Variant) (p : Part) : Nat :=
  match p with
  | .compute => v.computeDies
  | .memory => v.msDies
  | .io => 1
  | .stack => v.stackCount

/-- Every domain of the dies of a kind. -/
def domainList (v : Variant) (p : Part) : List Domain :=
  (List.range (diesOf v p)).flatMap (fun i => (List.range (domainsOf p)).map (fun d => { die := p, index := i, dom := d }))

/-- The generation tag of a domain. -/
def tagOf (fw : Firmware) (d : Domain) : BitVec 8 :=
  match fw.tags.find? (fun p => p.1 == d) with
  | some p => p.2
  | none => 0

/-- Raise a domain's tag by 1. -/
def raiseTag (d : Domain) (fw : Firmware) : Firmware :=
  { fw with tags := (d, tagOf fw d + 1) :: fw.tags.filter (fun p => p.1 != d) }

/-- Quarantine a domain. -/
def quarantine (d : Domain) (e : Eng) : Eng := { e with shut := if e.shut.contains d then e.shut else e.shut ++ [d] }

/-- QUARANTINE_END: the domain is re-admitted. -/
def opQuarantineEnd (d : Domain) (s : State) : State :=
  { s with eng := { s.eng with shut := s.eng.shut.filter (· != d) } }

/-- The domains a rung resets (R471). -/
def rungDomains (v : Variant) (rung : Nat) : List Domain :=
  domainList v .compute ++ domainList v .memory ++ (if 3 ≤ rung then domainList v .io else [])

/-! ## A rung falls due (R469, R471, R472) -/

/-- The fabric generation rises, and is recorded in the flash before any packet carries it (R406). -/
def nextGen (s : State) : State :=
  { s with fw := { s.fw with genRecord := s.eng.fb.gen + 1 } }

/-- Cold reset: everything but the flash, the fuses, the pins, the host's memory and what has been sent. -/
def coldDrop (code : Word) (s : State) : State :=
  { pending := s.pending
    eng := coldEng s.eng
    pw := { thermtrip := s.pw.thermtrip, tripCode := s.pw.tripCode, resetAsserted := s.pw.resetAsserted, pwrGood := s.pw.pwrGood
            bootSel := s.pw.bootSel }
    fw := { lastCause := code, activeBank := s.fw.activeBank, prevOk := s.fw.prevOk, commitBuild := s.fw.commitBuild
            antiRollback := s.fw.antiRollback, factory := s.fw.factory, flash := s.fw.flash, oosRecord := s.fw.oosRecord
            bootCount := s.fw.bootCount, genRecord := s.fw.genRecord }
    nw := { replies := s.nw.replies, raw := s.nw.raw } }

/-- The member goes down: STATUS first, where the link is up (R433, R472). A member in SOLO keeps its close log. -/
def leave (oos : Bool) (s : State) : State :=
  let solo := if s.fw.resetRung = 0 then s.eng.rg.state == .solo && !oos else s.fw.wasSolo
  let k := s.eng.steps.closing
  let e := goDown false oos s.eng
  { s with
    eng := if solo then { e with steps := { e.steps with closing := k } } else e
    fw := { s.fw with wasSolo := solo } }

/-- The cores and the logic of the dies are in reset (R472, R480). At the start of a warm reset the host is lost (R474). -/
def holdLogic (rung : Nat) (s : State) : State :=
  let s := nextGen s
  let g := s.fw.genRecord
  let e := engineDrop g (if rung = 3 then loseHost s.eng else s.eng)
  let e := if rung = 3 then warmDrop (allLinksDown e) else e
  let e := { e with coreUp := [(0, false), (1, false), (2, false), (3, false), (4, false), (5, false)] }
  let ds := rungDomains e.variant rung
  { s with eng := ds.foldl (fun e d => quarantine d e) e, fw := { ds.foldl (fun fw d => raiseTag d fw) s.fw with debug := false } }

/-- Begin a rung, with its last-cause code. -/
def startRung (rung : Nat) (code : Word) (s : State) : State :=
  let s := leave false s
  if 4 ≤ rung then
    let s := coldDrop code s
    { s with fw := { s.fw with resetRung := 4 } }
  else
    let s := holdLogic rung s
    let e := count (if rung = 3 then Ctr.fwWarmResets else Ctr.fwEngineResets) 1 s.eng
    { s with eng := e, fw := { s.fw with lastCause := code, resetRung := rung, eventDue := some (code, rung) } }

/-- No reset lower than a cold one acts: out of service, without firmware, tripped, or dark (R478, R491, R503). -/
def deaf (s : State) : Bool := s.fw.oos || s.fw.recovery || s.pw.thermtrip || s.pw.state == 3

/-! ## Out of service (R477) -/

/-- Go out of service: the record, an engine reset whose logic stays in reset, ring set-up at its defaults, DOWN. -/
def outOfService (c : Cause) (reason : Nat) (s : State) : State :=
  if s.fw.oos then s
  else
    let code := causeCode 5 c reason
    let s := holdLogic 2 (leave true s)
    let e := count Ctr.fwEngineResets 1 (dropRings (loseHost s.eng))
    { s with
      eng := { e with coreUp := [], shut := [] }
      pw := { s.pw with goal := none }
      fw := { s.fw with
        lastCause := code, oosRecord := some (code, s.fw.bootCount), oos := true, oosReset := false, resetRung := 0
        eventDue := none, actPending := false, actRunning := false, actNext := 0, rollback := none } }

/-! ## Stacks that fail (R252, R253, R260 to R263) -/

/-- A stack fails: its number is recorded, and the member goes out of service. -/
def failStack (k : Nat) (s : State) : State :=
  if s.eng.variant.stackCount ≤ k ∨ s.eng.store.failedStacks.contains k then s
  else
    let e := { s.eng with store := { s.eng.store with failedStacks := s.eng.store.failedStacks ++ [k] } }
    outOfService { origin := 2, index := k / 4, detail := k } Reason.stackFailed { s with eng := e }

/-- A site's stack trains: it is there, and its spare lanes suffice for the repairs. -/
def trains (x : Site) : Bool := x.good && (x.lanes == 0 || decide (x.lanes ≤ Config.spareLanes))

/-- Train one stack: one that does not train fails (R261 item 1). -/
def trainStack (s : State) (k : Nat) : State := if trains (Tab.get {} s.eng.store.sites k) then s else failStack k s

/-- The memory-side logic leaves reset: every stack is trained. -/
def trainStacks (s : State) : State := (List.range s.eng.variant.stackCount).foldl trainStack s

/-! ## Escalation (R476) -/

/-- An engine or warm reset falls due: absorbed, escalated or begun. `counted` is clear for Nightwatch's own. -/
def askReset (rung : Nat) (c : Cause) (reason : Nat) (counted : Bool) (s : State) : State :=
  if deaf s || decide (rung ≤ s.fw.resetRung) then s
  else
    let now := within s s.fw.escEngine.1 s.fw.engineTicks
    if counted && decide (s.fw.escEngine.2 ≤ now.length) then
      outOfService c Reason.escEngine
        { s with eng := count Ctr.fwEscalations 1 s.eng, fw := { s.fw with engineTicks := [] } }
    else
      let s := { s with fw := { s.fw with engineTicks := if counted then now ++ [s.eng.tick] else now } }
      startRung rung (causeCode rung c reason) s

/-! ## Unit resets (R467, R468) -/

/-- Where a domain lies, for the code. -/
def domainCause (d : Domain) : Cause :=
  { origin := match d.die with | .compute => 1 | .memory => 2 | _ => 3, index := d.index, detail := d.dom }

/-- The accumulators of a die lose their contents and held marks (R226). -/
def dropDie (die : Nat) (x : Interact) : Interact := { x with slots := x.slots.filter (fun p => p.1 / 512 != die) }

/-- Runs with requests at a memory-side die issue them again from their positions (R306). -/
def reissueRuns (die : Nat) (e : Eng) : Eng :=
  e.st.slots.foldl (fun e p => match p.2.run with
    | some r => if r.state = .running ∧ r.issued.any (fun q => q.die == die) then resumeRun p.1 e else e
    | none => e) e

/-- Links of a port group. -/
def groupLinks (g : Nat) : List Nat := (List.range 16).map (fun k => 16 * g + k)

/-- The links of a port group go down. -/
def groupDown (g : Nat) (e : Eng) : Eng := (groupLinks g).foldl (fun e l => linkDown l e) e

/-- A unit reset of the ridge link, announced in STATUS: both members defer the verdict (R436). -/
def ridgeReset (e : Eng) : Eng :=
  let e := sendRidge (.status { statusOf e with ridgeReset := true }) e
  let e := if e.rg.state = .paired then setRidge (fun g => { g with verdict := .deferred }) e else e
  [0, 1, 2, 3].foldl (fun e k => ridgePort k false e) e

/-- Meridian's cache and held ranges are emptied, and its walks restart. -/
def restartWalks (e : Eng) : Eng :=
  let f := fun (w : Walk) => { w with lo := 0, hi := rootCount e w.table, below := 0, above := spaceEnd w.table }
  let g := fun (r : Run) => { r with heldSrc := {}, heldDst := {} }
  { e with
    mt := { e.mt with cache := [], holds := [], served := [], walks := e.mt.walks.map f }
    st := { e.st with slots := e.st.slots.map (fun (p : Nat × StSlot) =>
      (p.1, { p.2 with run := p.2.run.map g, waiting := p.2.waiting.map g })) } }

/-- Pairs of other engines that have answered a part of a look-up. -/
def answeredPairs (e : Eng) (c : RunCmd) : List Nat :=
  nub (((lookupBags c).flatMap (·.parts)).filterMap (fun p =>
    if p.data.isSome && p.pair != ownPair e then some p.pair else none))

/-- The result joiner loses what it held: look-ups with answered parts ask the other members (R442, R467). -/
def rejoinCmd (e : Eng) (c : RunCmd) : Eng :=
  let ps := answeredPairs e c
  if c.done.isSome || c.carried || ps.isEmpty then e
  else
    let e := (ps.flatMap (fun p => [leadOf p 0, leadOf p 1])).foldl (fun e m => redirectStep c.step m (failover c.step m e)) e
    wake [.cmd c.id] (setWork c.id .parked (dropReqs (fun q => q.cmdId == c.id) e))

/-- What a unit reset does to the work in flight. The rest is computed or issued again with the same bits. -/
def unitEffect (d : Domain) (e : Eng) : Eng :=
  match d.die, d.dom with
  | .compute, 16 => { e with ix := dropDie d.index e.ix }
  | .memory, 5 => reissueRuns d.index e
  | .io, 4 => ridgeReset e
  | .io, 5 => hostLoss 3 e
  | .io, 6 => restartWalks e
  | .io, 7 => e.hl.cmds.foldl rejoinCmd e
  | .io, k => if k < 4 then groupDown k e else e
  | _, _ => e

/-- The unit reset itself. -/
def unitReset (d : Domain) (reason : Nat) (s : State) : State :=
  let code := causeCode 1 (domainCause d) reason
  let e := raiseEvent { kind := Kind.unitReset, arg0 := code.toNat, arg1 := fld code.toNat 0 28 }
    (count Ctr.fwUnitResets 1 s.eng)
  let s := { s with eng := quarantine d (unitEffect d e), fw := { raiseTag d s.fw with lastCause := code, debug := false } }
  if d.die == .memory && decide (6 ≤ d.dom ∧ d.dom ≤ 9) then trainStack s (4 * d.index + (d.dom - 6)) else s

/-- The domain exists on this engine, and can be reset alone now. -/
def canUnit (s : State) (d : Domain) : Bool :=
  decide (d.index < diesOf s.eng.variant d.die ∧ d.dom < domainsOf d.die) && s.fw.resetRung == 0 && !deaf s &&
    (d.die == .io || !s.eng.stopped)

/-- A unit reset of this domain is done as an engine reset (R468). -/
def closeUnit (s : State) (d : Domain) : Bool :=
  d.die == .memory && (d.dom == 10 || s.eng.steps.closing.isSome && decide (1 ≤ d.dom ∧ d.dom ≤ 9 ∧ d.dom ≠ 5))

/-- A unit reset falls due (R467 to R469, R476). -/
def askUnit (d : Domain) (reason : Nat) (s : State) : State :=
  if !canUnit s d then s
  else if closeUnit s d then askReset 2 (domainCause d) Reason.closeUnit true s
  else
    let mine := within s s.fw.escUnit.1 ((s.fw.unitTicks.filter (fun p => p.1 == d)).map (·.2))
    let rest := s.fw.unitTicks.filter (fun p => p.1 != d)
    if s.fw.escUnit.2 ≤ mine.length then
      askReset 2 (domainCause d) Reason.escUnit true
        { s with eng := count Ctr.fwEscalations 1 s.eng, fw := { s.fw with unitTicks := rest } }
    else
      unitReset d reason { s with fw := { s.fw with unitTicks := rest ++ (mine ++ [s.eng.tick]).map (fun t => (d, t)) } }

/-! ## Activation (R483 to R486) -/

/-- The order in which an activation restarts the cores. -/
def coreOrder : List Nat := [4, 2, 3, 1, 0, 5]

/-- A core's record. -/
def coreOf (fw : Firmware) (c : Nat) : Core := Tab.get {} fw.cores c

/-- Change a core's record. -/
def setCore (c : Nat) (f : Core → Core) (s : State) : State :=
  { s with fw := { s.fw with cores := Tab.modify {} s.fw.cores c f } }

/-- A core stops and is restarted: it is down until CORE_RESTART. Causes: 0 watchdog, 1 protection, 2 activation (R463, R487). -/
def downCore (c cause : Nat) (s : State) : State :=
  onEng (fun e => raiseEvent { kind := Kind.coreRestart, arg1 := c + at_ cause 8 }
    (count Ctr.fwCoreRestarts 1 { e with coreUp := Tab.set e.coreUp c false })) s

/-- A power or thermal emergency is present (R484). -/
def emergency (s : State) : Bool := s.pw.level == 2 || !s.pw.clamped.isEmpty

/-- The FW_ACTIVATION event. -/
def activationEvent (build : BitVec 64) (result core : Nat) (s : State) : State :=
  onEng (raiseEvent { kind := Kind.fwActivation, arg0 := build.toNat, arg1 := result + at_ core 8 }) s

/-- The activation is over. -/
def endActivation (s : State) : State :=
  { s with fw := { s.fw with
    actRunning := false, actPending := false, actNext := 0, rollback := none, deferred := false, bank := s.fw.activeBank
    cores := s.fw.cores.map (fun p => (p.1, { p.2 with newImage := false })) } }

/-- Every core runs the new image: the build is reported from the next configuration on (R486). -/
def finishActivation (s : State) : State :=
  let b := bankBuild s.fw s.fw.activeBank
  let s := activationEvent b 0 0 (endActivation s)
  onEng (fun e => count Ctr.fwActivations 1 { e with nextBuild := some b }) s

/-- Every core runs the old image again. -/
def finishRollback (core : Nat) (s : State) : State :=
  let b := bankBuild s.fw (1 - s.fw.activeBank)
  onEng (count Ctr.fwRollbacks 1) (activationEvent b 1 core (endActivation s))

/-- The activation goes on to its next core; an emergency stops it first (R484). -/
def nextCore (s : State) : State :=
  match s.fw.rollback with
  | some c =>
    if s.fw.actNext = 0 then finishRollback c s
    else downCore (nth coreOrder (s.fw.actNext - 1)) 2 s
  | none =>
    if s.fw.actNext = 6 then finishActivation s
    else if emergency s && decide (0 < s.fw.actNext) then
      activationEvent (bankBuild s.fw s.fw.activeBank) 2 0
        { s with fw := { s.fw with actRunning := false, actPending := true, deferred := true } }
    else downCore (nth coreOrder s.fw.actNext) 2 s

/-- The activation starts, or resumes after an emergency. -/
def startActivation (s : State) : State :=
  let fw := if s.fw.actNext = 0 then { s.fw with activeBank := 1 - s.fw.bank, prevOk := true } else s.fw
  nextCore { s with fw := { fw with actPending := false, deferred := false, actRunning := true } }

/-- A core that does not run the new image after two attempts rolls the activation back (R485). -/
def rollBack (c : Nat) (s : State) : State :=
  nextCore { s with fw := { s.fw with
    activeBank := 1 - s.fw.activeBank, prevOk := false, rollback := some c, actNext := s.fw.actNext + 1 } }

/-- A pending activation may start: the engine is in A0 with no reset in progress, and not deferred by an emergency. -/
def mayActivate (s : State) : Bool :=
  s.fw.actPending && s.fw.resetRung == 0 && s.pw.state == 0 && s.pw.goal.isNone && !s.fw.oos && !s.fw.recovery && !s.eng.stopped

/-- ACTIVATION_HOLDOFF_EXPIRY: the emergency has been clear for the hold-off. -/
def opHoldoff (s : State) : State :=
  if mayActivate s && s.fw.deferred && !emergency s then startActivation s else s

/-- A pending activation that no emergency defers starts once the engine serves (R483, R501). An emergency that it meets there
defers it (R484). -/
def activateIfDue (s : State) : State :=
  if mayActivate s && !s.fw.deferred && (serving s.eng || s.fw.eventDue.isNone) then
    if emergency s then activationEvent (bankBuild s.fw (1 - s.fw.bank)) 2 0 { s with fw := { s.fw with deferred := true } }
    else startActivation s
  else s

/-! ## Core restarts (R463 to R465) -/

/-- The core an activation or its rollback waits for. -/
def waitsFor (fw : Firmware) (c : Nat) : Bool :=
  fw.actRunning && (match fw.rollback with
    | some _ => decide (0 < fw.actNext) && nth coreOrder (fw.actNext - 1) == c
    | none => nth coreOrder fw.actNext == c)

/-- A core stops by its watchdog or its protection unit: restarted, or an engine reset by R476. -/
def failCore (c cause : Nat) (s : State) : State :=
  let now := within s s.fw.escCore.1 (coreOf s.fw c).restarts
  if s.fw.escCore.2 ≤ now.length && !deaf s then
    let s := setCore c (fun k => { k with restarts := [] }) s
    askReset 2 { origin := 4, index := c, detail := 0 } Reason.escCore true (onEng (count Ctr.fwEscalations 1) s)
  else downCore c cause (setCore c (fun k => { k with restarts := now ++ [s.eng.tick], newImage := s.fw.actRunning && s.fw.rollback.isNone }) s)

/-- A core can stop: it exists, runs, and no reset is in progress (R469). -/
def canFail (s : State) (c : Nat) : Bool := decide (c < 6) && s.fw.resetRung == 0 && coreRuns s.eng c && s.pw.state != 3

/-- CORE_WATCHDOG_EXPIRY. -/
def opWatchdog (c : Nat) (s : State) : State :=
  if canFail s c then failCore c 0 (onEng (count Ctr.fwWdogFires 1) s) else s

/-- CORE_PROTECTION_FAULT. -/
def opProtection (c : Nat) (s : State) : State :=
  if canFail s c then failCore c 1 (onEng (count Ctr.fwProtFaults 1) s) else s

/-- A core runs again: it resumes its duties. -/
def coreBack (c : Nat) (s : State) : State :=
  let mine := waitsFor s.fw c
  let new := s.fw.actRunning && s.fw.rollback.isNone
  let s := setCore c (fun k => { k with fails := 0, newImage := new }) (onEng (fun e => { e with coreUp := Tab.set e.coreUp c true }) s)
  let s := onEng (fun e => match c with
    | 3 => takeJoinSeen e
    | 4 => admitEntries (closeGo e)
    | _ => e) s
  if !mine then s
  else match s.fw.rollback with
    | some _ => nextCore { s with fw := { s.fw with actNext := s.fw.actNext - 1 } }
    | none => nextCore { s with fw := { s.fw with actNext := s.fw.actNext + 1 } }

/-- A core did not run within its watchdog period: it is restarted once more, then the engine resets, or the activation
that restarted it is rolled back (R464, R485). -/
def coreStuck (c : Nat) (s : State) : State :=
  let n := (coreOf s.fw c).fails + 1
  let s := setCore c (fun k => { k with fails := n }) (onEng (count Ctr.fwWdogFires 1) s)
  let act := waitsFor s.fw c
  if n < 2 then (if act then downCore c 2 s else failCore c 0 s)
  else
    let s := setCore c (fun k => { k with fails := 0 }) s
    if act && s.fw.rollback.isNone then rollBack c s
    else askReset 2 { origin := 4, index := c, detail := 0 } Reason.restartFailed true s

/-- CORE_RESTART: the restart of a core ends. -/
def opCoreRestart (c : Nat) (runs : Bool) (s : State) : State :=
  if 6 ≤ c ∨ s.fw.resetRung ≠ 0 ∨ coreRuns s.eng c then s
  else if runs then coreBack c s
  else coreStuck c s

/-! ## Completion of a rung (R472, R475) -/

/-- A firmware image takes over at a boot: an activation in progress completes with the bank that is active (R485). -/
def bootActivation (s : State) : State :=
  if s.fw.actRunning || decide (0 < s.fw.actNext) then
    match s.fw.rollback with
    | some c => finishRollback c s
    | none => finishActivation s
  else s

/-- The cores boot and the logic of the dies leaves reset. -/
def startLogic (s : State) : State :=
  { s with
    eng := { s.eng with coreUp := [], stopped := false, shut := [] }
    fw := { s.fw with resetRung := 0, wasSolo := false
                      cores := s.fw.cores.map (fun p => (p.1, { p.2 with newImage := false, fails := 0 })) } }

/-- The cores boot, the logic leaves reset, and the stacks train. -/
def runLogic (s : State) : State := trainStacks (startLogic s)

/-- A member that was in SOLO replays its close log and solo journal, and serves again (R450, R472). Log 73. -/
def resumeSolo (e : Eng) : Eng :=
  let e := setRidge (fun g => { g with state := .solo, verdict := .none, aliveOut := true, releasing := false, resilver := {} }) e
  returnAsRequester (forcedRefresh e)

/-- The power state returns to A0, with its event (R501). -/
def toA0 (s : State) : State :=
  if s.pw.state = 0 then s
  else { s with
    eng := raiseEvent { kind := Kind.powerState, arg1 := 0 } s.eng
    pw := { s.pw with state := 0, goal := none } }

/-- The bank that boots at a reset other than a cold one (R482). -/
def pickBank (sel : Nat) (s : State) : Option State :=
  (bootBank s.fw sel).map (fun b => { s with fw := { s.fw with bank := b } })

/-- An engine or warm reset completes. -/
def finishWarm (s : State) : State :=
  match pickBank 0 s with
  | none => outOfService board Reason.bootFailed s
  | some s =>
    let solo := s.fw.wasSolo
    let kept := s.pw.state != 3
    let s := trainStacks (toA0 (bootActivation (startLogic s)))
    if s.fw.oos then s
    else onEng (fun e => wakeParked (fun _ => true)
      (if solo then resumeSolo e else if s.fw.noImage then e else enterJoining (setRidge (fun g => { g with kept }) e))) (onEng rebuildAll s)

/-- What boots at a cold reset: the Elnan image is read, and the generation and boot count go on from the flash (R475, R517). -/
def bootCold (s : State) : State :=
  let ss := imageSections s.fw
  let g := s.fw.genRecord + 1
  let e := imageEng ss { s.eng with build := s.fw.commitBuild }
  { s with
    eng := { e with fb := { e.fb with gen := g } }
    pw := { imagePower e.variant ss s.pw with present := [0, 1, 2, 3], resetAsserted := false, pwrGood := true }
    fw := { imageFw ss s.fw with genRecord := g, bootCount := s.fw.bootCount + 1, noImage := ss.isEmpty, copyUsed := copyInUse s.fw, resetRung := 0 }
    nw := imageNw ss s.nw }

/-- A cold reset completes. The logic of an engine that BOOT_SEL holds in RECOVERY, or without a bank that verifies, stays in
reset (R477, R511). -/
def finishCold (s : State) : State :=
  let code := s.fw.lastCause
  let noCores := [(0, false), (1, false), (2, false), (3, false), (4, false), (5, false)]
  let s := bootCold s
  if s.pw.bootSel = 3 then
    { s with eng := { s.eng with coreUp := noCores }, fw := { s.fw with recovery := true } }
  else match pickBank s.pw.bootSel s with
    | none =>
      let rec' := causeCode 5 board Reason.bootFailed
      { s with
        eng := { s.eng with coreUp := noCores }
        fw := { s.fw with lastCause := rec', oosRecord := some (rec', s.fw.bootCount), oos := true, oosReset := false, noBank := true } }
    | some s =>
      if s.fw.oosRecord.isSome then trainStacks { s with eng := { s.eng with coreUp := [] }, fw := { s.fw with oos := true, oosReset := true } }
      else
        let s := runLogic s
        if s.fw.oos || s.fw.noImage then s
        else onEng enterJoining { s with fw := { s.fw with eventDue := some (code, 4) } }

/-- ENGINE_RESET raised once the engine serves again (R472). -/
def raiseDue (s : State) : State :=
  match s.fw.eventDue with
  | some (code, rung) =>
    if serving s.eng then
      { s with eng := raiseEvent { kind := Kind.engineReset, arg0 := code.toNat, arg1 := rung } s.eng, fw := { s.fw with eventDue := none } }
    else s
  | none => s

/-! ## The rows -/

/-- The code of a reset whose cause no rule gives: RUNG, and a free value. -/
def freeCause (rung : Nat) (s : State) : State × Word :=
  let f := takeFree s.eng
  ({ s with eng := f.2 }, BitVec.ofNat 32 (at_ rung 28 + fld f.1.toNat 0 28))

/-- The rung in progress completes; with none in progress the whole reset happens here. -/
def opReset (rung : Nat) (s : State) : State :=
  if s.pw.thermtrip then s
  else
    let s := if s.fw.resetRung = 0 && (rung = 4 || !deaf s) then
        let f := freeCause rung s
        startRung rung f.2 f.1
      else s
    if s.fw.resetRung ≠ rung then s
    else if rung = 4 then finishCold s
    else if s.pw.present.contains 0 then finishWarm s else s

/-- LADDER_TIMEOUT: the rung in progress did not complete in its time (R471). -/
def opLadder (s : State) : State :=
  if s.fw.resetRung = 2 then askReset 3 { origin := 0, index := 0, detail := 0 } Reason.ladder true s
  else if s.fw.resetRung = 3 then startRung 4 (causeCode 4 { origin := 0, index := 0, detail := 0 } Reason.ladder) s
  else s

end Sys2Proof.Machine
end

