-- ==== Sys2Proof/Machine/Power.lean ====
section
/-! DEFINITION. Stack faults and temperatures (R253, R259 to R262), clocks, thermal levels, current clamps, the power cap, dusk,
nightfall and dark, and the board's signals (chapter 15). -/

namespace Sys2Proof.Machine

/-! ## Errors in data (R175, R246, R253, R260, R261) -/

/-- A read of a pseudo-channel failed twice: more than 16 within 1 s fail the stack. -/
def readFailed (k ch : Nat) (s : State) : State :=
  let key := 64 * k + ch
  let now := (within s 1 (Tab.get [] s.eng.store.parityTicks key)) ++ [s.eng.tick]
  let s := onEng (fun e => { e with store := { e.store with parityTicks := Tab.set e.store.parityTicks key now } }) s
  if 16 < now.length then failStack k s else s

/-- An outstanding read is at a pseudo-channel of a stack: its granule's, or its slot's. -/
def readAt (e : Eng) (k ch : Nat) (r : GRead) : Bool :=
  let at' := fun (c : Nat) => stackOf c == k && c % 64 == ch
  match r.phase with
  | .granule | .granuleAgain => (match tdAt e r.step r.table with | some t => at' (granulePlace e t (r.row / 4)).1 | none => false)
  | .slot | .slotAgain => at' r.channel
  | _ => false

/-- The row read that a burst belongs to gets an integrity failure (R97, R260). -/
def readBad (k ch : Nat) (read : Option Nat) (e : Eng) : Eng :=
  match read with
  | some n => (match e.store.reads[n]? with | some r => if readAt e k ch r then opGatherDone n true false e else e | none => e)
  | none => e

/-- Attempt 1, 2, … of a burst fails parity; it is reissued, once for a read and up to four attempts in all for a write. -/
def burstFailed (k ch : Nat) (write : Bool) (attempt : Nat) (read : Option Nat) (s : State) : State :=
  if attempt < (if write then 4 else 2) then onEng (count Ctr.geIfParityRetry 1) s
  else
    let s := onEng (count Ctr.geIfParityFail 1) s
    if write then failStack k s else readFailed k ch (onEng (readBad k ch read) s)

/-- Change what is known of a stack's site. -/
def setSite (k : Nat) (f : Site → Site) (e : Eng) : Eng := { e with store := { e.store with sites := Tab.modify {} e.store.sites k f } }

/-- An error is detected on the path of a token of a COMBINE (R246). -/
def tokenError (ring : Nat) (seq : Word) (t : Nat) (e : Eng) : Eng :=
  { e with hl := { e.hl with cmds := e.hl.cmds.map (fun c =>
    if c.ring = ring ∧ c.seq = seq ∧ c.done.isNone ∧ opcode c.desc = 0x43 then { c with tokenErrs := c.tokenErrs ++ [t] } else c) } }

/-- BURST_PARITY_ERROR, and the other errors of data in the stacks, the staging and a token's path. Log 141. -/
def opBurstParity (k ch : Nat) (write : Bool) (x : Struck) (s : State) : State :=
  match x with
  | .site => if s.eng.variant.stackCount ≤ k then s else onEng (setSite k (fun x => { x with good := false })) s
  | .lane => if s.eng.variant.stackCount ≤ k then s else onEng (setSite k (fun x => { x with lanes := x.lanes + 1 })) s
  | .burst attempt read =>
    if s.eng.stopped || decide (s.eng.variant.stackCount ≤ k ∨ 64 ≤ ch) then s else burstFailed k ch write attempt read s
  | .staged t row => if s.eng.stopped then s else onEng (opStagedError t row) s
  | .token ring seq t => if s.eng.stopped then s else onEng (tokenError ring seq t) s

/-- REFRESH_MANAGEMENT_REQUEST: honoured (R253). -/
def opRefreshMgmt (k : Nat) (e : Eng) : Eng := if e.variant.stackCount ≤ k then e else count Ctr.geRefreshMgmt 1 e

/-! ## Thermal levels (R502 to R504) -/

/-- The number of a part kind, as THERMAL_LEVEL and PW_TEMP_SEL give it. -/
def partNo (p : Part) : Nat :=
  match p with
  | .compute => 0
  | .memory => 1
  | .io => 2
  | .stack => 3

/-- The threshold of level 1 to 3 for a part kind, as the image lowers it (R502). -/
def threshold (pw : Power) (kind level : Nat) : Nat :=
  let base := match level, kind with
    | 1, _ => 95
    | 2, 3 => 100
    | 2, _ => 105
    | _, 3 => 105
    | _, _ => 115
  base - Tab.get 0 pw.lowered (3 * kind + (level - 1))

/-- The level a temperature reaches. -/
def levelOf (pw : Power) (kind t : Nat) : Nat :=
  if threshold pw kind 3 ≤ t then 3 else if threshold pw kind 2 ≤ t then 2 else if threshold pw kind 1 ≤ t then 1 else 0

/-- Every part with a temperature: kind, index, temperature. -/
def partTemps (s : State) : List (Nat × Nat × Nat) :=
  s.pw.temps.map (fun p => (p.1 / 8, p.1 % 8, p.2)) ++ s.eng.store.stackTemp.map (fun p => (3, p.1, p.2.1))

/-- The part of the highest level, the hottest among them. -/
def hottest (s : State) : Option (Nat × Nat × Nat) :=
  (partTemps s).foldl (fun b p =>
    match b with
    | none => some p
    | some q =>
      let l := levelOf s.pw p.1 p.2.2
      let m := levelOf s.pw q.1 q.2.2
      if m < l ∨ m = l ∧ q.2.2 < p.2.2 then some p else b) none

/-- Every part is at least 5 °C below its threshold of a level. -/
def below (s : State) (level : Nat) : Bool := (partTemps s).all (fun p => decide (p.2.2 + 5 ≤ threshold s.pw p.1 level))

/-- The event of a level (R526). -/
def levelEvent (level : Nat) (s : State) : State :=
  match hottest s with
  | some (kind, i, t) => onEng (raiseEvent { kind := Kind.thermalLevel, arg0 := t, arg1 := level + at_ kind 8 + at_ i 16 }) s
  | none => s

/-- The engine's level changes. -/
def setLevel (level : Nat) (s : State) : State := levelEvent level { s with pw := { s.pw with level } }

/-- The host's, the fabric's and the ridge's links are down without notice: the dies that ran them are held (R503). -/
def cutLinks (e : Eng) : Eng :=
  { e with
    fb := { e.fb with linksUp := [], links := [] }
    rg := { e.rg with portsUp := [], linkLost := true } }

/-- Trip: THERMTRIP_N is asserted, RIDGE_ALIVE_OUT_N released, and every die outside the always-on domain held in reset. -/
def trip (kind index : Nat) (s : State) : State :=
  if s.pw.thermtrip then s
  else
    let e := loseHost (goDown false false (cutLinks s.eng))
    { s with
      eng := { e with stopped := true, rg := { e.rg with aliveOut := false, releasing := false, waiting := [] } }
      pw := { s.pw with
        thermtrip := true
        tripCode := (match kind with | 0 => 1 | 2 => 3 | _ => 2, if kind = 3 then index / 4 else index, 0) } }

/-- The marks of how long every part has been cool. -/
def markCool (s : State) : State :=
  let keep := fun (b : Bool) (o : Option Nat) => if b then some (o.getD s.eng.tick) else none
  { s with pw := { s.pw with cool := keep (below s 1) s.pw.cool, calm := keep (below s 2) s.pw.calm } }

/-- A mark is at least `ms` milliseconds old. -/
def longFor (s : State) (o : Option Nat) (ms : Nat) : Bool :=
  match o with
  | some t => decide (ms * 10 ^ 5 ≤ s.eng.tick - t)
  | none => false

/-- Judge the temperatures after a sample: Trip and the rises act at once, a level is left once its parts have been cool long
enough. -/
def judge (s : State) : State :=
  let s := markCool s
  match hottest s with
  | none => s
  | some (kind, i, t) =>
    let l := levelOf s.pw kind t
    if l = 3 then trip kind i (levelEvent 3 s)
    else if s.pw.level < l then
      setLevel l (if l = 2 then onEng (count Ctr.pwEmergencies 1) s else s)
    else if s.pw.level = 2 then (if l < 2 && longFor s s.pw.calm 10 then setLevel 1 s else s)
    else if s.pw.level = 1 then (if l = 0 && longFor s s.pw.cool 100 then setLevel 0 s else s)
    else s

/-- Sensors of a die of a kind (R502). -/
def sensorsOf (p : Part) : Nat := match p with | .compute => 8 | _ => 4

/-- A kind of die is powered and sampled: the I/O die up to nightfall, the others in A0 and A1. -/
def sampled (s : State) (p : Part) : Bool :=
  !s.pw.thermtrip && (match p with
    | .io => s.pw.state != 3
    | .stack => false
    | _ => s.pw.state == 0)

/-- THERMAL_SAMPLE: the sensors of every die of a kind, die by die. A die's temperature is its hottest sensor. -/
def opThermalSample (kind : Part) (temps : List Nat) (s : State) : State :=
  if !sampled s kind then s
  else
    let t := (List.range (diesOf s.eng.variant kind)).foldl (fun t d =>
      match (temps.drop (sensorsOf kind * d)).take (sensorsOf kind) with
      | [] => t
      | l => Tab.set t (8 * partNo kind + d) (l.foldl max 0)) s.pw.temps
    judge { s with pw := { s.pw with temps := t } }

/-- A stack's reading and whether its refresh is doubled, with the hysteresis of R259. -/
def readStack (old : Bool) (t : Nat) : Nat × Bool := (t, if 85 ≤ t then true else if t ≤ 82 then false else old)

/-- STACK_TEMP_SAMPLE: the temperature of every stack, every 1 ms. -/
def opStackTemp (temps : List Nat) (s : State) : State :=
  if s.eng.stopped || s.pw.state != 0 then s
  else
    let old := s.eng.store.stackTemp
    let new := ((temps.take s.eng.variant.stackCount).zipIdx).foldl (fun t p =>
      Tab.set t p.2 (readStack (Tab.get (0, false) t p.2).2 (fld p.1 0 8))) old
    let s := onEng (fun e => count Ctr.geRefreshDoubled (new.countP (fun p => p.2.2)) { e with store := { e.store with stackTemp := new } }) s
    judge s

/-- CATASTROPHIC_TEMPERATURE: handled as the Trip level (R253). -/
def opCatastrophic (k : Nat) (s : State) : State :=
  if s.eng.variant.stackCount ≤ k || s.pw.state == 3 then s else trip 3 k s

/-- A memory-side die or one of its stacks is at Caution. -/
def memCaution (s : State) (d : Nat) : Bool :=
  (partTemps s).any (fun p => (p.1 == 1 && p.2.1 == d || p.1 == 3 && p.2.1 / 4 == d) && decide (1 ≤ levelOf s.pw p.1 p.2.2))

/-- CAUTION_STEP_TIMER: one step down at Caution or above, every 10 ms; one step back below it, every 100 ms. It waits while the
power core restarts (R465). -/
def opCautionStep (s : State) : State :=
  if !coreRuns s.eng 5 || s.eng.stopped then s
  else if 1 ≤ s.pw.level then
    let hot := (partTemps s).any (fun p => p.1 == 0 && decide (1 ≤ levelOf s.pw 0 p.2.2))
    let ds := (List.range s.eng.variant.msDies).filter (memCaution s)
    { s with pw := { s.pw with
      arithStep := if hot then min 2 (s.pw.arithStep + 1) else s.pw.arithStep
      issue := ds.foldl (fun t d => Tab.set t d (max 8 (Tab.get 16 t d - 1))) s.pw.issue } }
  else
    { s with pw := { s.pw with
      arithStep := s.pw.arithStep - 1
      issue := (s.pw.issue.map (fun p => (p.1, min 16 (p.2 + 1)))).filter (fun p => decide (p.2 < 16)) } }

/-- The issue fraction in force at a memory-side die: the lowest that the cap, Caution or Emergency sets (R507). -/
def issueOf (pw : Power) (d : Nat) : Nat :=
  min (min pw.capIssue (Tab.get 16 pw.issue d)) (if pw.level = 2 then 4 else 16)

/-- The lowest issue fraction in force (R527). -/
def lowestIssue (s : State) : Nat := (List.range s.eng.variant.msDies).foldl (fun a d => min a (issueOf s.pw d)) 16

/-! ## Current clamps (R506) -/

/-- CURRENT_CLAMP: a die exceeds its limit for 200 ns, and is gated to one cycle in two. -/
def opClamp (kind : Part) (d : Nat) (s : State) : State :=
  let key := 8 * partNo kind + d
  if kind == .stack || decide (diesOf s.eng.variant kind ≤ d) || s.pw.clamped.contains key then s
  else
    { s with
      eng := count Ctr.pwCurrentClamps 1 s.eng
      pw := { s.pw with clamped := s.pw.clamped ++ [key] } }

/-- CURRENT_CLAMP_RELEASE: the current has stayed below 95% of the limit for 10 µs. -/
def opClampRelease (kind : Part) (d : Nat) (s : State) : State :=
  { s with pw := { s.pw with clamped := s.pw.clamped.filter (· != 8 * partNo kind + d) } }

/-! ## The power cap (R507, R508) -/

/-- Watts averaged over the window. -/
def powerW (pw : Power) : Nat := if pw.samples.isEmpty then 0 else (pw.samples.foldl (· + ·) 0) / pw.samples.length

/-- A window ends: a new cap takes effect. -/
def nextWindow (pw : Power) : Power :=
  match pw.newCap with
  | some (w, ms) => { pw with capWatts := w, capWindow := ms, newCap := none, winPos := 0, raised := false }
  | none => { pw with winPos := 0, raised := false }

/-- The fraction the power core sets: the one asked for, in sixteenths, but at most one step up in a window. -/
def stepFraction (pw : Power) (want : Nat) : Nat :=
  let want := max 1 (min 16 want)
  if pw.capIssue < want then (if pw.raised then pw.capIssue else pw.capIssue + 1) else want

/-- POWER_CAP_TICK: every 1 ms the interval's power is measured and its energy counted, and the power core sets the highest
fraction whose projected average keeps the cap; the projection is the core's, so the row carries it. Log 74. -/
def opCapTick (watts want : Nat) (s : State) : State :=
  let e := counts [(Ctr.pwEnergyUj, 1000 * watts), (Ctr.ctJobEnergyUj, 1000 * watts),
    (Ctr.pwCautionMs, if 1 ≤ s.pw.level then 1 else 0), (Ctr.pwCapThrottleMs, if s.pw.capActive then 1 else 0)] s.eng
  let pw : Power := { s.pw with samples := (watts :: s.pw.samples).take s.pw.capWindow, winPos := s.pw.winPos + 1 }
  let pw : Power := if pw.capWindow ≤ pw.winPos then nextWindow pw else pw
  let s := { s with eng := e, pw }
  if !coreRuns e 5 || e.stopped then s
  else
    let n := stepFraction pw want
    let on := decide (n < 16)
    let s := { s with pw := { pw with capIssue := n, raised := pw.raised || decide (pw.capIssue < n), capActive := on } }
    if on == pw.capActive then s else onEng (raiseEvent { kind := Kind.capThrottle, arg1 := flag on 0 }) s

/-- Ask for a cap and window, as R507 and R527 take them; they take effect in the next window. -/
def askCap (watts ms : Nat) (s : State) : State :=
  let old := match s.pw.newCap with | some p => p.2 | none => s.pw.capWindow
  { s with pw := { s.pw with newCap := some (clampCap s.eng.variant watts, clampWindow old ms) } }

/-- The cap and window last set. -/
def capSet (pw : Power) : Nat × Nat := pw.newCap.getD (pw.capWatts, pw.capWindow)

/-! ## Dusk (R498) -/

/-- DUSK_IDLE_TIMEOUT: a compute die has held no work for DUSK_US, and gates its arithmetic clock. -/
def opDusk (d : Nat) (s : State) : State :=
  if !s.pw.duskEn || s.pw.duskUs == 0 || s.pw.state != 0 || s.eng.stopped || decide (s.eng.variant.computeDies ≤ d) || s.pw.gated.contains d then s
  else
    { s with
      eng := count Ctr.pwDuskEntries 1 s.eng
      pw := { s.pw with gated := s.pw.gated ++ [d] } }

/-- DUSK_WAKE: work reaches a gated die. -/
def opDuskWake (d : Nat) (s : State) : State := { s with pw := { s.pw with gated := s.pw.gated.filter (· != d) } }

/-- PW_STATUS.STATE: A1 while every compute die is gated in A0 (R497, R498). -/
def powerState (s : State) : Nat :=
  if s.pw.state = 0 ∧ (List.range s.eng.variant.computeDies).all (fun d => s.pw.gated.contains d) then 1 else s.pw.state

/-! ## Reference clocks (R491) -/

/-- The number of a reference in CK_STATUS and CLOCK_LOSS. -/
def refNo (r : Ref) : Nat :=
  match r with
  | .core => 0
  | .serdes => 1
  | .hostLink => 2
  | .alwaysOn => 3

/-- REF_CLOCK_LOST. -/
def opRefLost (r : Ref) (s : State) : State :=
  let k := refNo r
  if !s.pw.present.contains k then s
  else
    let s := { s with pw := { s.pw with
      present := s.pw.present.filter (· != k), lost := if s.pw.lost.contains k then s.pw.lost else s.pw.lost ++ [k] } }
    let s := onEng (fun e => raiseEvent { kind := Kind.clockLoss, arg1 := k } (count Ctr.ckLosses 1 e)) s
    match r with
    | .core => askReset 3 board Reason.clockLoss true s
    | .serdes => onEng allLinksDown s
    | .hostLink => onEng (opModuleFail 0) s
    | .alwaysOn => s

/-- REF_CLOCK_RETURN. Links and the warm reset that waits for the core reference go on by their own rows. -/
def opRefReturn (r : Ref) (s : State) : State :=
  let k := refNo r
  if s.pw.present.contains k then s
  else
    let s := { s with pw := { s.pw with present := (List.range 4).filter (fun j => j == k || s.pw.present.contains j) } }
    if r = .hostLink then onEng (opModuleFail 8) s else s

/-! ## Pins that reset (R494, R504) -/

/-- RESET_N_ASSERT: RESET_N has been asserted for 10 µs. A cold reset in progress keeps its cause (R479). -/
def opResetPin (s : State) : State :=
  let s := if s.fw.resetRung = 4 then s else startRung 4 (causeCode 4 board Reason.resetPin) s
  { s with pw := { s.pw with resetAsserted := true } }

/-- The cause of the cold reset that a fall of PWR_GOOD brings: the trip that preceded it, if one did (R504). -/
def powerFallCode (s : State) : Word :=
  if s.pw.thermtrip then
    causeCode 4 { origin := s.pw.tripCode.1, index := s.pw.tripCode.2.1, detail := s.pw.tripCode.2.2 } Reason.thermalTrip
  else causeCode 4 board Reason.resetPin

/-- PWR_GOOD_FALL: a cold reset, but in dark; THERMTRIP_N is released. -/
def opPowerFall (s : State) : State :=
  if s.pw.state = 3 ∧ s.fw.resetRung = 0 ∧ !s.pw.thermtrip then { s with pw := { s.pw with pwrGood := false } }
  else
    let t := s.pw.thermtrip
    let s := if s.fw.resetRung = 4 ∧ !t then s else startRung 4 (powerFallCode s) s
    { s with pw := { s.pw with pwrGood := false, thermtrip := false, tripCode := (0, 0, 0) } }

/-- POWER_ON: V_AON rises from off; nothing was kept but the flash and the fuses, and the stacks' sites are sound. Log 142. -/
def opPowerOn (s : State) : State :=
  let s := coldDrop (causeCode 4 board Reason.powerOn) s
  { s with
    eng := { s.eng with store := { s.eng.store with sites := [] } }
    pw := { bootSel := s.pw.bootSel, pwrGood := false } }

/-! ## Nightfall and dark (R496, R499 to R501) -/

/-- PW_DOMAIN written: the links of a port group that goes off go down (R496, R397). -/
def groupsOff (v : Nat) (s : State) : State :=
  let off := (List.range 4).filter (fun g => bit v g && !bit s.pw.groupOff g)
  { s with
    eng := off.foldl (fun e g => groupDown g e) s.eng
    pw := { s.pw with groupOff := fld v 0 4 } }

/-- The compute and memory-side domains go down (R499 items 2 and 3). -/
def enterNight (s : State) : State :=
  { s with
    eng := raiseEvent { kind := Kind.powerState, arg1 := 2 } (nightDrop s.eng)
    pw := { s.pw with state := 2, gated := [], temps := s.pw.temps.filter (fun p => p.1 / 8 == 2), clamped := [] }
    fw := { s.fw with debug := false } }

/-- Everything but the always-on domain goes down, and the stacks lose their contents (R499 item 4). -/
def enterDark (s : State) : State :=
  let e := allLinksDown s.eng
  let e := darkDrop (raiseEvent { kind := Kind.powerState, arg1 := 3 } e)
  { s with
    eng := { e with stopped := true }
    pw := { s.pw with state := 3, level := 0, temps := [], gated := [], clamped := [], cool := none, calm := none }
    fw := { s.fw with debug := false } }

/-- The member stands down and the engine enters nightfall, then dark where that is asked (R499). -/
def enterLow (target : Nat) (s : State) : State :=
  let s := if s.pw.state = 0 then
      let e := goDown true false s.eng
      enterNight { s with eng := { e with rg := { e.rg with rejoin := false } } }
    else s
  if target = 3 then enterDark s else s

/-- The transition asked for can go on: no close is in progress, and nothing holds the dies in reset. -/
def lowReady (s : State) : Bool := s.eng.steps.closing.isNone && s.fw.resetRung == 0 && !s.pw.thermtrip

/-- Leave nightfall: the domains are powered and the stacks retrained; the member joins with KEPT (R500). -/
def leaveNight (s : State) : State :=
  let s := nextGen s
  let e := dropSessions s.fw.genRecord s.eng
  let s := toA0 { s with eng := rebuildAll { e with stopped := s.fw.oos } }
  let s := trainStacks s
  if s.fw.oos || s.fw.noImage then s else onEng (fun e => enterJoining (setRidge (fun g => { g with kept := true }) e)) s

/-- Leave dark: the firmware boots from the active bank; the member joins with KEPT clear (R500). -/
def leaveDark (s : State) : State :=
  let s := nextGen s
  let s := { s with
    eng := { s.eng with fb := { s.eng.fb with gen := s.fw.genRecord } }
    pw := { s.pw with pwrGood := true } }
  match pickBank 0 s with
  | none => toA0 (outOfService board Reason.bootFailed s)
  | some s =>
    let s := toA0 (runLogic s)
    if s.fw.oos || s.fw.noImage then s else onEng enterJoining s

/-! ## Outputs (R509, R510) -/

/-- FAULT_N is asserted. -/
def faultN (s : State) : Bool := s.fw.oos || s.fw.noBank || s.fw.noImage || !s.eng.store.failedStacks.isEmpty

/-- ALERT_N is asserted. -/
def alertN (s : State) : Bool := s.pw.level == 2 || !s.eng.nwEvents.isEmpty

/-- THERMTRIP_N is asserted. -/
def thermtripN (s : State) : Bool := s.pw.thermtrip

/-- RIDGE_ALIVE_OUT_N is asserted (R433). -/
def ridgeAliveOutN (s : State) : Bool := s.eng.rg.aliveOut

end Sys2Proof.Machine
end

