-- ==== Sys2Proof/Machine/Registers.lean ====
section
/-! DEFINITION. The set-up register map and the counters (chapter 16): reads and writes of every register through the host
aperture or over Nightwatch. -/

namespace Sys2Proof.Machine

/-! ## Halves of wide values -/

/-- Bits 31:0. -/
def lo32 (x : Nat) : Nat := x % 2 ^ 32

/-- Bits 63:32. -/
def hi32 (x : Nat) : Nat := x / 2 ^ 32 % 2 ^ 32

/-- Replace bits 31:0. -/
def setLo (x v : Nat) : Nat := x / 2 ^ 32 * 2 ^ 32 + v

/-- Replace bits 63:32. -/
def setHi (x v : Nat) : Nat := v * 2 ^ 32 + x % 2 ^ 32

/-! ## Counters (R538 to R541) -/

/-- The level a gauge reports. -/
def gaugeValue (slot : Nat) (e : Eng) : Nat :=
  if slot = Ctr.alHeapFree then heapFree e
  else if slot = Ctr.thReplicas then (nub ((e.store.replicas.filter (·.valid)).map (fun r => (r.table, r.row)))).length
  else if slot = Ctr.upSpillCap then spillCap e * e.variant.msDies
  else if slot = Ctr.upSpillUsed then (e.steps.staging.filter (·.spilled)).foldl (fun a r => a + rowBytes r) 0
  else if slot = Ctr.rgResilverLeft then resilverLeft e
  else retainedDone e

/-- The value of a counter or gauge slot. -/
def slotValue (slot : Nat) (e : Eng) : Nat :=
  if gauges.contains slot then gaugeValue slot e else (Tab.get {} e.ctr slot).value

/-- Store the high half in a path's latch (R541). -/
def latchHigh (p : Path) (w : Word) (c : Counter) : Counter :=
  match p with
  | .host => { c with latchHost := w }
  | .nightwatch => { c with latchNw := w }

/-- A path's latch. -/
def latched (p : Path) (c : Counter) : Word :=
  match p with
  | .host => c.latchHost
  | .nightwatch => c.latchNw

/-- A read of VALUE_LO: the low half, and the high half into the path's latch. -/
def counterLo (p : Path) (slot : Nat) (e : Eng) : Nat × Eng :=
  let v := slotValue slot e
  (lo32 v, { e with ctr := Tab.modify {} e.ctr slot (latchHigh p (BitVec.ofNat 32 (hi32 v))) })

/-- A read within a counter slot. -/
def counterRead (p : Path) (off : Nat) (e : Eng) : Nat × Eng :=
  let slot := off / 16 * 16
  let c := Tab.get {} e.ctr slot
  if !counterSlots.contains slot then (0, e)
  else match off % 16 with
    | 0 => counterLo p slot e
    | 4 => ((latched p c).toNat, e)
    | 8 => (flag (gauges.contains slot) 1 + flag c.sat 0, e)
    | _ => (0, e)

/-- A write within a counter slot clears it: not a gauge, and not a job counter through the host aperture (R538, R540). -/
def counterWrite (p : Path) (off : Nat) (e : Eng) : Eng :=
  let slot := off / 16 * 16
  if !counterSlots.contains slot || gauges.contains slot || decide (8 ≤ off % 16) || (p == .host && jobCounters.contains slot) then e
  else clearCounter slot e

/-- CT_SAT_BLOCKS (R539). -/
def satBlocks (e : Eng) : Nat :=
  (List.range 21).foldl (fun a n => a + flag (e.ctr.any (fun c => c.1 / 0x1000 == n && c.2.sat)) n) 0

/-- The counter block's control registers (R542). -/
def ctRead (p : Path) (r : Nat) (e : Eng) : Nat × Eng :=
  match r with
  | 0x000 => (version, e)
  | 0x004 =>
    let h := BitVec.ofNat 32 (hi32 e.tick)
    (lo32 e.tick, match p with
      | .host => { e with tickLatchHost := h }
      | .nightwatch => { e with tickLatchNw := h })
  | 0x008 => ((match p with | .host => e.tickLatchHost | .nightwatch => e.tickLatchNw).toNat, e)
  | 0x00C => (satBlocks e, e)
  | _ => (0, e)

/-! ## Identity (R536) -/

/-- Bits set for the ports of the I/O die with a die attached. -/
def portMask (v : Variant) : Nat := 2 ^ v.msDies - 1

/-- The ID_ block. -/
def idRead (r : Nat) (e : Eng) : Nat :=
  let v := e.variant
  match r with
  | 0x000 => version + at_ 1 16 + at_ v.code 8 + Config.stepping.toNat
  | 0x004 => Config.enterprise.toNat
  | 0x008 => at_ v.stackCount 24 + at_ 1 16 + at_ v.msDies 8 + v.computeDies
  | 0x00C => at_ (portMask v) 16 + at_ (portMask v) 8
  | 0x010 => at_ v.maxFactor 4 + flag v.clipShare 0
  | 0x014 => 0x01000100
  | 0x018 => 0x001FFFFF
  | 0x01C => lo32 Config.serial.toNat
  | 0x020 => hi32 Config.serial.toNat
  | _ => 0

/-! ## Host link (R391 to R393) -/

/-- HL_CAPS, HL_HOST, HL_CARRIED, HL_LINK, the status base and the ring registers of the selected ring. -/
def hlRead (p : Path) (r : Nat) (e : Eng) : Nat :=
  let n := sel e p 0x1018 0
  let q := ring e n
  let c := sel e p 0x103C 0
  let v := sel e p 0x1044 0
  let i := Tab.get {} e.hl.irqs v
  match r with
  | 0x000 => 0x0140407F
  | 0x004 => at_ e.hl.cause 16 + at_ e.hl.mbVector 8 + attachCode e.hl.attach
  | 0x008 => e.hl.cmds.countP (·.carried)
  | 0x00C => e.hl.modules
  | 0x010 => lo32 e.hl.statusBase
  | 0x014 => hi32 e.hl.statusBase
  | 0x018 => n
  | 0x01C => lo32 q.base
  | 0x020 => hi32 q.base
  | 0x024 => flag q.enable 31 + at_ q.sizeLog2 26 + at_ q.vector 20 + at_ q.cq 14 + at_ q.priority 11 + at_ q.context 7
  | 0x028 => at_ q.modTime 16 + q.modCount
  | 0x02C => flag q.error 31 + flag (decide (n < 64) && headHeld e n) 30 + flag q.draining 29
  | 0x030 => q.prod.toNat
  | 0x034 => q.cons.toNat
  | 0x038 => q.lastSeq.toNat
  | 0x03C => c
  | 0x040 => let x := Tab.get {} e.hl.ctxs c
             flag x.stop 31 + x.weight
  | 0x044 => v
  | 0x048 => lo32 i.addr
  | 0x04C => hi32 i.addr
  | 0x050 => i.data.toNat
  | 0x054 => flag i.pending 1 + flag i.mask 0
  | _ => 0

/-- Change the selected vector. -/
def setIrq (v : Nat) (f : Irq → Irq) (e : Eng) : Eng := { e with hl := { e.hl with irqs := Tab.modify {} e.hl.irqs v f } }

/-- Writes of the host-link block. -/
def hlWrite (p : Path) (r v : Nat) (e : Eng) : Eng :=
  let n := sel e p 0x1018 0
  let c := sel e p 0x103C 0
  let k := sel e p 0x1044 0
  match r with
  | 0x004 => { e with hl := { e.hl with mbVector := fld v 8 6 } }
  | 0x010 => if hostUp e then e else { e with hl := { e.hl with statusBase := setLo e.hl.statusBase (v / 4096 * 4096) } }
  | 0x014 => if hostUp e then e else { e with hl := { e.hl with statusBase := setHi e.hl.statusBase (fld v 0 20) } }
  | 0x018 => if fld v 0 8 ≤ 128 then setSel p 0x1018 (fld v 0 8) e else e
  | 0x01C => setRing n (fun q => { q with base := setLo q.base (v / 4096 * 4096) }) e
  | 0x020 => setRing n (fun q => { q with base := setHi q.base (fld v 0 20) }) e
  | 0x024 => ringCfg n v e
  | 0x028 => setRing n (fun q => { q with modTime := fld v 16 10, modCount := max 1 (fld v 0 8) }) e
  | 0x038 => setRing n (fun q => if q.enable then q else { q with lastSeq := BitVec.ofNat 32 v }) e
  | 0x03C => setSel p 0x103C (fld v 0 4) e
  | 0x040 => { e with hl := { e.hl with ctxs := Tab.set e.hl.ctxs c { stop := bit v 31, weight := max 1 (fld v 0 4) } } }
  | 0x044 => setSel p 0x1044 (fld v 0 6) e
  | 0x048 => setIrq k (fun i => { i with addr := setLo i.addr (v / 4 * 4) }) e
  | 0x04C => setIrq k (fun i => { i with addr := setHi i.addr (fld v 0 20) }) e
  | 0x050 => setIrq k (fun i => { i with data := BitVec.ofNat 32 v }) e
  | 0x054 => irqCtrl k v e
  | _ => e

/-! ## Firmware (R488) -/

/-- FW_STATUS. -/
def fwStatus (s : State) : Nat :=
  version + at_ ((List.range 6).foldl (fun a c => a + flag (coreRuns s.eng c) c) 0) 18 + flag s.fw.actPending 17 +
    flag s.fw.actRunning 16 + flag s.fw.oos 15 + flag s.fw.debug 14 + at_ s.fw.bank 13

/-- The build identifier of the running image. -/
def runBuild (s : State) : BitVec 64 := bankBuild s.fw s.fw.bank

/-- The firmware block. -/
def fwRead (p : Path) (r : Nat) (s : State) : Nat :=
  let c := sel s.eng p 0x201C 0
  match r with
  | 0x000 => fwStatus s
  | 0x004 => s.fw.lastCause.toNat
  | 0x008 => s.fw.wdogMs
  | 0x00C => s.fw.holdoffSec
  | 0x010 => at_ s.fw.escUnit.1 8 + s.fw.escUnit.2
  | 0x014 => at_ s.fw.escCore.1 8 + s.fw.escCore.2
  | 0x018 => at_ s.fw.escEngine.1 16 + s.fw.escEngine.2
  | 0x01C => c
  | 0x020 => flag (coreRuns s.eng c) 31 + flag (coreOf s.fw c).newImage 30 +
      min 255 (within s s.fw.escCore.1 (coreOf s.fw c).restarts).length
  | 0x024 => lo32 (runBuild s).toNat
  | 0x028 => hi32 (runBuild s).toNat
  | 0x02C => lo32 s.eng.build.toNat
  | 0x030 => hi32 s.eng.build.toNat
  | _ => 0

/-! ## Meridian and the dormer window (R340 to R343) -/

/-- The dormer registers. -/
def dwRead (r : Nat) (e : Eng) : Nat :=
  match r with
  | 0x000 => version + flag e.mt.dwWriteEn 1 + flag e.mt.dwEnable 0
  | 0x004 => e.mt.dwWindow
  | _ => 0

/-- Writes of the dormer registers; a window at or above 4P is ignored (R337). -/
def dwWrite (r v : Nat) (e : Eng) : Eng :=
  match r with
  | 0x000 => { e with mt := { e.mt with dwWriteEn := bit v 1, dwEnable := bit v 0 } }
  | 0x004 => if fld v 0 13 < 4 * e.variant.channels then { e with mt := { e.mt with dwWindow := fld v 0 13 } } else e
  | _ => e

/-- The fault registers of the selected entry. -/
def faultRead (r : Nat) (f : FaultEntry) : Nat :=
  match r with
  | 0x054 => flag f.pending 31 + at_ f.gen.toNat 23 + at_ f.kind 21 + at_ f.acc 19 + at_ f.waiters.length 9 + f.table
  | 0x058 => lo32 f.addr
  | 0x05C => hi32 f.addr
  | 0x060 => lo32 f.start
  | 0x064 => hi32 f.start
  | 0x068 => lo32 f.fin
  | 0x06C => hi32 f.fin
  | _ => 0

/-- The MT_ block. -/
def mtRead (p : Path) (r : Nat) (e : Eng) : Nat :=
  let t := sel e p 0x5000 0
  let q := root e t
  match r with
  | 0x000 => version + t
  | 0x004 => lo32 q.staged
  | 0x008 => hi32 q.staged
  | 0x00C => flag q.enable 31 + q.count
  | 0x010 => flag q.skyAny 31 + q.skyNode
  | 0x014 => lo32 e.mt.invalAddr
  | 0x018 => hi32 e.mt.invalAddr
  | 0x01C => lo32 e.mt.invalLen
  | 0x020 => hi32 e.mt.invalLen
  | 0x028 => flag e.mt.busy 0
  | 0x04C => e.mt.limitMs
  | 0x050 => sel e p 0x5050 0
  | r =>
    if 0x02C ≤ r ∧ r < 0x04C then (Tab.get 0 e.mt.prefetch ((r - 0x02C) / 4)).toNat
    else faultRead r (faultEntry e (sel e p 0x5050 0))

/-- Change the selected root. -/
def setRoot (t : Nat) (f : Root → Root) (e : Eng) : Eng := { e with mt := { e.mt with roots := Tab.set e.mt.roots t (f (root e t)) } }

/-- Writes of the MT_ block. -/
def mtWrite (p : Path) (r v : Nat) (e : Eng) : Eng :=
  let t := sel e p 0x5000 0
  match r with
  | 0x000 => if fld v 0 9 ≤ 257 then setSel p 0x5000 (fld v 0 9) e else e
  | 0x004 => setRoot t (fun q => { q with staged := setLo q.staged (v / 64 * 64) }) e
  | 0x008 => setRoot t (fun q => { q with staged := setHi q.staged (fld v 0 20) }) e
  | 0x00C => tableCtrl p v e
  | 0x010 => setRoot t (fun q => if t < 2 then q else { q with skyAny := bit v 31, skyNode := fld v 0 20 }) e
  | 0x014 => { e with mt := { e.mt with invalAddr := setLo e.mt.invalAddr v } }
  | 0x018 => { e with mt := { e.mt with invalAddr := setHi e.mt.invalAddr v } }
  | 0x01C => { e with mt := { e.mt with invalLen := setLo e.mt.invalLen v } }
  | 0x020 => { e with mt := { e.mt with invalLen := setHi e.mt.invalLen v } }
  | 0x024 => invalCmd v e
  | 0x04C => { e with mt := { e.mt with limitMs := max 1 (fld v 0 16) } }
  | 0x050 => setSel p 0x5050 (fld v 0 5) e
  | 0x070 =>
    let id := fld v 0 5
    let g := BitVec.ofNat 8 (fld v 5 8)
    if bit v 15 then opFaultAbort id g e else opFaultRetry id g e
  | r =>
    if 0x02C ≤ r ∧ r < 0x04C ∧ r % 4 = 0 then
      let n := (r - 0x02C) / 4
      let w := if n = 7 then fld v 0 24 else v
      { e with mt := { e.mt with prefetch := Tab.set e.mt.prefetch n (BitVec.ofNat 32 w) } }
    else e

/-! ## Tables, thatch, gather, pooling, updates (R62 to R64, R102, R103, R132 to R134, R182 to R184, R273 to R275) -/

/-- Units the three scratchpad areas take (R265). -/
def padSum (buffers staging thatch : Nat) : Bool := decide (buffers + staging + thatch ≤ 7)

/-- A run names a buffer: it is armed on one. -/
def bufRun (r : Option Run) : Bool :=
  match r with
  | some r => (sdSide r.desc false).space == 3 || (sdSide r.desc true).space == 3
  | none => false

/-- A stream buffer is armed (R273). -/
def bufArmed (e : Eng) : Bool := e.st.slots.any (fun s => bufRun s.2.run || bufRun s.2.waiting)

/-- A run has a buffer bound (R311). -/
def bufBound (e : Eng) : Bool :=
  e.st.slots.any (fun s => match s.2.run with | some r => r.started && bufRun (some r) | none => false)

/-- The AL_ block. -/
def alRead (r : Nat) (e : Eng) : Nat :=
  match r with
  | 0x000 => version + at_ e.variant.msDies 16 + e.variant.channels
  | 0x004 => e.store.bandTop
  | 0x008 => e.store.reserved
  | 0x00C => e.store.heapReserveMib
  | 0x010 => flag (!e.store.free0.isEmpty || !e.store.free1.isEmpty) 1 + flag e.store.epoch 0
  | _ => 0

/-- Writes of the AL_ block. -/
def alWrite (r v : Nat) (e : Eng) : Eng :=
  match r with
  | 0x004 =>
    if !e.ls.active.tables.isEmpty || !e.ls.staged.tables.isEmpty || (match e.ls.pend with | some p => !p.2.tables.isEmpty | none => false) ||
        decide (2 ^ 25 - e.store.reserved < fld v 0 25) then e
    else { e with store := { e.store with bandTop := fld v 0 25 } }
  | 0x00C => { e with store := { e.store with heapReserveMib := max 64 (fld v 0 20) } }
  | _ => e

/-- TH_CONFIG. -/
def thWrite (r v : Nat) (e : Eng) : Eng :=
  let n := fld v 0 3
  if r != 0 || anyHotSet e || decide (n < 3 ∨ 6 < n) || !padSum e.setup.buffers e.setup.staging n then e
  else { e with setup := { e.setup with thatchSize := n } }

/-- The GE_ block. -/
def geRead (p : Path) (r : Nat) (e : Eng) : Nat :=
  let k := sel e p 0x800C 0
  match r with
  | 0x000 => version + flag e.setup.mergeEn 0
  | 0x004 => version + at_ (cacheUnits e) 16 + at_ e.setup.streamWays 8 + e.setup.buffers
  | 0x008 => version + e.store.failedStacks.foldl (fun a n => a + at_ 1 n) 0
  | 0x00C => k
  | 0x010 => match Tab.find? e.store.stackTemp k with
    | some (t, d) => flag true 9 + flag d 8 + t
    | none => 0
  | _ => 0

/-- GE_LLM_PART written: each field by its own rule (R273). -/
def llmPart (v : Nat) (e : Eng) : Eng :=
  let n := fld v 0 3
  let w := fld v 8 4
  let e := if 4 < n || bufArmed e || !padSum n e.setup.staging e.setup.thatchSize then e
    else { e with setup := { e.setup with buffers := n } }
  if 12 < w then e
  else
    trimCaches { e with setup := { e.setup with streamWays := w } }

/-- Writes of the GE_ block. -/
def geWrite (p : Path) (r v : Nat) (e : Eng) : Eng :=
  match r with
  | 0x000 => { e with setup := { e.setup with mergeEn := bit v 0 } }
  | 0x004 => llmPart v e
  | 0x00C => setSel p 0x800C (fld v 0 5) e
  | _ => e

/-- The UP_ block. -/
def upRead (p : Path) (r : Nat) (e : Eng) : Nat :=
  let t := sel e p 0xA008 0xFFFF
  match r with
  | 0x000 => version + e.setup.staging
  | 0x004 => e.setup.underflowThresh.toNat
  | 0x008 => t
  | 0x00C => if (tdIn e.ls.active t).isSome then flag true 16 + (openExp e t % 65536).toNat else 0
  | _ => 0

/-- Writes of the UP_ block. -/
def upWrite (p : Path) (r v : Nat) (e : Eng) : Eng :=
  match r with
  | 0x000 =>
    let n := fld v 0 3
    if !e.steps.staging.isEmpty || decide (n < 1 ∨ 4 < n) || !padSum e.setup.buffers n e.setup.thatchSize then e
    else { e with setup := { e.setup with staging := n } }
  | 0x004 => { e with setup := { e.setup with underflowThresh := BitVec.ofNat 32 v } }
  | 0x008 => setSel p 0xA008 (fld v 0 16) e
  | _ => e

/-! ## Scale slots (R214, R215) -/

/-- The format a slot's SCALE2 uses. -/
def fmtElem (k : Nat) : Elem :=
  match k with
  | 1 => .e4m3
  | 2 => .e5m2
  | _ => .int8

/-- The QU_ block. -/
def quRead (p : Path) (r : Nat) (e : Eng) : Nat :=
  let n := sel e p 0xB000 0
  let q := qslot e n
  let k := activePolicy e n
  match r with
  | 0x000 => version + n
  | 0x004 => at_ q.hist.length 27 + at_ k.len 22 + at_ k.margin 18 + at_ k.policy 16 + flag k.share 15
  | 0x008 => at_ q.fmt 16 + (match derivedScale q (slotPolicy e n (q.last.getD 0)).margin (fmtElem q.fmt).q with | some s => toBf16 s | none => 0)
  | 0x00C => ((q.hist.getLast?).getD 0).toNat
  | 0x010 => q.run.toNat
  | 0x014 => q.share
  | _ => 0

/-! ## Accumulators (R232, R249, R250) -/

/-- The accumulator or shadow slot selected for debug reading. -/
def dbgSlot (e : Eng) (v : Nat) : Option AccSlot :=
  if e.variant.computeDies ≤ fld v 12 2 then none
  else if bit v 9 then (Tab.find? e.ix.shadows (8 * fld v 12 2 + fld v 0 3)).map (·.acc)
  else Tab.find? e.ix.slots (512 * fld v 12 2 + fld v 0 9)

/-- The IX_ block: slots are visible only in debug mode (R481). -/
def ixRead (p : Path) (r : Nat) (s : State) : Nat :=
  let v := sel s.eng p 0xC000 0
  if r = 0 then version + v
  else if !s.fw.debug then 0
  else match dbgSlot s.eng v with
    | none => 0
    | some a =>
      if r = 4 then at_ a.shape 3 + flag a.held 2 + flag a.integer 1 + flag a.sat 0
      else if 0x400 ≤ r ∧ r < 0x800 then (a.vals.getD ((r - 0x400) / 4) 0).toNat
      else 0

/-- IX_DBG_SEL written: DIE, SHADOW and SLOT. -/
def ixWrite (p : Path) (r v : Nat) (e : Eng) : Eng :=
  if r = 0 then setSel p 0xC000 (at_ (fld v 12 2) 12 + fld v 0 10) e else e

/-! ## Streams (R311 to R314) -/

/-- A queue's bound slot, or 0xFF. -/
def boundSlot (o : Option Nat) : Nat := o.getD 0xFF

/-- The state of a stream slot, or of a slot that pairs split operands (R277, R307, R312). -/
def slotState (s : StSlot) : Nat :=
  match s.run, s.split with
  | some r, _ => (match r.state with
    | .running => 1
    | .haltedFault => 2
    | .haltedSkew => 3)
  | none, some x => if x.halted.isSome then 3 else 1
  | none, none => 0

/-- The saved indices of a halted slot: those of its run, or the block at which the pairing of its operands halted. -/
def slotPos (s : StSlot) : List Nat :=
  match s.run, s.split with
  | some r, _ => if r.state = .running then [] else runIndices r
  | none, some x => x.halted.toList
  | none, none => []

/-- The ST_ block but ST_Q_HANDLE_LO. -/
def stRead (p : Path) (r : Nat) (e : Eng) : Nat :=
  let n := sel e p 0xE004 0
  let s := stSlot e n
  let q := hqueue e (sel e p 0xE020 0)
  match r with
  | 0x000 => version + at_ (bufCount e) 8 + e.setup.bufHalf
  | 0x004 => version + n
  | 0x008 => at_ (slotGen e n) 16 + flag s.waiting.isSome 3 + slotState s
  | 0x020 => version + sel e p 0xE020 0
  | 0x024 => flag q.enable 31 + at_ (boundSlot q.consumer) 8 + boundSlot q.producer
  | 0x028 => flag q.underrun 8 + flag q.items.isEmpty 7 + q.items.length
  | 0x02C => q.key.toNat
  | 0x034 => q.hi.toNat
  | r => if 0x00C ≤ r ∧ r < 0x020 then nth (slotPos s) ((r - 0x00C) / 4) else 0

/-- Writes of the ST_ block. -/
def stWrite (p : Path) (r v : Nat) (e : Eng) : Eng :=
  let q := sel e p 0xE020 0
  match r with
  | 0x000 =>
    if 8 < fld v 0 4 || bufBound e || e.st.queues.any (fun q => q.2.enable) then e
    else { e with setup := { e.setup with bufHalf := fld v 0 4 } }
  | 0x004 => setSel p 0xE004 (fld v 0 8) e
  | 0x020 => setSel p 0xE020 (fld v 0 5) e
  | 0x024 => queueCfg q v e
  | 0x028 => if bit v 8 then setQueue q (fun h => { h with underrun := false }) e else e
  | 0x02C => setQueue q (fun h => { h with key := BitVec.ofNat 32 v }) e
  | 0x030 => setQueue q (fun h => { h with lo := BitVec.ofNat 32 v }) e
  | 0x034 => opHandlePush q v e
  | _ => e

/-! ## Fabric and Lodestar (R426, R427) -/

/-- The FB_ block. -/
def fbRead (p : Path) (r : Nat) (e : Eng) : Nat :=
  let k := sel e p 0xF008 0
  let q := Tab.get {} e.fb.ports k
  match r with
  | 0x000 => 0x01100400
  | 0x004 => fld e.fb.node 0 20
  | 0x008 => k
  | 0x00C => at_ q.medium 14 + flag q.anEn 13 + flag q.pfcEn 12 + at_ q.breakout 8 + q.linkMode
  | 0x010 => (List.range 4).foldl (fun a l => a + flag (e.fb.linksUp.contains (4 * k + l)) l) 0
  | 0x014 => e.fb.ethertype
  | 0x018 => flag e.fb.vlanEn 31 + at_ e.fb.pcp 13 + e.fb.vid
  | 0x01C => e.fb.macPrefix
  | 0x020 => at_ e.fb.timeoutUs 16 + at_ e.fb.retries 12 + e.fb.hopLimit
  | 0x024 => flag e.fb.groupMode 31 + e.fb.shift
  | 0x028 => e.fb.gen.toNat
  | _ => 0

/-- Writes of the FB_ block. -/
def fbWrite (p : Path) (r v : Nat) (e : Eng) : Eng :=
  match r with
  | 0x008 => setSel p 0xF008 (fld v 0 4) e
  | 0x00C => portCfg (sel e p 0xF008 0) v e
  | 0x014 => { e with fb := { e.fb with ethertype := fld v 0 16 } }
  | 0x018 => { e with fb := { e.fb with vlanEn := bit v 31, pcp := fld v 13 3, vid := fld v 0 12 } }
  | 0x01C => { e with fb := { e.fb with macPrefix := fld v 0 24 } }
  | _ => e

/-- The LS_ block. -/
def lsRead (r : Nat) (e : Eng) : Nat :=
  let dig := (digestOf e e.ls.active).toNat
  let pend := match e.ls.pend with | some p => (pendDigest e p.2).toNat | none => 0
  let step := match e.ls.pend with | some p => p.1 | none => 0
  let hash := (routeHash e.ls.active.routes).toNat
  match r with
  | 0x000 => version + at_ e.ls.beaconMs 4 + e.ls.policy
  | 0x004 => (match e.ls.pend with | some p => at_ p.2.epoch.toNat 16 | none => 0) + e.ls.active.epoch.toNat
  | 0x008 => lo32 dig
  | 0x00C => hi32 dig
  | 0x010 => lo32 pend
  | 0x014 => hi32 pend
  | 0x018 => lo32 step
  | 0x01C => flag e.ls.pend.isSome 31 + fld step 32 16
  | 0x020 => lo32 hash
  | 0x024 => hi32 hash
  | 0x028 => match e.ls.lastPeer with | some n => flag true 31 + fld n 0 20 | none => 0
  | _ => 0

/-- LS_CTRL. -/
def lsWrite (r v : Nat) (e : Eng) : Eng :=
  if r = 0 then
    { e with ls := { e.ls with
      beaconMs := max 1 (fld v 4 12), policy := if fld v 0 2 = 3 then e.ls.policy else fld v 0 2 } }
  else e

/-! ## Ridge (R459) -/

/-- The code of a pair state (R434). -/
def pairCode (s : PairState) : Nat :=
  match s with
  | .down => 0
  | .joining => 1
  | .paired => 2
  | .solo => 3

/-- The RG_ block. -/
def rgRead (r : Nat) (e : Eng) : Nat :=
  match r with
  | 0x000 =>
    version + at_ ((List.range 4).foldl (fun a k => a + flag (e.rg.portsUp.contains k) k) 0) 20 + flag e.rg.aliveIn 19 +
      flag e.rg.aliveOut 18 + at_ (match e.rg.partner with | some b => pairCode b.state | none => 0) 8 + pairCode e.rg.state
  | 0x008 => e.rg.retentionGib
  | 0x00C => at_ e.rg.maxPasses 16 + e.rg.cutoverMib
  | _ => 0

/-- Writes of the RG_ block. -/
def rgWrite (r v : Nat) (e : Eng) : Eng :=
  match r with
  | 0x004 => if bit v 0 then opStandDown e else e
  | 0x008 => if e.steps.openStep.isSome || decide (16 < fld v 0 5) then e else setRidge (fun g => { g with retentionGib := fld v 0 5 }) e
  | 0x00C => setRidge (fun g => { g with maxPasses := max 1 (fld v 16 4), cutoverMib := max 1 (fld v 0 16) }) e
  | _ => e

/-! ## Power, clocks and Nightwatch (R527, R528) -/

/-- The PW_ block. -/
def pwRead (p : Path) (r : Nat) (s : State) : Nat :=
  let k := sel s.eng p 0x12010 0
  match r with
  | 0x000 => version + flag s.pw.duskEn 16 + s.pw.duskUs
  | 0x004 => at_ (capSet s.pw).2 16 + (capSet s.pw).1
  | 0x008 =>
    at_ (powerState s) 30 + at_ s.pw.level 28 + at_ s.pw.arithStep 26 + at_ (lowestIssue s) 21 + flag s.pw.capActive 20 +
      fld (powerW s.pw) 0 11
  | 0x00C => s.pw.groupOff
  | 0x010 => k
  | 0x014 => match Tab.find? s.pw.temps (8 * fld k 4 2 + fld k 0 3) with
    | some t => flag true 9 + fld t 0 8
    | none => 0
  | _ => 0

/-- Writes of the PW_ block: those marked Nightwatch are ignored on the host path. -/
def pwWrite (p : Path) (r v : Nat) (s : State) : State :=
  if r = 0x010 then onEng (setSel p 0x12010 (at_ (fld v 4 2) 4 + fld v 0 3)) s
  else if p == .host then s
  else match r with
    | 0x000 => { s with pw := { s.pw with duskEn := bit v 16, duskUs := fld v 0 16 } }
    | 0x004 => askCap (fld v 0 16) (fld v 16 16) s
    | 0x00C => groupsOff (fld v 0 4) s
    | _ => s

/-- Bits of a list of references. -/
def refBits (l : List Nat) : Nat := (List.range 4).foldl (fun a k => a + flag (l.contains k) k) 0

/-- The CK_ block. -/
def ckRead (r : Nat) (s : State) : Nat := if r = 0 then version + at_ (refBits s.pw.lost) 20 + at_ (refBits s.pw.present) 12 else 0

/-- CK_STATUS written: LOST is cleared by ones. -/
def ckWrite (r v : Nat) (s : State) : State :=
  if r = 0 then { s with pw := { s.pw with lost := s.pw.lost.filter (fun k => !bit v (20 + k)) } } else s

/-- NW_CFG. -/
def nwRead (r : Nat) (s : State) : Nat :=
  if r = 0 then version + flag s.nw.smbus 23 + at_ (fld s.nw.staticAddr 0 7) 16 + at_ s.nw.eid.toNat 8 + s.nw.dynAddr.toNat else 0

/-! ## The map (R531, R537) -/

/-- A read of a control register: its value, and what the read changes (R535). -/
def controlRead (p : Path) (blk r : Nat) (s : State) : Nat × State :=
  let e := s.eng
  let ro := fun (v : Nat) => (v, s)
  match blk with
  | 0x00 => ro (idRead r e)
  | 0x01 => ro (hlRead p r e)
  | 0x02 => ro (fwRead p r s)
  | 0x03 =>
    let q := ctRead p r e
    (q.1, { s with eng := q.2 })
  | 0x04 => ro (dwRead r e)
  | 0x05 => ro (mtRead p r e)
  | 0x06 => ro (alRead r e)
  | 0x07 => ro (if r = 0 then version + e.setup.thatchSize else 0)
  | 0x08 => ro (geRead p r e)
  | 0x09 => ro (if r = 0 then version + e.setup.outAlign else 0)
  | 0x0A => ro (upRead p r e)
  | 0x0B => ro (quRead p r e)
  | 0x0C => ro (ixRead p r s)
  | 0x0D => ro (if r = 0 then version else 0)
  | 0x0E =>
    if r = 0x030 then
      let q := opHandlePop (sel e p 0xE020 0) e
      (q.2.toNat, { s with eng := q.1 })
    else ro (stRead p r e)
  | 0x0F => ro (fbRead p r e)
  | 0x10 => ro (lsRead r e)
  | 0x11 => ro (rgRead r e)
  | 0x12 => ro (pwRead p r s)
  | 0x13 => ro (ckRead r s)
  | 0x14 => ro (nwRead r s)
  | _ => ro 0

/-- A read of a set-up register by a path. -/
def regRead (p : Path) (off : Nat) (s : State) : Nat × State :=
  if 0x800 ≤ off % 0x1000 then
    let q := counterRead p off s.eng
    (q.1, { s with eng := q.2 })
  else controlRead p (off / 0x1000) (off % 0x1000) s

/-- A write of a control register. -/
def controlWrite (p : Path) (blk r v : Nat) (s : State) : State :=
  match blk with
  | 0x01 => onEng (hlWrite p r v) s
  | 0x02 => if r = 0x01C ∧ fld v 0 3 ≤ 5 then onEng (setSel p 0x201C (fld v 0 3)) s else s
  | 0x04 => onEng (dwWrite r v) s
  | 0x05 => onEng (mtWrite p r v) s
  | 0x06 => onEng (alWrite r v) s
  | 0x07 => onEng (thWrite r v) s
  | 0x08 => onEng (geWrite p r v) s
  | 0x09 => if r = 0 then onEng (fun e => { e with setup := { e.setup with outAlign := fld v 0 2 } }) s else s
  | 0x0A => onEng (upWrite p r v) s
  | 0x0B => if r = 0 then onEng (setSel p 0xB000 (fld v 0 10)) s else s
  | 0x0C => onEng (ixWrite p r v) s
  | 0x0E => onEng (stWrite p r v) s
  | 0x0F => onEng (fbWrite p r v) s
  | 0x10 => onEng (lsWrite r v) s
  | 0x11 => onEng (rgWrite r v) s
  | 0x12 => pwWrite p r v s
  | 0x13 => ckWrite r v s
  | _ => s

/-- A write of a set-up register by a path. -/
def regWrite (p : Path) (off v : Nat) (s : State) : State :=
  if 0x1000000 ≤ off then s
  else if 0x800 ≤ off % 0x1000 then onEng (counterWrite p off) s
  else controlWrite p (off / 0x1000) (off % 0x1000) v s

end Sys2Proof.Machine
end

