-- ==== Sys2Proof/Machine/Nightwatch.lean ====
section
/-! DEFINITION. Nightwatch: its messages, the requests it holds, and the MCTP, SPDM and PLDM traffic (R379, R499, R500, R518 to
R525). -/

namespace Sys2Proof.Machine

/-! ## Replies (R522, R523) -/

/-- A reply of a vendor message. -/
def nwReply (msg tag status : Nat) (body : List Byte) (s : State) : State :=
  let e := counts [(Ctr.nwMessages, 1), (Ctr.nwRefused, if status = 0 then 0 else 1)] s.eng
  { s with
    eng := e
    nw := { s.nw with replies := s.nw.replies ++ [{ msg, tag, status, body }] } }

/-- Reply status values (R379, R522). -/
abbrev nwBadState : Nat := 2
abbrev nwBadLength : Nat := 3
abbrev nwReservedField : Nat := 4
abbrev nwBusy : Nat := 6
abbrev nwDenied : Nat := 7
abbrev nwVerifyFailed : Nat := 8
abbrev nwRange : Nat := 9

/-! ## Registers and counters -/

/-- Read registers one after another. -/
def readRegs : Nat → Nat → State → List Byte × State
  | 0, _, s => ([], s)
  | n + 1, off, s =>
    let q := regRead .nightwatch off s
    let r := readRegs n (off + 4) q.2
    (leBytes 4 q.1 ++ r.1, r.2)

/-- REG_READ. -/
def nwRegRead (tag off n : Nat) (s : State) : State :=
  if off % 4 ≠ 0 ∨ n = 0 ∨ 64 < n ∨ 0x1000000 < off + 4 * n then nwReply 0x10 tag nwRange [] s
  else
    let q := readRegs n off s
    nwReply 0x10 tag 0 q.1 q.2

/-- REG_WRITE reaches the PW_, CK_, NW_ and RG_ blocks, and counters. -/
def nwWritable (off : Nat) : Bool :=
  decide (0x11 ≤ off / 0x1000 ∧ off / 0x1000 ≤ 0x14) || counterSlots.contains (off / 16 * 16)

/-- REG_WRITE. -/
def nwRegWrite (tag off : Nat) (v : Word) (s : State) : State :=
  if off % 4 ≠ 0 ∨ 0x1000000 ≤ off then nwReply 0x11 tag nwRange [] s
  else if !nwWritable off then nwReply 0x11 tag nwDenied [] s
  else nwReply 0x11 tag 0 [] (regWrite .nightwatch off v.toNat s)

/-- JOB_COUNTERS. -/
def nwJobCounters (tag : Nat) (s : State) : State :=
  nwReply 0x12 tag 0 (jobCounters.flatMap (fun c => leBytes 8 (slotValue c s.eng))) s

/-- COUNTERS_CLEAR. -/
def nwCountersClear (tag scope : Nat) (s : State) : State :=
  match scope with
  | 0 => nwReply 0x13 tag 0 [] (onEng clearJobCounters s)
  | 1 => nwReply 0x13 tag 0 [] (onEng (fun e => { e with ctr := e.ctr.filter (fun c => gauges.contains c.1) }) s)
  | _ => nwReply 0x13 tag nwRange [] s

/-- EVENT_READ. -/
def nwEventRead (tag n : Nat) (s : State) : State :=
  if n = 0 ∨ 32 < n then nwReply 0x14 tag nwRange [] s
  else nwReply 0x14 tag 0 (s.eng.nwEvents.take n).flatten (onEng (fun e => { e with nwEvents := e.nwEvents.drop n }) s)

/-! ## Status -/

/-- LODESTAR. -/
def nwLodestar (tag : Nat) (s : State) : State :=
  let g := fun (r : Nat) => leBytes 4 (lsRead r s.eng)
  nwReply 0x20 tag 0 (g 0x004 ++ g 0x008 ++ g 0x00C ++ g 0x010 ++ g 0x014 ++ g 0x018 ++ g 0x01C ++ g 0x020 ++ g 0x024) s

/-- The hottest part of some kinds. -/
def hottestOf (s : State) (p : Nat → Bool) : Nat := ((partTemps s).filter (fun x => p x.1)).foldl (fun a x => max a x.2.2) 0

/-- STATUS. -/
def nwStatusMsg (tag : Nat) (s : State) : State :=
  let b := leBytes 4 (fwStatus s) ++ leBytes 4 s.fw.lastCause.toNat ++ leBytes 1 (powerState s) ++ leBytes 1 s.pw.level ++
    leBytes 1 (pairCode s.eng.rg.state) ++ leBytes 1 (attachCode s.eng.hl.attach) ++ leBytes 2 (powerW s.pw) ++
    leBytes 1 (hottestOf s (· != 3)) ++ leBytes 1 (hottestOf s (· == 3)) ++
    leBytes 4 (s.eng.store.failedStacks.foldl (fun a n => a + at_ 1 n) 0) ++ zeros 12
  nwReply 0x21 tag 0 b s

/-! ## Power (R499, R500, R507) -/

/-- SET_POWER_CAP: the reply gives what is then set. -/
def nwPowerCap (tag watts ms : Nat) (s : State) : State :=
  let s := askCap watts ms s
  nwReply 0x30 tag 0 (leBytes 2 (capSet s.pw).1 ++ leBytes 2 (capSet s.pw).2) s

/-- The partner is PAIRED, by its last STATUS. -/
def partnerPaired (e : Eng) : Bool := match e.rg.partner with | some p => p.state == .paired | none => false

/-- SET_POWER_STATE to A2 or A3: the checks, then the transition, which waits for a close in progress. -/
def nwPowerLow (tag target : Nat) (force : Bool) (s : State) : State :=
  let no := fun (st : Nat) => nwReply 0x31 tag st [] s
  if s.eng.hl.attach != .detached || s.fw.oos || s.fw.recovery then no nwBadState
  else if s.fw.actPending || s.fw.actRunning || s.pw.goal.isSome then no nwBusy
  else if s.pw.state = target then nwReply 0x31 tag 0 (leBytes 1 target) s
  else if target < s.pw.state then no nwBadState
  else if !force && !partnerPaired s.eng then no nwBadState
  else { s with pw := { s.pw with goal := some (target, tag, force) } }

/-- A transition whose close is complete happens, and is reported. -/
def reachGoal (s : State) : State :=
  match s.pw.goal with
  | some (t, tag, _) =>
    if lowReady s then
      let s := enterLow t { s with pw := { s.pw with goal := none } }
      nwReply 0x31 tag 0 (leBytes 1 t) s
    else s
  | none => s

/-- SET_POWER_STATE A0. -/
def nwPowerUp (tag : Nat) (s : State) : State :=
  if s.pw.goal.isSome then nwReply 0x31 tag nwBusy [] s
  else
    let s := match s.pw.state with
      | 2 => leaveNight s
      | 3 => leaveDark s
      | _ => s
    nwReply 0x31 tag 0 (leBytes 1 s.pw.state) s

/-! ## Resets, stacks, service (R478, R481, R523) -/

/-- RESET: the reply is sent before the reset begins. It is not counted by R476. -/
def nwResetMsg (tag rung : Nat) (s : State) : State :=
  if rung < 2 ∨ 4 < rung then nwReply 0x32 tag nwRange [] s
  else if rung < 4 && (s.fw.oos || s.fw.recovery) then nwReply 0x32 tag nwBadState [] s
  else startRung rung (causeCode rung board Reason.nightwatch) (nwReply 0x32 tag 0 [] s)

/-- STACK_FAIL. -/
def nwStackFail (tag k : Nat) (s : State) : State :=
  if s.eng.variant.stackCount ≤ k then nwReply 0x33 tag nwRange [] s else nwReply 0x33 tag 0 [] (failStack k s)

/-- RETURN_TO_SERVICE: the record is erased, and the engine joins by a full copy. It is denied while a stack is failed, which a cold reset
in which it trains ends (R263, R478). -/
def nwReturn (tag : Nat) (s : State) : State :=
  if !(s.fw.oos && s.fw.oosReset && s.eng.store.failedStacks.isEmpty) then nwReply 0x34 tag nwDenied [] s
  else
    let code := s.fw.lastCause
    let s := runLogic { s with fw := { s.fw with oosRecord := none, oos := false, oosReset := false } }
    let s := if s.fw.oos || s.fw.noImage then s else onEng enterJoining { s with fw := { s.fw with eventDue := some (code, 4) } }
    nwReply 0x34 tag 0 [] s

/-- DEBUG_MODE. -/
def nwDebug (tag : Nat) (on : Bool) (s : State) : State := nwReply 0x35 tag 0 [] { s with fw := { s.fw with debug := on } }

/-! ## JOB_CLEAR (R524) -/

/-- The conditions of JOB_CLEAR: detached, no step open, every accepted state-changing command completed. -/
def canClear (e : Eng) : Bool :=
  e.hl.attach == .detached && e.steps.openStep.isNone && e.steps.closing.isNone && e.hl.cmds.all (fun c => readOnly c.desc)

/-- What clearing keeps of the storage: stack bytes, register settings, what the stacks report. -/
def clearStore (s : Store) : Store :=
  { mem := s.mem, bandTop := s.bandTop, reserved := s.reserved, heapReserveMib := s.heapReserveMib, reserveNow := s.reserveNow
    epoch := s.epoch, nextJob := s.nextJob, failedStacks := s.failedStacks, sites := s.sites, stackTemp := s.stackTemp, parityTicks := s.parityTicks }

/-- Clear the job: tables, journals, configuration, steps, carried completions, job counters. -/
def clearJob (ss : List (Nat × List Byte)) (e : Eng) : Eng :=
  let e := clearJobCounters (imageRoutes ss e)
  { e with
    store := clearStore e.store, steps := {}, qu := []
    hl := { e.hl with cmds := [] }
    ls := { e.ls with active := emptyConf, pend := none, staged := {}, recent := [(0, 0)], remaps := [], prev := [], moves := [], making := [] }
    fb := { e.fb with reqs := [], redirected := [], failovers := [], kept := [] }
    rg := { e.rg with own := [], custody := [], soloJournal := [], written := [], heldRepairs := [], closeOfDirty := none, kept := false, cleared := e.rg.state != .paired } }

/-- The sections of the Elnan copy in use. -/
def usedSections (fw : Firmware) : List (Nat × List Byte) :=
  match fw.copyUsed with
  | some k => copySections fw k
  | none => []

/-- JOB_CLEAR: in PAIRED the partner is asked over the ridge link, and both clear or neither does. -/
def nwJobClear (tag : Nat) (agrees : Bool) (s : State) : State :=
  if !canClear s.eng then nwReply 0x36 tag nwBadState [] s
  else if s.eng.rg.state = .paired then
    let s := onEng (sendRidge .jobClear) s
    if agrees then nwReply 0x36 tag 0 [] (onEng (clearJob (usedSections s.fw)) s) else nwReply 0x36 tag nwBadState [] s
  else nwReply 0x36 tag 0 [] (onEng (clearJob (usedSections s.fw)) s)

/-! ## Flash and firmware (R482 to R485, R514, R523) -/

/-- Base and size of a flash region: the inactive bank, the Elnan copy not in use, the boot loader. -/
def regionOf (s : State) (region : Nat) : Option (Nat × Nat) :=
  match region with
  | 0 => some (bankBase (1 - s.fw.bank), bankSize)
  | 1 => some (copyBase (match s.fw.copyUsed with | some 0 => 1 | _ => 0), copySize)
  | 2 => some (loaderBase, loaderSize)
  | _ => none

/-- Erase each sector at its first byte, and program the bytes. -/
def programFlash (a : Nat) (bs : List Byte) (fw : Firmware) : Firmware :=
  let first := ceilDiv a 4096
  let last := ceilDiv (a + bs.length) 4096
  flashPut a bs ((List.range (last - first)).foldl (fun fw k => flashErase (4096 * (first + k)) fw) fw)

/-- An activation is pending or running. -/
def activating (fw : Firmware) : Bool := fw.actPending || fw.actRunning

/-- FLASH_WRITE. -/
def nwFlashWrite (tag region off : Nat) (bs : List Byte) (s : State) : State :=
  match regionOf s region with
  | none => nwReply 0x40 tag nwRange [] s
  | some (base, size) =>
    if activating s.fw then nwReply 0x40 tag nwBusy [] s
    else if region = 2 ∧ !s.fw.recovery then nwReply 0x40 tag nwDenied [] s
    else if bs.isEmpty ∨ 1024 < bs.length ∨ size < off + bs.length then nwReply 0x40 tag nwRange [] s
    else
      let fw := programFlash (base + off) bs s.fw
      let b := 1 - s.fw.bank
      let fw := if region = 0 then { fw with factory := fw.factory.filter (· != b), prevOk := false } else fw
      nwReply 0x40 tag 0 [] { s with fw }

/-- FLASH_READ. -/
def nwFlashRead (tag region off n : Nat) (s : State) : State :=
  match regionOf s region with
  | none => nwReply 0x41 tag nwRange [] s
  | some (base, size) =>
    if n = 0 ∨ 1024 < n ∨ size < off + n then nwReply 0x41 tag nwRange [] s
    else nwReply 0x41 tag 0 (flashRead s.fw (base + off) n) s

/-- A bank may be activated from the running build: its image verifies, and Ilunafel permits it, or it is the previous bank
before the commit (R482, R483). -/
def activatableBank (s : State) (b : Nat) : Bool :=
  bankOk s.fw b && (b == s.fw.bank || s.fw.prevOk || Config.activatable (runBuild s) (bankBuild s.fw b))

/-- IMAGE_VERIFY. -/
def nwImageVerify (tag b : Nat) (s : State) : State :=
  if 1 < b then nwReply 0x42 tag nwRange [] s
  else if activatableBank s b then nwReply 0x42 tag 0 (leBytes 8 (bankBuild s.fw b).toNat ++ leBytes 1 (bankSecurity s.fw b)) s
  else nwReply 0x42 tag nwVerifyFailed [] s

/-- ACTIVATE: accepted; it starts now, or waits for the engine to serve, for A0, or for the end of an emergency. -/
def nwActivate (tag : Nat) (s : State) : State :=
  if activating s.fw then nwReply 0x43 tag nwBusy [] s
  else if s.fw.recovery || s.fw.noBank then nwReply 0x43 tag nwBadState [] s
  else if !activatableBank s (1 - s.fw.bank) then nwReply 0x43 tag nwVerifyFailed [] s
  else
    let later := emergency s
    let s := nwReply 0x43 tag 0 [] { s with fw := { s.fw with actPending := true, deferred := later, actNext := 0, rollback := none } }
    if later || s.pw.state != 0 then activationEvent (bankBuild s.fw (1 - s.fw.bank)) 2 0 s else s

/-- COMMIT: the anti-rollback counter rises to the running image's security version. -/
def nwCommit (tag : Nat) (s : State) : State :=
  if activating s.fw then nwReply 0x44 tag nwBusy [] s
  else
    let v := min 63 (bankSecurity s.fw s.fw.bank)
    nwReply 0x44 tag 0 [] { s with fw := { s.fw with antiRollback := max s.fw.antiRollback v, prevOk := false } }

/-- OOS_RECORD: code and boot count, or all ones. -/
def nwOosRecord (tag : Nat) (s : State) : State :=
  nwReply 0x45 tag 0 (match s.fw.oosRecord with
    | some (c, n) => leBytes 4 c.toNat ++ leBytes 1 n.toNat ++ [0xFF, 0xFF, 0xFF]
    | none => List.replicate 8 0xFF) s

/-! ## Standard protocols (R518 to R521) -/

/-- A reply whose layout another standard gives. Log 18. -/
def rawReply (proto req value : Nat) (s : State) : State :=
  { s with nw := { s.nw with raw := s.nw.raw ++ [Config.protocolReply proto req value] } }

/-- MCTP control. -/
def mctpAnswer (c : MctpCommand) (s : State) : State :=
  match c with
  | .setEndpointId eid => rawReply 0 1 eid.toNat { s with nw := { s.nw with eid } }
  | .getEndpointId => rawReply 0 2 s.nw.eid.toNat s
  | .getEndpointUuid => rawReply 0 3 Config.serial.toNat s
  | .getVersionSupport => rawReply 0 4 0 s
  | .getMessageTypeSupport => rawReply 0 5 0x7F050100 s
  | .getVendorMessageSupport => rawReply 0 6 Config.enterprise.toNat s
  | .unsupported code => rawReply 0 (256 + code) 0 s

/-- What a measurement reports (R520). -/
def measurement (s : State) (k : Nat) : Nat :=
  match k with
  | 1 => beNat (sha384 (flashRead s.fw loaderBase loaderSize))
  | 2 => beNat (sha384 (flashRead s.fw (bankBase s.fw.bank) bankSize))
  | 3 => beNat (sha384 (flashRead s.fw (bankBase (1 - s.fw.bank)) bankSize))
  | 4 => match s.fw.copyUsed with
    | some c => beNat (sha384 (flashRead s.fw (copyBase c) copySize))
    | none => 0
  | 5 => at_ s.fw.antiRollback 8 + bankSecurity s.fw s.fw.bank
  | _ => 0

/-- SPDM. -/
def spdmAnswer (r : SpdmRequest) (s : State) : State :=
  let s := onEng (count Ctr.nwMessages 1) s
  match r with
  | .getVersion => rawReply 5 1 0 s
  | .getCapabilities => rawReply 5 2 0 s
  | .negotiateAlgorithms => rawReply 5 3 0 s
  | .getDigests => rawReply 5 4 Config.serial.toNat s
  | .getCertificate slot off n => rawReply 5 5 (at_ slot 64 + at_ off 32 + n) s
  | .challenge slot nonce => rawReply 5 6 (at_ nonce 8 + slot) s
  | .getMeasurements k => rawReply 5 (at_ k 8 + 7) (measurement s k) s
  | .unsupported code => rawReply 5 (256 * 256 + code) 0 s

/-- The numeric sensors in order: dies of each kind, stacks, windowed power, energy in J. Log 18. -/
def sensorValue (s : State) (k : Nat) : Nat :=
  let v := s.eng.variant
  let dies := (List.range v.computeDies).map (fun d => Tab.get 0 s.pw.temps d) ++
    (List.range v.msDies).map (fun d => Tab.get 0 s.pw.temps (8 + d)) ++ [Tab.get 0 s.pw.temps 16]
  let temps := (List.range v.stackCount).map (fun d => (Tab.get (0, false) s.eng.store.stackTemp d).1)
  nth (dies ++ temps ++ [powerW s.pw, slotValue Ctr.pwEnergyUj s.eng / 10 ^ 6]) k

/-- The state sensors: power state, thermal level, pair state. -/
def stateSensor (s : State) (k : Nat) : Nat := nth [powerState s, s.pw.level, pairCode s.eng.rg.state] k

/-- PLDM. -/
def pldmAnswer (r : PldmRequest) (s : State) : State :=
  let s := onEng (count Ctr.nwMessages 1) s
  match r with
  | .getTid => rawReply 1 1 0 s
  | .getPldmVersion => rawReply 1 2 0 s
  | .getPldmTypes => rawReply 1 3 0 s
  | .getPldmCommands => rawReply 1 4 0 s
  | .getPdrRepositoryInfo => rawReply 1 5 0 s
  | .getPdr h => rawReply 1 6 h s
  | .getSensorReading k => rawReply 1 (at_ k 8 + 7) (sensorValue s k) s
  | .getStateSensorReadings k => rawReply 1 (at_ k 8 + 8) (stateSensor s k) s
  | .unsupported type code => rawReply 1 (at_ type 32 + at_ code 16 + 256) 0 s

/-- DYNAMIC_ADDRESS_ASSIGNMENT, on I3C. -/
def opDynAddr (a : BitVec 7) (s : State) : State := if s.nw.smbus then s else { s with nw := { s.nw with dynAddr := a } }

/-! ## Requests in arrival order (R522) -/

/-- What a request does once its header is good. -/
def nwBody (i : Instr) (s : State) : State :=
  match i with
  | .nwHello h => nwReply 0x01 h.tag 0 (helloBody s.eng) s
  | .regRead h off n => nwRegRead h.tag off n s
  | .regWrite h off v => nwRegWrite h.tag off v s
  | .jobCounters h => nwJobCounters h.tag s
  | .countersClear h scope => nwCountersClear h.tag scope s
  | .eventRead h n => nwEventRead h.tag n s
  | .lodestar h => nwLodestar h.tag s
  | .nwStatus h => nwStatusMsg h.tag s
  | .setPowerCap h w ms => nwPowerCap h.tag w ms s
  | .setPowerStateA2 h f => nwPowerLow h.tag 2 f s
  | .setPowerStateA3 h f => nwPowerLow h.tag 3 f s
  | .setPowerStateA0 h => nwPowerUp h.tag s
  | .nwReset h rung => nwResetMsg h.tag rung s
  | .stackFail h k => nwStackFail h.tag k s
  | .returnToService h => nwReturn h.tag s
  | .debugMode h on => nwDebug h.tag on s
  | .jobClear h a => nwJobClear h.tag a s
  | .flashWrite h r o bs => nwFlashWrite h.tag r o bs s
  | .flashRead h r o n => nwFlashRead h.tag r o n s
  | .imageVerify h b => nwImageVerify h.tag b s
  | .activate h => nwActivate h.tag s
  | .commit h => nwCommit h.tag s
  | .oosRecord h => nwOosRecord h.tag s
  | .mctpControlMessage c => mctpAnswer c s
  | .spdmRequest r => spdmAnswer r s
  | .pldmRequest r => pldmAnswer r s
  | _ => s

/-- A vendor request's message type and header. -/
def nwHeader (i : Instr) : Option (Nat × NwHead) :=
  match i with
  | .nwHello h => some (0x01, h)
  | .regRead h _ _ => some (0x10, h)
  | .regWrite h _ _ => some (0x11, h)
  | .jobCounters h => some (0x12, h)
  | .countersClear h _ => some (0x13, h)
  | .eventRead h _ => some (0x14, h)
  | .lodestar h => some (0x20, h)
  | .nwStatus h => some (0x21, h)
  | .setPowerCap h _ _ => some (0x30, h)
  | .setPowerStateA2 h _ => some (0x31, h)
  | .setPowerStateA3 h _ => some (0x31, h)
  | .setPowerStateA0 h => some (0x31, h)
  | .nwReset h _ => some (0x32, h)
  | .stackFail h _ => some (0x33, h)
  | .returnToService h => some (0x34, h)
  | .debugMode h _ => some (0x35, h)
  | .jobClear h _ => some (0x36, h)
  | .flashWrite h _ _ _ => some (0x40, h)
  | .flashRead h _ _ _ => some (0x41, h)
  | .imageVerify h _ => some (0x42, h)
  | .activate h => some (0x43, h)
  | .commit h => some (0x44, h)
  | .oosRecord h => some (0x45, h)
  | _ => none

/-- A request is handled: a length that is not its type's and a reserved bit that is set are refused, without effect (R11, R379). Log 148. -/
def nwRun (i : Instr) (s : State) : State :=
  match nwHeader i with
  | some (msg, h) =>
    if h.badLength then nwReply msg h.tag nwBadLength [] s
    else if h.reserved ≠ 0 then nwReply msg h.tag nwReservedField [] s
    else nwBody i s
  | none => nwBody i s

/-- Message types of 0x30 and higher, with their tags. -/
def nwHigh (i : Instr) : Option (Nat × Nat) :=
  match nwHeader i with
  | some (msg, h) => if 0x30 ≤ msg then some (msg, h.tag) else none
  | none => none

/-- Requests are answered now: the boot-and-health core runs, or what serves Nightwatch without it (R511, R522). -/
def nwServed (s : State) : Bool :=
  s.fw.resetRung == 0 && !s.pw.thermtrip && (coreRuns s.eng 0 || s.fw.recovery || s.fw.noBank || s.pw.state == 3)

/-- A request waits, up to four. -/
def nwHold (i : Instr) (s : State) : State :=
  if s.nw.held.length < 4 then { s with nw := { s.nw with held := s.nw.held ++ [i] } } else s

/-- A request arrives. Nothing answers during a cold reset (R518). -/
def nwAsk (i : Instr) (s : State) : State :=
  if s.fw.resetRung = 4 then s
  else if !nwServed s || !s.nw.held.isEmpty then nwHold i s
  else if s.pw.goal.isSome then
    match nwHigh i with
    | some (msg, tag) => nwReply msg tag nwBusy [] s
    | none => nwHold i s
  else nwRun i s

/-- Held requests are answered in arrival order. -/
def nwDrain : Nat → State → State
  | 0, s => s
  | n + 1, s =>
    match s.nw.held with
    | [] => s
    | i :: t =>
      if nwServed s && s.pw.goal.isNone then nwDrain n (nwRun i { s with nw := { s.nw with held := t } }) else s

end Sys2Proof.Machine
end

