-- ==== Sys2Proof/Machine/Settle.lean ====
section
/-! DEFINITION. What follows from a command at once: waiters that have their turn again go on (R330, R331), streams run,
what waited for the boot-and-health core is answered, and transitions that have become possible end. Log 1. -/

namespace Sys2Proof.Machine

/-- A waiter may go on now. Look-ups and state-changing commands wait for the member to act as a requester (R448, R453). -/
def mayResume (e : Eng) (w : Waiter) : Bool :=
  !e.stopped && (match w with
    | .cmd id => match findCmd e id with
      | some c => requests e || !(stateChanging c.desc || opcode c.desc == 0x10 || opcode c.desc == 0x11)
      | none => true
    | _ => true)

/-- An accepted command goes on. -/
def resumeCmd (id : Nat) (e : Eng) : Eng :=
  match findCmd e id with
  | none => e
  | some c =>
    if c.done.isSome then e
    else match c.work with
      | .parked => goOnCmd c e
      | .blocked => goOnCmd c e
      | .lookup _ _ => tryLookup id e
      | .interact _ => ixFinish id e
      | .dispatch _ _ => goDispatch id e
      | .combine _ _ => goCombine id e
      | _ => e

/-- A run goes on: one that a fault halted, or one that waits for a walk. -/
def resumeStream (n : Nat) (e : Eng) : Eng :=
  match (stSlot e n).run with
  | none => e
  | some r => if r.state = .haltedFault then resumeRun n e else setRun n (fun r => { r with waiting := false }) e

/-- A waiter has its turn. -/
def resumeOne (w : Waiter) (e : Eng) : Eng :=
  match w with
  | .cmd id => resumeCmd id e
  | .head _ => e
  | .stream n => resumeStream n e
  | .remote h b => serveRemote h b e

/-- A waiter that a walk's fault has stopped: a requester on another engine is told which entry it waits on (R334), a run halts (R306,
R330). -/
def tellFault (p : Waiter × Option Nat) (e : Eng) : Eng :=
  match p.1, p.2 with
  | .remote h (.skyWrite b), some id => skyReply h (.faultPending b.cmdId id) e
  | .remote h (.skyRead b), some id => skyReply h (.faultPending b.cmdId id) e
  | .stream n, _ => haltRun n e
  | _, _ => e

/-- Tell every waiter a fault has stopped. -/
def tellFaults (e : Eng) : Eng :=
  let ns := e.mt.notices
  ns.foldl (fun e p => tellFault p e) { e with mt := { e.mt with notices := [] } }

/-- Every waiter that may goes on; the others wait. -/
def resumeAll (e : Eng) : Eng :=
  let now := e.mt.resume.filter (mayResume e)
  let later := e.mt.resume.filter (fun w => !mayResume e w)
  now.foldl (fun e w => resumeOne w e) { e with mt := { e.mt with resume := later } }

/-- Commands that wait for another command try again. -/
def retryBlocked (e : Eng) : Eng :=
  if e.stopped then e
  else (e.hl.cmds.filter (fun c => c.work == .blocked && mayResume e (.cmd c.id))).foldl (fun e c => resumeCmd c.id e) e

/-- A command that waits for other commands' blocks, or for its outputs, may go on (R207, R239). -/
def mayRetry (e : Eng) (c : RunCmd) : Bool :=
  c.retry && c.done.isNone && !c.carried && slotsFree e c && mayResume e (.cmd c.id) &&
    (match c.work with | .dispatch _ _ => outputsAcked e c.id | _ => true)

/-- Commands that wait for other commands' blocks, or for their outputs, go on. -/
def retryWaiting (e : Eng) : Eng :=
  (e.hl.cmds.filter (mayRetry e)).foldl (fun e c => resumeCmd c.id (setCmd c.id (fun c => { c with retry := false }) e)) e

/-- A close in progress goes on, where what it waits for is in (R27, R176). -/
def goOnClose (e : Eng) : Eng := if e.steps.closing.isSome && !e.stopped then closeGo e else e

/-- Fences whose requests are finished go out (R26, R176). -/
def goOnFences (e : Eng) : Eng := if e.stopped || !requests e then e else tryRoundFences (trySendFences e)

/-- One round of what can go on. -/
def settleRound (e : Eng) : Eng :=
  pumpStreams (tryStandDown (goOnClose (goOnFences (retryWaiting (retryBlocked (resumeAll (tellFaults e)))))))

/-- Somebody has a turn. -/
def unsettled (e : Eng) : Bool := !e.mt.notices.isEmpty || e.mt.resume.any (mayResume e) || e.hl.cmds.any (mayRetry e)

/-- Rounds, until nobody has a turn. -/
def settleRounds : Nat → Eng → Eng
  | 0, e => e
  | n + 1, e => let e := settleRound e; if unsettled e then settleRounds n e else e

/-- What follows on the data path. Nothing moves while its logic is stopped. -/
def settleEng (e : Eng) : Eng := if e.stopped then e else settleRounds 64 e

/-- The host link's domain is powered, out of reset and clocked, with firmware to run it. -/
def ioUp (s : State) : Bool := decide (s.fw.resetRung < 3) && !s.pw.thermtrip && s.pw.state != 3 && !s.fw.recovery && s.pw.pwrGood

/-- The mailbox is served: its core runs, and no reset is in progress (R462, R481). -/
def mailboxServed (s : State) : Bool := ioUp s && s.fw.resetRung == 0 && coreRuns s.eng 0

/-- A mailbox request that waited for its core is answered. -/
def serveMailbox (s : State) : State :=
  if s.eng.hl.mbHeld && mailboxServed s then
    onEng (fun e => opMailbox s.fw.oos { e with hl := { e.hl with mbHeld := false } }) s
  else s

/-- The bank-select record names the committed build (R514, R486). -/
def noteBuild (s : State) : State :=
  if s.eng.stopped || s.fw.resetRung != 0 || s.fw.commitBuild == s.eng.build then s else { s with fw := { s.fw with commitBuild := s.eng.build } }

/-- What follows from a command, on the whole engine. -/
def settle (s : State) : State :=
  noteBuild (serveMailbox (nwDrain 4 (activateIfDue (raiseDue (reachGoal (onEng settleEng s))))))

end Sys2Proof.Machine
end

