-- ==== Sys2Proof/Machine/Deliver.lean ====
section
/-! DEFINITION. What the engine does with a packet: its delivery (R407, R416, R422, R434), the checks that come before it
(R403, R406, R407), and the frames packets travel in (R398 to R401). -/

namespace Sys2Proof.Machine

/-! ## A delivered packet -/

/-- A FENCE packet: its fence is noted, and a close that waits for it goes on (R27, R176). -/
def opFencePacket (h : PktHdr) (b : FenceBody) (e : Eng) : Eng := goOnClose (noteFence h.src h.step b e)

/-- A skylight request is served, and its credit is given back (R332, R408). -/
def opSkyRequest (h : PktHdr) (b : Body) (e : Eng) : Eng := serveRemote h b (consume h.src e)

/-- The effect of a delivered packet of each class (R404). -/
def applyBody (h : PktHdr) (b : Body) (e : Eng) : Eng :=
  match b with
  | .index b => takeIndex h b e
  | .result b => opResult b e
  | .record es => takeRecords h es e
  | .recordAck b => opRecordAck h b e
  | .fence b => opFencePacket h b e
  | .restep t r => opRestep h.src h.step t r e
  | .skyWrite b => opSkyRequest h (.skyWrite b) e
  | .skyRead b => opSkyRequest h (.skyRead b) e
  | .skyData b => opSkyData h b e
  | .skyWriteAck c => opSkyWriteAck h c e
  | .faultPending c _ => opFaultPending h c e
  | .skyResume c => opSkyResume h c e
  | .aborted c => opAborted h c e
  | .denied c r => opDenied h c r e
  | .redirect => opRedirect h e
  | .hold => e
  | .epochReject _ cls cmd => opEpochReject h cls cmd e
  | .sync => opSyncMsg h e
  | .syncAck => opSyncAck h e
  | .stale => opStale h e
  | .ack => countAck h e
  | .beacon b => opBeacon b e
  | _ => e

/-- A job packet that the logic of the dies carries out: all but the fabric's own (R404). -/
def jobBody : Body → Bool
  | .redirect | .hold | .epochReject _ _ _ | .sync | .syncAck | .stale | .ack | .beacon _ => false
  | _ => true

/-- A packet that is not applied: a request's credit comes back all the same (R408). -/
def dropBody (h : PktHdr) (b : Body) (e : Eng) : Eng := if needsCredit b then consume h.src e else e

/-- The configuration of the packet's step has no membership: its traffic is not accepted (R416). -/
def noMembers (e : Eng) (step : Nat) : Bool := (confAt e step).members.isEmpty

/-- A delivered packet, past its session: a member in DOWN or JOINING redirects requests (R434), a fence to a member in DOWN is dropped
(R442), the epoch is checked (R422), and the packet is applied. -/
def deliverBody (h : PktHdr) (b : Body) (e : Eng) : Eng :=
  if needsCredit b && (e.rg.state == .down || e.rg.state == .joining) then redirectReq h.src h.step e
  else if bodyCls b == 5 && e.rg.state == .down || jobBody b && e.stopped || epochChecked b && noMembers e h.step then dropBody h b e
  else
    let q := checkEpoch h b e
    if q.2 then applyBody h b q.1 else dropBody h b q.1

/-- The header of a packet takes effect where its session is open: not of SYNC, SYNC_ACK, STALE, or a beacon to any node. -/
def headed (h : PktHdr) (b : Body) : Bool :=
  match b with
  | .sync | .syncAck | .stale => false
  | .beacon _ => h.dst != anyNode
  | _ => true

/-- A packet is delivered. Log 26. -/
def opDeliver (h : PktHdr) (b : Body) (e : Eng) : Eng :=
  let e := if headed h b then takeHdr h e else e
  deliverBody h b (takeDelivery h b e)

/-- A packet is delivered to the engine. A session is not opened while a reset is in progress (R470, R472), and without an
Elnan image no traffic is accepted (R517). -/
def deliverPkt (h : PktHdr) (b : Body) (s : State) : State :=
  if s.fw.noImage || b == .sync && s.fw.resetRung != 0 then s else onEng (opDeliver h b) s

/-! ## Generations and sequence (R406, R407) -/

/-- Packets whose generations are not checked. -/
def anyGen (h : PktHdr) (b : Body) : Bool := !headed h b

/-- A packet with a stale destination generation is answered with STALE, once (R406). -/
def answerStale (h : PktHdr) (e : Eng) : Eng :=
  let e := count Ctr.fbStaleGen 1 e
  if (session e h.src).staled == some (h.srcGen, h.dstGen) then e
  else sendUnseq h.src .stale (setSession h.src (fun s => { s with staled := some (h.srcGen, h.dstGen) }) e)

/-- The packet carries the generation recorded for its source. -/
def knownGen (e : Eng) (h : PktHdr) : Bool :=
  let s := session e h.src
  s.known && s.peerGen == h.srcGen

/-- Deliver the packets buffered behind those delivered, in order. -/
def deliverBuffered : Nat → Nat → State → State
  | 0, _, s => s
  | n + 1, src, s =>
    let q := session s.eng src
    match q.buffered.find? (fun p => p.hdr.seq == q.rxNext) with
    | none => s
    | some p =>
      deliverBuffered n src (deliverPkt p.hdr p.body
        (onEng (setSession src (fun q => { q with buffered := q.buffered.filter (fun x => x.hdr.seq != p.hdr.seq) })) s))

/-- A sequenced packet of the session in force: in order, early, a duplicate, or beyond the window (R407, R408). -/
def sequencePacket (p : Packet) (s : State) : State :=
  let h := p.hdr
  let q := session s.eng h.src
  if h.seq = q.rxNext then deliverBuffered 1024 h.src (deliverPkt h p.body s)
  else if serialAfter q.rxNext h.seq then onEng (fun e => sendAck h.src (count Ctr.fbDuplicates 1 e)) s
  else if (h.seq - q.rxNext).toNat ≤ 1024 then
    let have' := q.buffered.any (fun x => x.hdr.seq == h.seq)
    onEng (fun e => sendAck h.src (if have' then count Ctr.fbDuplicates 1 e
      else setSession h.src (fun q => { q with buffered := q.buffered ++ [p] }) e)) s
  else onEng (count Ctr.fbOutOfWindow 1) s

/-- A packet that has come in a frame: its generations, then its place in the session. -/
def framePacket (p : Packet) (s : State) : State :=
  let h := p.hdr
  if !anyGen h p.body && h.dstGen != s.eng.fb.gen then onEng (answerStale h) s
  else if !anyGen h p.body && !knownGen s.eng h then onEng (count Ctr.fbStaleGen 1) s
  else if unsequenced p.body then deliverPkt h p.body s
  else sequencePacket p s

/-- The bytes of a packet for this engine: its e2e_crc is checked first (R403). -/
def packetIn (b : List Byte) (s : State) : State :=
  if !packetOk b then onEng (count Ctr.fbE2eCrcErr 1) s
  else match readPacket (tdAt s.eng (readHdr b).step) b with
    | some p => framePacket p s
    | none => s

/-! ## Frames -/

/-- The packet bytes of a frame without the padding that may follow them. -/
def unpadded (b : List Byte) : List Byte := b.take (packetLen b)

/-- A priority flow control frame of IEEE 802.1Qbb: its group address, MAC control type and opcode (R395). -/
def pfcFrame (f : List Byte) : Bool :=
  f.take 6 == [0x01, 0x80, 0xC2, 0x00, 0x00, 0x01] && slice f 12 2 == be2 0x8808 && slice f 14 2 == be2 0x0101

/-- A flow control frame that the link's port honours: it holds transmission back for a time, and changes nothing else.
Log 127. -/
def honoured (e : Eng) (l : Nat) (f : List Byte) : Bool :=
  (Tab.get {} e.fb.ports (l / 4)).pfcEn && pfcFrame f && crc32 (f.take (f.length - 4)) == num f (f.length - 4) 4

/-- ETHERNET_FRAME_RX on a link that runs in Ethernet mode (R398). -/
def opEthernetFrame (l : Nat) (f : List Byte) (s : State) : State :=
  if !s.eng.fb.linksUp.contains l || linkMode s.eng l != 1 || honoured s.eng l f then s
  else match etherPacket s.eng f with
    | none => onEng (count Ctr.fbFrameDrops 1) s
    | some b => packetIn (unpadded b) s

/-- A link frame in order: for this engine, or forwarded (R400, R401). -/
def linkPacket (b : List Byte) (s : State) : State :=
  let dst := fld (num b 8 3) 0 20
  if dst = s.eng.fb.node ∨ dst = anyNode then packetIn b s else onEng (forward b) s

/-- LINK_FRAME_RX on a link that runs in direct mode (R400). A frame behind the one expected is dropped. -/
def opLinkFrame (l : Nat) (f : List Byte) (s : State) : State :=
  if !s.eng.fb.linksUp.contains l || linkMode s.eng l != 2 then s
  else if !linkFrameOk f then onEng (sendNak l) s
  else
    let seq := num f 0 2 % 4096
    let ack := num f 2 2 % 4096
    let want := (directLink s.eng l).rxSeq
    match num f 4 1 with
    | 0 =>
      if seq = want then
        linkPacket ((f.take (f.length - 4)).drop 8) (onEng (setLink l (fun d => { d with rxSeq := (d.rxSeq + 1) % 4096 })) s)
      else if (seq + 4096 - want) % 4096 < 2048 then onEng (sendNak l) s
      else s
    | 1 => onEng (opLinkNak l ack) s
    | _ => s

/-- LINK_NAK on a link that runs in direct mode. -/
def opNakRow (l seq : Nat) (e : Eng) : Eng := if e.fb.linksUp.contains l && linkMode e l == 2 then opLinkNak l seq e else e

/-- The image leaves a ridge port in direct mode, as it is where no record names it (R396, R516). -/
def ridgeRuns (e : Eng) (k : Nat) : Bool :=
  match Tab.find? e.fb.ports (16 + k) with
  | some p => fld p.linkMode 0 2 == 2
  | none => true

/-- A logical link, 0 to 63, or a ridge port, 64 to 67, goes up or down. One that comes up needs its SerDes powered and
clocked, an image to train by, and its port group or the ridge link out of quarantine (R396, R470, R491, R499, R517). -/
def opLinkChange (l : Nat) (up : Bool) (s : State) : State :=
  if 68 ≤ l ∨ up && (s.fw.noImage || !s.pw.present.contains 1 || shutOut s.eng .io 0 (l / 16)) then s
  else if 64 ≤ l then (if up && !ridgeRuns s.eng (l - 64) then s else onEng (ridgePort (l - 64) up) s)
  else if !up then onEng (linkDown l) s
  else if bit s.pw.groupOff (l / 16) then s
  else onEng (linkUp l) s

end Sys2Proof.Machine
end

