-- ==== Sys2Proof/Machine/RowsHost.lean ====
section
/-! DEFINITION. The rows of the host commands and of the host link. -/

namespace Sys2Proof.Machine

/-! ## How a row runs -/

/-- A row of the I/O die: without power, clock or firmware it has no effect. -/
def ioRow (f : State → State) (s : State) : Host.Outcome State Fault Refusal := .next (if ioUp s then settle (f s) else s)

/-- A row of the logic that an engine reset stops. -/
def logicRow (f : Eng → Eng) (s : State) : Host.Outcome State Fault Refusal :=
  .next (if ioUp s && !s.eng.stopped then settle (onEng f s) else s)

/-! ## Host commands -/

/-- A command of a submission ring can be accepted now: nothing holds the ring's head, no command waits there before it, and the ring
has its turn (R360, R364, R368). -/
def canAccept (s : State) (r : Nat) : Bool :=
  ioUp s && decide (r < 64) && (ring s.eng r).runs && !ringHeld s.eng r && !headWaits s.eng r && (ring s.eng r).head.isNone &&
    hasTurn s.eng r

/-- A host command: it stands at the head of its ring with this descriptor, is accepted and carried out; where the ring's head is held, it
waits in the ring and nothing changes. Log 7. -/
def hostRow (m : Meaning) (r : Nat) (d : Desc) (s : State) : Host.Outcome State Fault Refusal :=
  .next (if canAccept s r then settle (onEng (opHostCommand m r d) s) else s)

/-- A read-only host command. -/
def readOnlyRow (op : Nat → Eng → Eng) (r : Nat) (d : Desc) (s : State) : Host.Outcome State Fault Refusal := hostRow (.read op) r d s

/-- A state-changing host command (R361). -/
def changeRow (x : Change) (r : Nat) (d : Desc) (s : State) : Host.Outcome State Fault Refusal := hostRow (.change x) r d s

/-- NOP (R367). -/
def execNop (ring : Nat) (d : Desc) (s : State) : Host.Outcome State Fault Refusal := readOnlyRow opNop ring d s

/-- STEP_OPEN (R137). -/
def execStepOpen (ring : Nat) (d : Desc) (s : State) : Host.Outcome State Fault Refusal :=
  changeRow stepOpenChange ring d s

/-- STEP_CLOSE (R139). -/
def execStepClose (ring : Nat) (d : Desc) (s : State) : Host.Outcome State Fault Refusal :=
  changeRow stepCloseChange ring d s

/-- FENCE (R366). -/
def execFence (ring : Nat) (d : Desc) (s : State) : Host.Outcome State Fault Refusal := readOnlyRow opFence ring d s

/-- LOOKUP_POOL (R72). -/
def execLookupPool (ring : Nat) (d : Desc) (s : State) : Host.Outcome State Fault Refusal := readOnlyRow opLookupPool ring d s

/-- LOOKUP_ROWS (R79). -/
def execLookupRows (ring : Nat) (d : Desc) (s : State) : Host.Outcome State Fault Refusal := readOnlyRow opLookupRows ring d s

/-- UPDATE_GRAD (R151). -/
def execUpdateGrad (ring : Nat) (d : Desc) (s : State) : Host.Outcome State Fault Refusal :=
  changeRow updateGradChange ring d s

/-- ROW_WRITE (R156). -/
def execRowWrite (ring : Nat) (d : Desc) (s : State) : Host.Outcome State Fault Refusal :=
  changeRow rowWriteChange ring d s

/-- HOT_SET_LOAD (R112). -/
def execHotSetLoad (ring : Nat) (d : Desc) (s : State) : Host.Outcome State Fault Refusal :=
  changeRow hotSetLoadChange ring d s

/-- THATCH_REFRESH (R117). -/
def execThatchRefresh (ring : Nat) (d : Desc) (s : State) : Host.Outcome State Fault Refusal :=
  changeRow thatchRefreshChange ring d s

/-- MIGRATE_ROWS (R119). -/
def execMigrateRows (ring : Nat) (d : Desc) (s : State) : Host.Outcome State Fault Refusal :=
  changeRow migrateRowsChange ring d s

/-- TABLE_REPLACE (R125). -/
def execTableReplace (ring : Nat) (d : Desc) (s : State) : Host.Outcome State Fault Refusal :=
  changeRow tableReplaceChange ring d s

/-- TABLE_REMAP (R129). -/
def execTableRemap (ring : Nat) (d : Desc) (s : State) : Host.Outcome State Fault Refusal :=
  changeRow tableRemapChange ring d s

/-- STREAM_ARM (R279). -/
def execStreamArm (ring : Nat) (d : Desc) (s : State) : Host.Outcome State Fault Refusal := hostRow .stream ring d s

/-- STREAM_RESUME (R307): an opcode 0x30 of kind RESUME. -/
def execStreamResume (ring : Nat) (d : Desc) (s : State) : Host.Outcome State Fault Refusal := hostRow .stream ring d s

/-- STREAM_CANCEL (R308): an opcode 0x30 of kind CANCEL. -/
def execStreamCancel (ring : Nat) (d : Desc) (s : State) : Host.Outcome State Fault Refusal := hostRow .stream ring d s

/-- BUF_SWAP (R293). -/
def execBufSwap (ring : Nat) (d : Desc) (s : State) : Host.Outcome State Fault Refusal := readOnlyRow opBufSwap ring d s

/-- SHINGLE_WRITE (R301). -/
def execShingleWrite (ring : Nat) (d : Desc) (s : State) : Host.Outcome State Fault Refusal := readOnlyRow opShingle ring d s

/-- SHINGLE_READ (R303). -/
def execShingleRead (ring : Nat) (d : Desc) (s : State) : Host.Outcome State Fault Refusal := readOnlyRow opShingle ring d s

/-- ATOMIC (R270). -/
def execAtomic (ring : Nat) (d : Desc) (s : State) : Host.Outcome State Fault Refusal :=
  changeRow atomicChange ring d s

/-- INTERACT (R221). -/
def execInteract (ring : Nat) (d : Desc) (s : State) : Host.Outcome State Fault Refusal := readOnlyRow opInteract ring d s

/-- TOPK (R233). -/
def execTopk (ring : Nat) (d : Desc) (s : State) : Host.Outcome State Fault Refusal := readOnlyRow opTopk ring d s

/-- DISPATCH (R239). -/
def execDispatch (ring : Nat) (d : Desc) (s : State) : Host.Outcome State Fault Refusal := readOnlyRow opDispatch ring d s

/-- COMBINE (R245). -/
def execCombine (ring : Nat) (d : Desc) (s : State) : Host.Outcome State Fault Refusal := readOnlyRow opCombine ring d s

/-- CONFIG_STAGE (R418). -/
def execConfigStage (ring : Nat) (d : Desc) (s : State) : Host.Outcome State Fault Refusal :=
  changeRow configStageChange ring d s

/-- CONFIG_DISCARD (R418): a CONFIG_STAGE of kind DISCARD. -/
def execConfigDiscard (ring : Nat) (d : Desc) (s : State) : Host.Outcome State Fault Refusal :=
  changeRow configStageChange ring d s

/-- CONFIG_ACTIVATE (R419). -/
def execConfigActivate (ring : Nat) (d : Desc) (s : State) : Host.Outcome State Fault Refusal :=
  changeRow configActivateChange ring d s

/-! ## Acceptance and completion -/

/-- ACCEPT_COMMAND (R360). -/
def execAcceptCommand (ring : Nat) (s : State) : Host.Outcome State Fault Refusal := ioRow (onEng (opAccept ring)) s

/-- JOURNAL_DONE (R361). -/
def execJournalDone (ring : Nat) (s : State) : Host.Outcome State Fault Refusal := logicRow (opJournalDone ring) s

/-- COMMAND_COMPLETE (R370). -/
def execCommandComplete (ring : Nat) (seq : Word) (s : State) : Host.Outcome State Fault Refusal :=
  ioRow (onEng (opCommandComplete ring seq)) s

/-! ## Doorbells (R354) -/

/-- SUBMISSION_DOORBELL. -/
def execSubmissionDoorbell (ring : Nat) (value : Word) (s : State) : Host.Outcome State Fault Refusal :=
  ioRow (onEng (opSubDoorbell ring value)) s

/-- COMPLETION_DOORBELL. -/
def execCompletionDoorbell (ring : Nat) (value : Word) (s : State) : Host.Outcome State Fault Refusal :=
  ioRow (onEng (opCompDoorbell ring value)) s

/-- EVENT_DOORBELL (R375). -/
def execEventDoorbell (value : Word) (s : State) : Host.Outcome State Fault Refusal := ioRow (onEng (opEventDoorbell value)) s

/-- HEARTBEAT (R385). -/
def execHeartbeat (s : State) : Host.Outcome State Fault Refusal := ioRow (onEng opHeartbeat) s

/-- The mailbox doorbell: the request is handled, or waits for its core (R378, R462). -/
def ringMailbox (s : State) : State :=
  if mailboxServed s then onEng (opMailbox s.fw.oos) s else onEng (fun e => { e with hl := { e.hl with mbHeld := true } }) s

/-- MAILBOX_DOORBELL (R378). -/
def execMailboxDoorbell (s : State) : Host.Outcome State Fault Refusal := ioRow ringMailbox s

/-! ## Mailbox messages (R379 to R384) -/

/-- The bytes of a mailbox request (R379). -/
def mbRequest (ty tag : Nat) (body : List Byte) : List Byte :=
  leBytes 1 ty ++ [0, 1, 0] ++ leBytes 2 body.length ++ leBytes 2 tag ++ zeros 8 ++ body

/-- A mailbox message: its request lies in the request area, and is handled, or waits for its core. -/
def mbMessage (ty tag : Nat) (body : List Byte) (op : State → State) (s : State) : State :=
  let s := onEng (mbWrite 0 (mbRequest ty tag body)) s
  if mailboxServed s then op s else onEng (fun e => { e with hl := { e.hl with mbHeld := true } }) s

/-- HELLO (R380). -/
def execHello (tag : Nat) (s : State) : Host.Outcome State Fault Refusal := ioRow (mbMessage 1 tag [] (onEng (opHello tag))) s

/-- ATTACH (R383). -/
def execAttach (tag heartbeatMs : Nat) (s : State) : Host.Outcome State Fault Refusal :=
  ioRow (mbMessage 2 tag (leBytes 2 heartbeatMs ++ zeros 14) (fun s => onEng (opAttach s.fw.oos tag heartbeatMs) s)) s

/-- DETACH of mode DRAIN (R384). -/
def execDetachDrain (tag drainMs : Nat) (s : State) : Host.Outcome State Fault Refusal :=
  ioRow (mbMessage 3 tag ([0, 0] ++ leBytes 4 drainMs ++ zeros 10) (onEng (opDetachDrain tag drainMs))) s

/-- DETACH of mode ABANDON (R384). -/
def execDetachAbandon (tag : Nat) (s : State) : Host.Outcome State Fault Refusal :=
  ioRow (mbMessage 3 tag ([1] ++ zeros 15) (onEng (opDetachAbandon tag))) s

/-- DRAIN_COMPLETE (R384). -/
def execDrainComplete (s : State) : Host.Outcome State Fault Refusal := ioRow (onEng opDrainComplete) s

/-- DRAIN_TIMEOUT (R384). -/
def execDrainTimeout (s : State) : Host.Outcome State Fault Refusal := ioRow (onEng opDrainTimeout) s

/-! ## The link and the host (R346 to R349, R385) -/

/-- HEARTBEAT_TIMEOUT (R385). -/
def execHeartbeatTimeout (s : State) : Host.Outcome State Fault Refusal := ioRow (onEng opHeartbeatTimeout) s

/-- HOST_LINK_MODULE_FAIL: the number of modules left in service (R349). -/
def execHostLinkModuleFail (modules : Nat) (s : State) : Host.Outcome State Fault Refusal := ioRow (onEng (opModuleFail modules)) s

/-- HOST_LINK_RESET (R382, R385). -/
def execHostLinkReset (s : State) : Host.Outcome State Fault Refusal := ioRow (onEng (hostLoss 3)) s

/-- HOST_WRITE_ACK (R348). -/
def execHostWriteAck (k : Nat) (s : State) : Host.Outcome State Fault Refusal := ioRow (onEng (opHostWriteAck k)) s

/-- HOST_READ_DATA: what host memory answers from now on (R346, R347). Log 2. -/
def execHostReadData (addr : Nat) (data : List Byte) (s : State) : Host.Outcome State Fault Refusal :=
  .next (onEng (hostStore addr data) s)

/-- IRQ_MODERATION_TIMEOUT (R377). -/
def execIrqModerationTimeout (ring : Nat) (s : State) : Host.Outcome State Fault Refusal := ioRow (onEng (opModeration ring)) s

/-! ## Set-up registers (R346, R392, R533, R535, R541) -/

/-- A write of a register whose row the table names, by the host. -/
def writeRow (off : Nat) (value : Word) (s : State) : Host.Outcome State Fault Refusal := ioRow (regWrite .host off value.toNat) s

/-- HL_RING_CFG_WRITE, of the selected ring (R392). -/
def execHlRingCfgWrite (value : Word) (s : State) : Host.Outcome State Fault Refusal := writeRow 0x1024 value s

/-- HL_IRQ_CTRL_WRITE, of the selected vector (R377). -/
def execHlIrqCtrlWrite (value : Word) (s : State) : Host.Outcome State Fault Refusal := writeRow 0x1054 value s

/-- A doorbell written at its place in the doorbell page (R354). -/
def pageDoorbell (k : Nat) (v : Word) (s : State) : State :=
  if k < 64 then onEng (opSubDoorbell k v) s
  else if k < 128 then onEng (opCompDoorbell (k - 64) v) s
  else if k = 128 then onEng (opEventDoorbell v) s
  else if k = 129 then ringMailbox s
  else if k = 130 then onEng opHeartbeat s
  else s

/-- A 4-byte write at an aperture offset below the dormer window (R350). -/
def apertureWrite (off : Nat) (v : Word) (s : State) : State :=
  if off < 0x1000000 then regWrite .host off v.toNat s
  else if off < 0x1010000 then (if off % 64 = 0 then pageDoorbell ((off - 0x1000000) / 64) v s else s)
  else if off < 0x1010800 then onEng (mbWrite (off - 0x1010000) (leBytes 4 v.toNat)) s
  else s

/-- A store through the dormer window (R338, R339). One to a slot or entry of an indirect table is undefined (R58). -/
def dormerStore (x : Nat) (data : List Byte) (s : State) : Host.Outcome State Fault Refusal :=
  if !windowOk x data.length then .fault .windowAccessUndefined
  else if windowForbidden s.eng x data.length then .fault .indirectSlotWriteUndefined
  else ioRow (onEng (windowWrite x data)) s

/-- The offset takes aligned 4-byte accesses only: that of a register or of the mailbox (R346, R350). -/
def alignedOnly (off : Nat) : Bool := decide (off < 0x1000000) || (decide (0x1010000 ≤ off) && decide (off < 0x1011000))

/-- REGISTER_WRITE (R346, R350, R533). In the doorbell page bytes other than offset 0 of a slot are ignored, and so are writes of a reserved
range (R350, R354). -/
def execRegisterWrite (offset : Nat) (value : Word) (s : State) : Host.Outcome State Fault Refusal :=
  if offset % 4 ≠ 0 ∧ alignedOnly offset then .fault .registerAccessUndefined
  else if 0x10000000 ≤ offset ∧ offset < 0x20000000 then dormerStore (offset - 0x10000000) (leBytes 4 value.toNat) s
  else ioRow (apertureWrite offset value) s

/-- What the last read of the aperture returned. -/
def keepBytes (bs : List Byte) (s : State) : State := onEng (fun e => { e with hl := { e.hl with readData := bs } }) s

/-- What the last read of the aperture returned, as a 4-byte word. -/
def keepRead (v : Nat) (s : State) : State := keepBytes (leBytes 4 v) s

/-- A load through the dormer window (R338, R339). -/
def dormerLoad (x size : Nat) (s : State) : Host.Outcome State Fault Refusal :=
  if !windowOk x size then .fault .windowAccessUndefined
  else ioRow (fun s =>
    let q := windowRead x size s.eng
    keepBytes q.1 { s with eng := q.2 }) s

/-- A 4-byte read at an aperture offset below the dormer window: a register, the mailbox, or zero (R350, R354, R378). -/
def apertureRead (off : Nat) (s : State) : State :=
  if off < 0x1000000 then let q := regRead .host off s; keepRead q.1 q.2
  else if 0x1010000 ≤ off ∧ off < 0x1011000 then keepBytes (memRead 0 s.eng.hl.mailbox (off - 0x1010000) 4) s
  else keepRead 0 s

/-- COUNTER_READ_LO: a counter's or tick's low half (R541), and by the host any other 4-byte read of the aperture (R350). -/
def execCounterReadLo (path : Path) (offset : Nat) (s : State) : Host.Outcome State Fault Refusal :=
  match path with
  | .nightwatch => if offset % 4 ≠ 0 then .fault .registerAccessUndefined else ioRow (fun s => (regRead path offset s).2) s
  | .host =>
    if offset % 4 ≠ 0 ∧ alignedOnly offset then .fault .registerAccessUndefined
    else if 0x10000000 ≤ offset ∧ offset < 0x20000000 then dormerLoad (offset - 0x10000000) 4 s
    else ioRow (apertureRead offset) s

/-- COUNTER_CLEAR (R540). -/
def execCounterClear (path : Path) (offset : Nat) (s : State) : Host.Outcome State Fault Refusal :=
  if offset % 4 ≠ 0 then .fault .registerAccessUndefined
  else ioRow (regWrite path offset 0) s

/-! ## The dormer window (R337 to R339) -/

/-- DORMER_READ. -/
def execDormerRead (x size : Nat) (s : State) : Host.Outcome State Fault Refusal := dormerLoad x size s

/-- DORMER_WRITE. -/
def execDormerWrite (x : Nat) (data : List Byte) (s : State) : Host.Outcome State Fault Refusal := dormerStore x data s

end Sys2Proof.Machine
end

