-- ==== Sys2Proof/Machine/RowsFabric.lean ====
section
/-! DEFINITION. The rows of Starfield and Lodestar: packets delivered, frames, timers and links; and those of the look-up and
update paths. -/

namespace Sys2Proof.Machine

/-- A packet is delivered. -/
def packetRow (h : PktHdr) (b : Body) (s : State) : Host.Outcome State Fault Refusal := ioRow (deliverPkt h b) s

/-! ## Packets delivered (R404) -/

/-- INDEX (R83, R405). -/
def execIndex (h : PktHdr) (b : IndexBody) (s : State) : Host.Outcome State Fault Refusal := packetRow h (.index b) s

/-- RESULT (R94). -/
def execResult (h : PktHdr) (b : ResultBody) (s : State) : Host.Outcome State Fault Refusal := packetRow h (.result b) s

/-- RECORD (R150). -/
def execRecord (h : PktHdr) (es : List Entry) (s : State) : Host.Outcome State Fault Refusal := packetRow h (.record es) s

/-- RECORD_ACK (R439). -/
def execRecordAck (h : PktHdr) (b : RecordAckBody) (s : State) : Host.Outcome State Fault Refusal := packetRow h (.recordAck b) s

/-- FENCE, the packet (R27, R405). -/
def execFencePacket (h : PktHdr) (b : FenceBody) (s : State) : Host.Outcome State Fault Refusal := packetRow h (.fence b) s

/-- RESTEP (R176). -/
def execRestep (h : PktHdr) (table round : Nat) (s : State) : Host.Outcome State Fault Refusal :=
  packetRow h (.restep table round) s

/-- SKY_WRITE (R332). -/
def execSkyWrite (h : PktHdr) (b : SkyWriteBody) (s : State) : Host.Outcome State Fault Refusal := packetRow h (.skyWrite b) s

/-- SKY_READ (R332). -/
def execSkyRead (h : PktHdr) (b : SkyReadBody) (s : State) : Host.Outcome State Fault Refusal := packetRow h (.skyRead b) s

/-- SKY_DATA (R245). -/
def execSkyData (h : PktHdr) (b : SkyDataBody) (s : State) : Host.Outcome State Fault Refusal := packetRow h (.skyData b) s

/-- SKY_WRITE_ACK (R336). -/
def execSkyWriteAck (h : PktHdr) (cmdId : Nat) (s : State) : Host.Outcome State Fault Refusal := packetRow h (.skyWriteAck cmdId) s

/-- FAULT_PENDING (R334). -/
def execFaultPending (h : PktHdr) (cmdId faultId : Nat) (s : State) : Host.Outcome State Fault Refusal :=
  packetRow h (.faultPending cmdId faultId) s

/-- RESUME of a skylight command (R334). -/
def execSkyResume (h : PktHdr) (cmdId : Nat) (s : State) : Host.Outcome State Fault Refusal := packetRow h (.skyResume cmdId) s

/-- ABORTED (R334). -/
def execAborted (h : PktHdr) (cmdId : Nat) (s : State) : Host.Outcome State Fault Refusal := packetRow h (.aborted cmdId) s

/-- DENIED (R333). -/
def execDenied (h : PktHdr) (cmdId reason : Nat) (s : State) : Host.Outcome State Fault Refusal :=
  packetRow h (.denied cmdId reason) s

/-- SYNC (R406). -/
def execSync (h : PktHdr) (s : State) : Host.Outcome State Fault Refusal := packetRow h .sync s

/-- SYNC_ACK (R406). -/
def execSyncAck (h : PktHdr) (s : State) : Host.Outcome State Fault Refusal := packetRow h .syncAck s

/-- STALE (R406, R411). -/
def execStale (h : PktHdr) (s : State) : Host.Outcome State Fault Refusal := packetRow h .stale s

/-- REDIRECT (R442). -/
def execRedirect (h : PktHdr) (s : State) : Host.Outcome State Fault Refusal := packetRow h .redirect s

/-- HOLD (R411): the reply timers it restarts are events of their own. Log 5. -/
def execHold (h : PktHdr) (s : State) : Host.Outcome State Fault Refusal := packetRow h .hold s

/-- EPOCH_REJECT (R422). -/
def execEpochReject (h : PktHdr) (epoch : BitVec 16) (cls cmdId : Nat) (s : State) : Host.Outcome State Fault Refusal :=
  packetRow h (.epochReject epoch cls cmdId) s

/-- ACK (R408, R409). -/
def execAck (h : PktHdr) (s : State) : Host.Outcome State Fault Refusal := packetRow h .ack s

/-- BEACON (R421). -/
def execBeacon (h : PktHdr) (b : BeaconBody) (s : State) : Host.Outcome State Fault Refusal := packetRow h (.beacon b) s

/-! ## Frames and links -/

/-- ETHERNET_FRAME_RX (R398). -/
def execEthernetFrameRx (link : Nat) (frame : List Byte) (s : State) : Host.Outcome State Fault Refusal :=
  ioRow (opEthernetFrame link frame) s

/-- LINK_FRAME_RX (R400). -/
def execLinkFrameRx (link : Nat) (frame : List Byte) (s : State) : Host.Outcome State Fault Refusal :=
  ioRow (opLinkFrame link frame) s

/-- LINK_NAK (R400). -/
def execLinkNak (link linkSeq : Nat) (s : State) : Host.Outcome State Fault Refusal := ioRow (onEng (opNakRow link linkSeq)) s

/-- LINK_CHANGE (R396). -/
def execLinkChange (link : Nat) (up : Bool) (s : State) : Host.Outcome State Fault Refusal := ioRow (opLinkChange link up) s

/-- FB_PORT_CFG_WRITE, of the selected port (R396). -/
def execFbPortCfgWrite (value : Word) (s : State) : Host.Outcome State Fault Refusal := writeRow 0xF00C value s

/-! ## Timers -/

/-- RETRANSMIT_TIMEOUT (R409). -/
def execRetransmitTimeout (peer : Nat) (s : State) : Host.Outcome State Fault Refusal := ioRow (onEng (opRetransmit peer)) s

/-- ACK_DELAY_TIMEOUT (R408). -/
def execAckDelayTimeout (peer : Nat) (s : State) : Host.Outcome State Fault Refusal := ioRow (onEng (opAckDelay peer)) s

/-- REPLY_TIMEOUT (R411). -/
def execReplyTimeout (req : Nat) (s : State) : Host.Outcome State Fault Refusal := ioRow (onEng (opReplyTimeout req)) s

/-- HOLD_TIMER (R411). -/
def execHoldTimer (peer step : Nat) (s : State) : Host.Outcome State Fault Refusal := ioRow (onEng (opHoldTimer peer step)) s

/-- RECORD_RESEND (R422, R442). -/
def execRecordResend (peer : Nat) (s : State) : Host.Outcome State Fault Refusal := logicRow (opRecordResend peer) s

/-- BEACON_TIMER (R421). -/
def execBeaconTimer (s : State) : Host.Outcome State Fault Refusal := ioRow (onEng sendBeacons) s

/-! ## Look-ups and updates -/

/-- GATHER_READ_COMPLETE (R87). -/
def execGatherReadComplete (k : Nat) (bad residue : Bool) (s : State) : Host.Outcome State Fault Refusal :=
  logicRow (opGatherDone k bad residue) s

/-- STEP_CLOSE_BEGIN (R27). -/
def execStepCloseBegin (s : State) : Host.Outcome State Fault Refusal := logicRow opStepCloseBegin s

/-- DRAIN_EPOCH_ADVANCE (R121). -/
def execDrainEpochAdvance (s : State) : Host.Outcome State Fault Refusal := logicRow advanceOnce s

end Sys2Proof.Machine
end

