-- ==== Sys2Proof/Machine/RowsRidge.lean ====
section
/-! DEFINITION. The rows of the ridge pair (R432 to R455). -/

namespace Sys2Proof.Machine

/-- A packet arrives on the ridge link, which is up (R432). -/
def ridgeRow (f : Eng → Eng) (s : State) : Host.Outcome State Fault Refusal :=
  ioRow (fun s => if s.eng.rg.portsUp.isEmpty then s else onEng (fun e => f (ridgeHeard e)) s) s

/-- A ridge packet for the logic that an engine reset stops. -/
def ridgeLogic (f : Eng → Eng) (s : State) : Host.Outcome State Fault Refusal := ridgeRow (fun e => if e.stopped then e else f e) s

/-- JOURNAL (R437). -/
def execJournal (b : JournalBody) (s : State) : Host.Outcome State Fault Refusal := ridgeLogic (opJournal b) s

/-- JOURNAL_ACK (R437). -/
def execJournalAck (ring : Nat) (seq : Word) (s : State) : Host.Outcome State Fault Refusal := ridgeLogic (opJournalAck ring seq) s

/-- FORWARD (R440). -/
def execForward (items : List FwdItem) (s : State) : Host.Outcome State Fault Refusal := ridgeLogic (opForward items) s

/-- FORWARD_ACK (R150). -/
def execForwardAck (keys : List FwdKey) (s : State) : Host.Outcome State Fault Refusal := ridgeLogic (opForwardAck keys) s

/-- REPAIR, a request (R98, R126, R174). -/
def execRepair (r : RepairReq) (s : State) : Host.Outcome State Fault Refusal := ridgeLogic (opRepair r) s

/-- REPAIR, a reply (R98). -/
def execRepairReply (r : RepairReq) (d : RepairData) (s : State) : Host.Outcome State Fault Refusal :=
  ridgeLogic (opRepairReply r d) s

/-- STATUS (R435). -/
def execStatus (b : StatusBody) (s : State) : Host.Outcome State Fault Refusal := ridgeRow (opStatus b) s

/-- JOIN (R451). -/
def execJoin (b : JoinBody) (s : State) : Host.Outcome State Fault Refusal := ridgeRow (opJoin b) s

/-- RESILVER_COPY (R452, R453). -/
def execResilverCopy (b : CopyBlock) (s : State) : Host.Outcome State Fault Refusal := ridgeLogic (opResilverCopy b) s

/-- CUTOVER (R453): at the copying member, or the joiner with what it received. -/
def execCutover (b : Option CutoverBody) (s : State) : Host.Outcome State Fault Refusal := ridgeLogic (opCutover b) s

/-- RESILVER_PASS_DONE (R453). -/
def execResilverPassDone (s : State) : Host.Outcome State Fault Refusal := logicRow opPassDone s

/-- RIDGE_HEARTBEAT_TIMER (R432). -/
def execRidgeHeartbeatTimer (s : State) : Host.Outcome State Fault Refusal := ioRow (onEng opRidgeBeat) s

/-- RIDGE_LINK_SILENCE (R435). -/
def execRidgeLinkSilence (s : State) : Host.Outcome State Fault Refusal := ioRow (onEng opLinkSilence) s

/-- RIDGE_ALIVE_LOST (R433). -/
def execRidgeAliveLost (s : State) : Host.Outcome State Fault Refusal := ioRow (onEng opAliveLost) s

/-- VERDICT_WAIT_TIMEOUT (R435). -/
def execVerdictWaitTimeout (s : State) : Host.Outcome State Fault Refusal := logicRow opVerdictWait s

/-- VERDICT_DEFERRAL_EXPIRY (R467). -/
def execVerdictDeferralExpiry (s : State) : Host.Outcome State Fault Refusal := logicRow opDeferralExpiry s

/-- RIDGE_ALIVE_RELEASE (R433). -/
def execRidgeAliveRelease (s : State) : Host.Outcome State Fault Refusal := ioRow (onEng opAliveRelease) s

/-- STAND_DOWN: RG_CTRL.STAND_DOWN is written (R455). -/
def execStandDown (s : State) : Host.Outcome State Fault Refusal := writeRow 0x11004 1 s

end Sys2Proof.Machine
end

