-- ==== Sys2Proof/Machine/RowsSystem.lean ====
section
/-! DEFINITION. The rows of power, clocks, firmware, resets and Nightwatch. -/

namespace Sys2Proof.Machine

/-- A row of the always-on domain, or one that looks after its own conditions. -/
def sysRow (f : State → State) (s : State) : Host.Outcome State Fault Refusal := .next (settle (f s))

/-! ## Stacks, temperatures, power (R253 to R260, R498 to R507) -/

/-- STACK_TEMP_SAMPLE (R259). -/
def execStackTempSample (temps : List Nat) (s : State) : Host.Outcome State Fault Refusal := sysRow (opStackTemp temps) s

/-- BURST_PARITY_ERROR (R260). -/
def execBurstParityError (stack channel : Nat) (write : Bool) (struck : Struck) (s : State) : Host.Outcome State Fault Refusal :=
  sysRow (opBurstParity stack channel write struck) s

/-- THERMAL_SAMPLE (R503). -/
def execThermalSample (kind : Part) (temps : List Nat) (s : State) : Host.Outcome State Fault Refusal := sysRow (opThermalSample kind temps) s

/-- CAUTION_STEP_TIMER (R503). -/
def execCautionStepTimer (s : State) : Host.Outcome State Fault Refusal := sysRow opCautionStep s

/-- CURRENT_CLAMP (R506). -/
def execCurrentClamp (kind : Part) (die : Nat) (s : State) : Host.Outcome State Fault Refusal := sysRow (opClamp kind die) s

/-- CURRENT_CLAMP_RELEASE (R506). -/
def execCurrentClampRelease (kind : Part) (die : Nat) (s : State) : Host.Outcome State Fault Refusal := sysRow (opClampRelease kind die) s

/-- POWER_CAP_TICK (R507). Log 74. -/
def execPowerCapTick (watts fraction : Nat) (s : State) : Host.Outcome State Fault Refusal := sysRow (opCapTick watts fraction) s

/-- DUSK_IDLE_TIMEOUT (R498). -/
def execDuskIdleTimeout (die : Nat) (s : State) : Host.Outcome State Fault Refusal := sysRow (opDusk die) s

/-- DUSK_WAKE (R498). -/
def execDuskWake (die : Nat) (s : State) : Host.Outcome State Fault Refusal := sysRow (opDuskWake die) s

/-- CATASTROPHIC_TEMPERATURE (R253). -/
def execCatastrophicTemperature (stack : Nat) (s : State) : Host.Outcome State Fault Refusal := sysRow (opCatastrophic stack) s

/-- REFRESH_MANAGEMENT_REQUEST (R253). -/
def execRefreshManagementRequest (stack : Nat) (s : State) : Host.Outcome State Fault Refusal := logicRow (opRefreshMgmt stack) s

/-! ## Clocks, pins, power (R479, R491, R494) -/

/-- REF_CLOCK_LOST (R491). -/
def execRefClockLost (r : Ref) (s : State) : Host.Outcome State Fault Refusal := sysRow (opRefLost r) s

/-- REF_CLOCK_RETURN (R491). -/
def execRefClockReturn (r : Ref) (s : State) : Host.Outcome State Fault Refusal := sysRow (opRefReturn r) s

/-- RESET_N_ASSERT (R494). -/
def execResetNAssert (s : State) : Host.Outcome State Fault Refusal := sysRow opResetPin s

/-- PWR_GOOD_FALL (R494). -/
def execPwrGoodFall (s : State) : Host.Outcome State Fault Refusal := sysRow opPowerFall s

/-- POWER_ON (R479). -/
def execPowerOn (s : State) : Host.Outcome State Fault Refusal := sysRow opPowerOn s

/-! ## Firmware and resets (R463 to R485) -/

/-- CORE_WATCHDOG_EXPIRY (R464). -/
def execCoreWatchdogExpiry (core : Nat) (s : State) : Host.Outcome State Fault Refusal := sysRow (opWatchdog core) s

/-- CORE_PROTECTION_FAULT (R464). -/
def execCoreProtectionFault (core : Nat) (s : State) : Host.Outcome State Fault Refusal := sysRow (opProtection core) s

/-- CORE_RESTART (R463): the core runs again, or fails to. -/
def execCoreRestart (core : Nat) (runs : Bool) (s : State) : Host.Outcome State Fault Refusal := sysRow (opCoreRestart core runs) s

/-- CONTROL_PARITY (R467). -/
def execControlParity (d : Domain) (s : State) : Host.Outcome State Fault Refusal := sysRow (askUnit d Reason.controlParity) s

/-- HANG (R467). -/
def execHang (d : Domain) (s : State) : Host.Outcome State Fault Refusal := sysRow (askUnit d Reason.hang) s

/-- QUARANTINE_END (R470). -/
def execQuarantineEnd (d : Domain) (s : State) : Host.Outcome State Fault Refusal := sysRow (opQuarantineEnd d) s

/-- ENGINE_RESET (R472). Log 72. -/
def execEngineReset (s : State) : Host.Outcome State Fault Refusal := sysRow (opReset 2) s

/-- WARM_RESET (R474). -/
def execWarmReset (s : State) : Host.Outcome State Fault Refusal := sysRow (opReset 3) s

/-- COLD_RESET (R475). -/
def execColdReset (s : State) : Host.Outcome State Fault Refusal := sysRow (opReset 4) s

/-- LADDER_TIMEOUT (R471). -/
def execLadderTimeout (s : State) : Host.Outcome State Fault Refusal := sysRow opLadder s

/-- ACTIVATION_HOLDOFF_EXPIRY (R484). -/
def execActivationHoldoffExpiry (s : State) : Host.Outcome State Fault Refusal := sysRow opHoldoff s

/-! ## Nightwatch (R518 to R525) -/

/-- HELLO on Nightwatch. -/
def execNwHello (tag : NwHead) (s : State) : Host.Outcome State Fault Refusal := sysRow (nwAsk (.nwHello tag)) s

/-- REG_READ. -/
def execRegRead (tag : NwHead) (offset count : Nat) (s : State) : Host.Outcome State Fault Refusal := sysRow (nwAsk (.regRead tag offset count)) s

/-- REG_WRITE. -/
def execRegWrite (tag : NwHead) (offset : Nat) (value : Word) (s : State) : Host.Outcome State Fault Refusal :=
  sysRow (nwAsk (.regWrite tag offset value)) s

/-- JOB_COUNTERS. -/
def execJobCounters (tag : NwHead) (s : State) : Host.Outcome State Fault Refusal := sysRow (nwAsk (.jobCounters tag)) s

/-- COUNTERS_CLEAR. -/
def execCountersClear (tag : NwHead) (scope : Nat) (s : State) : Host.Outcome State Fault Refusal := sysRow (nwAsk (.countersClear tag scope)) s

/-- EVENT_READ (R525). -/
def execEventRead (tag : NwHead) (count : Nat) (s : State) : Host.Outcome State Fault Refusal := sysRow (nwAsk (.eventRead tag count)) s

/-- LODESTAR (R423). -/
def execLodestar (tag : NwHead) (s : State) : Host.Outcome State Fault Refusal := sysRow (nwAsk (.lodestar tag)) s

/-- STATUS on Nightwatch. -/
def execNwStatus (tag : NwHead) (s : State) : Host.Outcome State Fault Refusal := sysRow (nwAsk (.nwStatus tag)) s

/-- SET_POWER_CAP (R507). -/
def execSetPowerCap (tag : NwHead) (watts window : Nat) (s : State) : Host.Outcome State Fault Refusal := sysRow (nwAsk (.setPowerCap tag watts window)) s

/-- SET_POWER_STATE, A2 (R499). -/
def execSetPowerStateA2 (tag : NwHead) (force : Bool) (s : State) : Host.Outcome State Fault Refusal := sysRow (nwAsk (.setPowerStateA2 tag force)) s

/-- SET_POWER_STATE, A3 (R499). -/
def execSetPowerStateA3 (tag : NwHead) (force : Bool) (s : State) : Host.Outcome State Fault Refusal := sysRow (nwAsk (.setPowerStateA3 tag force)) s

/-- SET_POWER_STATE, A0 (R500). -/
def execSetPowerStateA0 (tag : NwHead) (s : State) : Host.Outcome State Fault Refusal := sysRow (nwAsk (.setPowerStateA0 tag)) s

/-- RESET (R523). -/
def execNwReset (tag : NwHead) (rung : Nat) (s : State) : Host.Outcome State Fault Refusal := sysRow (nwAsk (.nwReset tag rung)) s

/-- STACK_FAIL (R523). -/
def execStackFail (tag : NwHead) (stack : Nat) (s : State) : Host.Outcome State Fault Refusal := sysRow (nwAsk (.stackFail tag stack)) s

/-- RETURN_TO_SERVICE (R478). -/
def execReturnToService (tag : NwHead) (s : State) : Host.Outcome State Fault Refusal := sysRow (nwAsk (.returnToService tag)) s

/-- DEBUG_MODE (R481). -/
def execDebugMode (tag : NwHead) (on : Bool) (s : State) : Host.Outcome State Fault Refusal := sysRow (nwAsk (.debugMode tag on)) s

/-- JOB_CLEAR (R524). -/
def execJobClear (tag : NwHead) (partnerAgrees : Bool) (s : State) : Host.Outcome State Fault Refusal :=
  sysRow (nwAsk (.jobClear tag partnerAgrees)) s

/-- FLASH_WRITE (R523). -/
def execFlashWrite (tag : NwHead) (region offset : Nat) (data : List Byte) (s : State) : Host.Outcome State Fault Refusal :=
  sysRow (nwAsk (.flashWrite tag region offset data)) s

/-- FLASH_READ (R523). -/
def execFlashRead (tag : NwHead) (region offset length : Nat) (s : State) : Host.Outcome State Fault Refusal :=
  sysRow (nwAsk (.flashRead tag region offset length)) s

/-- IMAGE_VERIFY (R482). -/
def execImageVerify (tag : NwHead) (bank : Nat) (s : State) : Host.Outcome State Fault Refusal := sysRow (nwAsk (.imageVerify tag bank)) s

/-- ACTIVATE (R483). -/
def execActivate (tag : NwHead) (s : State) : Host.Outcome State Fault Refusal := sysRow (nwAsk (.activate tag)) s

/-- COMMIT (R483). -/
def execCommit (tag : NwHead) (s : State) : Host.Outcome State Fault Refusal := sysRow (nwAsk (.commit tag)) s

/-- OOS_RECORD (R523). -/
def execOosRecord (tag : NwHead) (s : State) : Host.Outcome State Fault Refusal := sysRow (nwAsk (.oosRecord tag)) s

/-- MCTP_CONTROL_MESSAGE (R519). -/
def execMctpControlMessage (c : MctpCommand) (s : State) : Host.Outcome State Fault Refusal := sysRow (nwAsk (.mctpControlMessage c)) s

/-- SPDM_REQUEST (R520). -/
def execSpdmRequest (r : SpdmRequest) (s : State) : Host.Outcome State Fault Refusal := sysRow (nwAsk (.spdmRequest r)) s

/-- PLDM_REQUEST (R521). -/
def execPldmRequest (r : PldmRequest) (s : State) : Host.Outcome State Fault Refusal := sysRow (nwAsk (.pldmRequest r)) s

/-- DYNAMIC_ADDRESS_ASSIGNMENT (R518). -/
def execDynamicAddressAssignment (addr : BitVec 7) (s : State) : Host.Outcome State Fault Refusal := sysRow (opDynAddr addr) s

end Sys2Proof.Machine
end

