-- ==== Sys2Proof/Machine/RowsUnits.lean ====
section
/-! DEFINITION. The rows of the stream units, of Meridian, and of the interaction blocks. -/

namespace Sys2Proof.Machine

/-! ## Streams (R279, R284, R296, R297, R313, R314) -/

/-- STREAM_RUN_START (R279). -/
def execStreamRunStart (slot : Nat) (s : State) : Host.Outcome State Fault Refusal := logicRow (startRun slot) s

/-- STREAM_REQUEST_DONE (R284). -/
def execStreamRequestDone (slot k : Nat) (s : State) : Host.Outcome State Fault Refusal := logicRow (opRequestDone slot k) s

/-- QUEUE_RESET (R297). -/
def execQueueReset (queue : Nat) (s : State) : Host.Outcome State Fault Refusal := logicRow (opQueueReset queue) s

/-- HANDLE_PUSH: a write of ST_Q_HANDLE_HI of the selected queue (R314). -/
def execHandlePush (value : Word) (s : State) : Host.Outcome State Fault Refusal := writeRow 0xE034 value s

/-- HANDLE_POP: a read of ST_Q_HANDLE_LO of the selected queue (R314). -/
def execHandlePop (s : State) : Host.Outcome State Fault Refusal :=
  ioRow (fun s =>
    let q := regRead .host 0xE030 s
    keepRead q.1 q.2) s

/-- ST_Q_CFG_WRITE, of the selected queue (R300, R313). -/
def execStQCfgWrite (value : Word) (s : State) : Host.Outcome State Fault Refusal := writeRow 0xE024 value s

/-! ## Meridian (R323 to R335) -/

/-- WALK_PROBE_DONE (R323). -/
def execWalkProbeDone (k : Nat) (s : State) : Host.Outcome State Fault Refusal := ioRow (onEng (walkProbe k)) s

/-- MT_INVAL_CMD (R326). -/
def execMtInvalCmd (value : Word) (s : State) : Host.Outcome State Fault Refusal := writeRow 0x5024 value s

/-- INVALIDATION_DONE (R326). -/
def execInvalidationDone (s : State) : Host.Outcome State Fault Refusal := ioRow (onEng opInvalidationDone) s

/-- MT_TABLE_CTRL_WRITE, of the selected table (R327). -/
def execMtTableCtrlWrite (value : Word) (s : State) : Host.Outcome State Fault Refusal := writeRow 0x500C value s

/-- FAULT_RETRY: MT_FAULT_RESOLVE with RETRY (R331). -/
def execFaultRetry (id : Nat) (gen : BitVec 8) (s : State) : Host.Outcome State Fault Refusal := ioRow (onEng (opFaultRetry id gen)) s

/-- FAULT_ABORT: MT_FAULT_RESOLVE with ABORT (R331). -/
def execFaultAbort (id : Nat) (gen : BitVec 8) (s : State) : Host.Outcome State Fault Refusal := ioRow (onEng (opFaultAbort id gen)) s

/-- SKY_FAULT_LIMIT (R335). -/
def execSkyFaultLimit (id : Nat) (s : State) : Host.Outcome State Fault Refusal := ioRow (onEng (opSkyFaultLimit id)) s

/-- SENDER_FAULT_WAIT_LIMIT (R335). -/
def execSenderFaultWaitLimit (cmdId : Nat) (s : State) : Host.Outcome State Fault Refusal := ioRow (onEng (opSenderFaultWaitLimit cmdId)) s

/-! ## Interaction (R225) -/

/-- TILE_CLOSE (R225). -/
def execTileClose (ring : Nat) (seq : Word) (bad : Nat) (s : State) : Host.Outcome State Fault Refusal := logicRow (opTileClose ring seq bad) s

/-- SHADOW_DRAIN_DONE (R225). -/
def execShadowDrainDone (die slot : Nat) (s : State) : Host.Outcome State Fault Refusal := logicRow (opShadowDrain die slot) s

end Sys2Proof.Machine
end

