-- ==== Sys2Proof/Machine/Dispatch.lean ====
section
/-! DEFINITION. One arm for each constructor of Instr: each arm calls the meaning of its command. -/

namespace Sys2Proof.Machine

def exec (i : Instr) (s : State) : Host.Outcome State Fault Refusal :=
  match i with
  | .nop ring d => Sys2Proof.Machine.execNop ring d s
  | .stepOpen ring d => Sys2Proof.Machine.execStepOpen ring d s
  | .stepClose ring d => Sys2Proof.Machine.execStepClose ring d s
  | .fence ring d => Sys2Proof.Machine.execFence ring d s
  | .lookupPool ring d => Sys2Proof.Machine.execLookupPool ring d s
  | .lookupRows ring d => Sys2Proof.Machine.execLookupRows ring d s
  | .updateGrad ring d => Sys2Proof.Machine.execUpdateGrad ring d s
  | .rowWrite ring d => Sys2Proof.Machine.execRowWrite ring d s
  | .hotSetLoad ring d => Sys2Proof.Machine.execHotSetLoad ring d s
  | .thatchRefresh ring d => Sys2Proof.Machine.execThatchRefresh ring d s
  | .migrateRows ring d => Sys2Proof.Machine.execMigrateRows ring d s
  | .tableReplace ring d => Sys2Proof.Machine.execTableReplace ring d s
  | .tableRemap ring d => Sys2Proof.Machine.execTableRemap ring d s
  | .streamArm ring d => Sys2Proof.Machine.execStreamArm ring d s
  | .streamResume ring d => Sys2Proof.Machine.execStreamResume ring d s
  | .streamCancel ring d => Sys2Proof.Machine.execStreamCancel ring d s
  | .bufSwap ring d => Sys2Proof.Machine.execBufSwap ring d s
  | .shingleWrite ring d => Sys2Proof.Machine.execShingleWrite ring d s
  | .shingleRead ring d => Sys2Proof.Machine.execShingleRead ring d s
  | .atomic ring d => Sys2Proof.Machine.execAtomic ring d s
  | .interact ring d => Sys2Proof.Machine.execInteract ring d s
  | .topk ring d => Sys2Proof.Machine.execTopk ring d s
  | .dispatch ring d => Sys2Proof.Machine.execDispatch ring d s
  | .combine ring d => Sys2Proof.Machine.execCombine ring d s
  | .configStage ring d => Sys2Proof.Machine.execConfigStage ring d s
  | .configDiscard ring d => Sys2Proof.Machine.execConfigDiscard ring d s
  | .configActivate ring d => Sys2Proof.Machine.execConfigActivate ring d s
  | .acceptCommand ring => Sys2Proof.Machine.execAcceptCommand ring s
  | .journalDone ring => Sys2Proof.Machine.execJournalDone ring s
  | .submissionDoorbell ring value => Sys2Proof.Machine.execSubmissionDoorbell ring value s
  | .completionDoorbell ring value => Sys2Proof.Machine.execCompletionDoorbell ring value s
  | .eventDoorbell value => Sys2Proof.Machine.execEventDoorbell value s
  | .heartbeat => Sys2Proof.Machine.execHeartbeat s
  | .mailboxDoorbell => Sys2Proof.Machine.execMailboxDoorbell s
  | .hello tag => Sys2Proof.Machine.execHello tag s
  | .attach tag heartbeatMs => Sys2Proof.Machine.execAttach tag heartbeatMs s
  | .detachDrain tag drainMs => Sys2Proof.Machine.execDetachDrain tag drainMs s
  | .detachAbandon tag => Sys2Proof.Machine.execDetachAbandon tag s
  | .drainComplete => Sys2Proof.Machine.execDrainComplete s
  | .drainTimeout => Sys2Proof.Machine.execDrainTimeout s
  | .heartbeatTimeout => Sys2Proof.Machine.execHeartbeatTimeout s
  | .hostLinkModuleFail modules => Sys2Proof.Machine.execHostLinkModuleFail modules s
  | .hostWriteAck k => Sys2Proof.Machine.execHostWriteAck k s
  | .hostReadData addr data => Sys2Proof.Machine.execHostReadData addr data s
  | .commandComplete ring seq => Sys2Proof.Machine.execCommandComplete ring seq s
  | .irqModerationTimeout ring => Sys2Proof.Machine.execIrqModerationTimeout ring s
  | .hlRingCfgWrite value => Sys2Proof.Machine.execHlRingCfgWrite value s
  | .hlIrqCtrlWrite value => Sys2Proof.Machine.execHlIrqCtrlWrite value s
  | .registerWrite offset value => Sys2Proof.Machine.execRegisterWrite offset value s
  | .counterReadLo path offset => Sys2Proof.Machine.execCounterReadLo path offset s
  | .counterClear path offset => Sys2Proof.Machine.execCounterClear path offset s
  | .index h b => Sys2Proof.Machine.execIndex h b s
  | .gatherReadComplete k bad residue => Sys2Proof.Machine.execGatherReadComplete k bad residue s
  | .result h b => Sys2Proof.Machine.execResult h b s
  | .record h es => Sys2Proof.Machine.execRecord h es s
  | .recordAck h b => Sys2Proof.Machine.execRecordAck h b s
  | .fencePacket h b => Sys2Proof.Machine.execFencePacket h b s
  | .stepCloseBegin => Sys2Proof.Machine.execStepCloseBegin s
  | .restep h table round => Sys2Proof.Machine.execRestep h table round s
  | .drainEpochAdvance => Sys2Proof.Machine.execDrainEpochAdvance s
  | .skyWrite h b => Sys2Proof.Machine.execSkyWrite h b s
  | .skyRead h b => Sys2Proof.Machine.execSkyRead h b s
  | .skyData h b => Sys2Proof.Machine.execSkyData h b s
  | .skyWriteAck h cmdId => Sys2Proof.Machine.execSkyWriteAck h cmdId s
  | .faultPending h cmdId faultId => Sys2Proof.Machine.execFaultPending h cmdId faultId s
  | .skyResume h cmdId => Sys2Proof.Machine.execSkyResume h cmdId s
  | .aborted h cmdId => Sys2Proof.Machine.execAborted h cmdId s
  | .denied h cmdId reason => Sys2Proof.Machine.execDenied h cmdId reason s
  | .sync h => Sys2Proof.Machine.execSync h s
  | .syncAck h => Sys2Proof.Machine.execSyncAck h s
  | .stale h => Sys2Proof.Machine.execStale h s
  | .redirect h => Sys2Proof.Machine.execRedirect h s
  | .hold h => Sys2Proof.Machine.execHold h s
  | .epochReject h epoch cls cmdId => Sys2Proof.Machine.execEpochReject h epoch cls cmdId s
  | .ack h => Sys2Proof.Machine.execAck h s
  | .beacon h b => Sys2Proof.Machine.execBeacon h b s
  | .ethernetFrameRx link frame => Sys2Proof.Machine.execEthernetFrameRx link frame s
  | .linkFrameRx link frame => Sys2Proof.Machine.execLinkFrameRx link frame s
  | .linkNak link linkSeq => Sys2Proof.Machine.execLinkNak link linkSeq s
  | .retransmitTimeout peer => Sys2Proof.Machine.execRetransmitTimeout peer s
  | .ackDelayTimeout peer => Sys2Proof.Machine.execAckDelayTimeout peer s
  | .replyTimeout req => Sys2Proof.Machine.execReplyTimeout req s
  | .holdTimer peer step => Sys2Proof.Machine.execHoldTimer peer step s
  | .beaconTimer => Sys2Proof.Machine.execBeaconTimer s
  | .linkChange link up => Sys2Proof.Machine.execLinkChange link up s
  | .fbPortCfgWrite value => Sys2Proof.Machine.execFbPortCfgWrite value s
  | .journal b => Sys2Proof.Machine.execJournal b s
  | .journalAck ring seq => Sys2Proof.Machine.execJournalAck ring seq s
  | .forward items => Sys2Proof.Machine.execForward items s
  | .forwardAck keys => Sys2Proof.Machine.execForwardAck keys s
  | .repair r => Sys2Proof.Machine.execRepair r s
  | .repairReply r d => Sys2Proof.Machine.execRepairReply r d s
  | .status b => Sys2Proof.Machine.execStatus b s
  | .ridgeHeartbeatTimer => Sys2Proof.Machine.execRidgeHeartbeatTimer s
  | .ridgeLinkSilence => Sys2Proof.Machine.execRidgeLinkSilence s
  | .ridgeAliveLost => Sys2Proof.Machine.execRidgeAliveLost s
  | .verdictWaitTimeout => Sys2Proof.Machine.execVerdictWaitTimeout s
  | .ridgeAliveRelease => Sys2Proof.Machine.execRidgeAliveRelease s
  | .join b => Sys2Proof.Machine.execJoin b s
  | .resilverCopy b => Sys2Proof.Machine.execResilverCopy b s
  | .resilverPassDone => Sys2Proof.Machine.execResilverPassDone s
  | .cutover b => Sys2Proof.Machine.execCutover b s
  | .standDown => Sys2Proof.Machine.execStandDown s
  | .streamRunStart slot => Sys2Proof.Machine.execStreamRunStart slot s
  | .streamRequestDone slot k => Sys2Proof.Machine.execStreamRequestDone slot k s
  | .queueReset queue => Sys2Proof.Machine.execQueueReset queue s
  | .handlePush value => Sys2Proof.Machine.execHandlePush value s
  | .handlePop => Sys2Proof.Machine.execHandlePop s
  | .stQCfgWrite value => Sys2Proof.Machine.execStQCfgWrite value s
  | .walkProbeDone k => Sys2Proof.Machine.execWalkProbeDone k s
  | .mtInvalCmd value => Sys2Proof.Machine.execMtInvalCmd value s
  | .invalidationDone => Sys2Proof.Machine.execInvalidationDone s
  | .mtTableCtrlWrite value => Sys2Proof.Machine.execMtTableCtrlWrite value s
  | .faultRetry id gen => Sys2Proof.Machine.execFaultRetry id gen s
  | .faultAbort id gen => Sys2Proof.Machine.execFaultAbort id gen s
  | .skyFaultLimit id => Sys2Proof.Machine.execSkyFaultLimit id s
  | .senderFaultWaitLimit cmdId => Sys2Proof.Machine.execSenderFaultWaitLimit cmdId s
  | .dormerRead x size => Sys2Proof.Machine.execDormerRead x size s
  | .dormerWrite x data => Sys2Proof.Machine.execDormerWrite x data s
  | .tileClose ring seq bad => Sys2Proof.Machine.execTileClose ring seq bad s
  | .shadowDrainDone die slot => Sys2Proof.Machine.execShadowDrainDone die slot s
  | .stackTempSample temps => Sys2Proof.Machine.execStackTempSample temps s
  | .burstParityError stack channel write struck => Sys2Proof.Machine.execBurstParityError stack channel write struck s
  | .thermalSample kind temps => Sys2Proof.Machine.execThermalSample kind temps s
  | .cautionStepTimer => Sys2Proof.Machine.execCautionStepTimer s
  | .currentClamp kind die => Sys2Proof.Machine.execCurrentClamp kind die s
  | .currentClampRelease kind die => Sys2Proof.Machine.execCurrentClampRelease kind die s
  | .powerCapTick watts fraction => Sys2Proof.Machine.execPowerCapTick watts fraction s
  | .duskIdleTimeout die => Sys2Proof.Machine.execDuskIdleTimeout die s
  | .duskWake die => Sys2Proof.Machine.execDuskWake die s
  | .refClockLost r => Sys2Proof.Machine.execRefClockLost r s
  | .refClockReturn r => Sys2Proof.Machine.execRefClockReturn r s
  | .resetNAssert => Sys2Proof.Machine.execResetNAssert s
  | .pwrGoodFall => Sys2Proof.Machine.execPwrGoodFall s
  | .coldReset => Sys2Proof.Machine.execColdReset s
  | .coreWatchdogExpiry core => Sys2Proof.Machine.execCoreWatchdogExpiry core s
  | .coreProtectionFault core => Sys2Proof.Machine.execCoreProtectionFault core s
  | .coreRestart core runs => Sys2Proof.Machine.execCoreRestart core runs s
  | .controlParity d => Sys2Proof.Machine.execControlParity d s
  | .hang d => Sys2Proof.Machine.execHang d s
  | .quarantineEnd d => Sys2Proof.Machine.execQuarantineEnd d s
  | .engineReset => Sys2Proof.Machine.execEngineReset s
  | .warmReset => Sys2Proof.Machine.execWarmReset s
  | .ladderTimeout => Sys2Proof.Machine.execLadderTimeout s
  | .activationHoldoffExpiry => Sys2Proof.Machine.execActivationHoldoffExpiry s
  | .nwHello tag => Sys2Proof.Machine.execNwHello tag s
  | .regRead tag offset count => Sys2Proof.Machine.execRegRead tag offset count s
  | .regWrite tag offset value => Sys2Proof.Machine.execRegWrite tag offset value s
  | .jobCounters tag => Sys2Proof.Machine.execJobCounters tag s
  | .countersClear tag scope => Sys2Proof.Machine.execCountersClear tag scope s
  | .eventRead tag count => Sys2Proof.Machine.execEventRead tag count s
  | .lodestar tag => Sys2Proof.Machine.execLodestar tag s
  | .nwStatus tag => Sys2Proof.Machine.execNwStatus tag s
  | .setPowerCap tag watts window => Sys2Proof.Machine.execSetPowerCap tag watts window s
  | .setPowerStateA2 tag force => Sys2Proof.Machine.execSetPowerStateA2 tag force s
  | .setPowerStateA3 tag force => Sys2Proof.Machine.execSetPowerStateA3 tag force s
  | .setPowerStateA0 tag => Sys2Proof.Machine.execSetPowerStateA0 tag s
  | .nwReset tag rung => Sys2Proof.Machine.execNwReset tag rung s
  | .stackFail tag stack => Sys2Proof.Machine.execStackFail tag stack s
  | .returnToService tag => Sys2Proof.Machine.execReturnToService tag s
  | .debugMode tag on => Sys2Proof.Machine.execDebugMode tag on s
  | .jobClear tag partnerAgrees => Sys2Proof.Machine.execJobClear tag partnerAgrees s
  | .flashWrite tag region offset data => Sys2Proof.Machine.execFlashWrite tag region offset data s
  | .flashRead tag region offset length => Sys2Proof.Machine.execFlashRead tag region offset length s
  | .imageVerify tag bank => Sys2Proof.Machine.execImageVerify tag bank s
  | .activate tag => Sys2Proof.Machine.execActivate tag s
  | .commit tag => Sys2Proof.Machine.execCommit tag s
  | .oosRecord tag => Sys2Proof.Machine.execOosRecord tag s
  | .mctpControlMessage c => Sys2Proof.Machine.execMctpControlMessage c s
  | .spdmRequest r => Sys2Proof.Machine.execSpdmRequest r s
  | .pldmRequest r => Sys2Proof.Machine.execPldmRequest r s
  | .dynamicAddressAssignment addr => Sys2Proof.Machine.execDynamicAddressAssignment addr s
  | .catastrophicTemperature stack => Sys2Proof.Machine.execCatastrophicTemperature stack s
  | .refreshManagementRequest stack => Sys2Proof.Machine.execRefreshManagementRequest stack s
  | .powerOn => Sys2Proof.Machine.execPowerOn s
  | .hostLinkReset => Sys2Proof.Machine.execHostLinkReset s
  | .recordResend peer => Sys2Proof.Machine.execRecordResend peer s
  | .verdictDeferralExpiry => Sys2Proof.Machine.execVerdictDeferralExpiry s

end Sys2Proof.Machine
end

