-- ==== Sys2Proof/Safety.lean ====
section
/-! DEFINITION. Safe runs: the accesses whose behaviour the spec calls undefined, the states in which nothing waits for its turn,
and the bounds every state keeps. -/

namespace Sys2Proof.Machine

/-! ## Undefined accesses -/

/-- A store through the dormer window whose behaviour the spec leaves undefined (R58, R338). -/
def undefinedStore (x : Nat) (data : List Byte) (s : State) : Option Fault :=
  if !windowOk x data.length then some .windowAccessUndefined
  else if windowForbidden s.eng x data.length then some .indirectSlotWriteUndefined
  else none

/-- A command whose behaviour the spec leaves undefined in a state, by the fault it ends in (R58, R338, R346). -/
def undefinedAccess (i : Instr) (s : State) : Option Fault :=
  match i with
  | .registerWrite off v =>
    if off % 4 ≠ 0 ∧ alignedOnly off then some .registerAccessUndefined
    else if 0x10000000 ≤ off ∧ off < 0x20000000 then undefinedStore (off - 0x10000000) (leBytes 4 v.toNat) s
    else none
  | .counterReadLo .host off =>
    if off % 4 ≠ 0 ∧ alignedOnly off then some .registerAccessUndefined
    else if 0x10000000 ≤ off ∧ off < 0x20000000 ∧ windowOk (off - 0x10000000) 4 = false then some .windowAccessUndefined
    else none
  | .counterReadLo .nightwatch off => if off % 4 ≠ 0 then some .registerAccessUndefined else none
  | .counterClear _ off => if off % 4 ≠ 0 then some .registerAccessUndefined else none
  | .dormerRead x n => if windowOk x n then none else some .windowAccessUndefined
  | .dormerWrite x d => undefinedStore x d s
  | _ => none

/-- A command is safe in a state: it does not reach behaviour the spec leaves undefined. -/
def Safe (i : Instr) (s : State) : Prop := undefinedAccess i s = none

/-! ## Kinds of command -/

/-- Host commands: ring, descriptor, and the opcode R358 gives the command. -/
def hostCommand (i : Instr) : Option (Nat × Desc × Nat) :=
  match i with
  | .nop r d => some (r, d, 0x00)
  | .stepOpen r d => some (r, d, 0x01)
  | .stepClose r d => some (r, d, 0x02)
  | .fence r d => some (r, d, 0x03)
  | .lookupPool r d => some (r, d, 0x10)
  | .lookupRows r d => some (r, d, 0x11)
  | .updateGrad r d => some (r, d, 0x18)
  | .rowWrite r d => some (r, d, 0x19)
  | .hotSetLoad r d => some (r, d, 0x20)
  | .thatchRefresh r d => some (r, d, 0x21)
  | .migrateRows r d => some (r, d, 0x22)
  | .tableReplace r d => some (r, d, 0x23)
  | .tableRemap r d => some (r, d, 0x24)
  | .streamArm r d => some (r, d, 0x30)
  | .streamResume r d => some (r, d, 0x30)
  | .streamCancel r d => some (r, d, 0x30)
  | .bufSwap r d => some (r, d, 0x31)
  | .shingleWrite r d => some (r, d, 0x32)
  | .shingleRead r d => some (r, d, 0x33)
  | .atomic r d => some (r, d, 0x34)
  | .interact r d => some (r, d, 0x40)
  | .topk r d => some (r, d, 0x41)
  | .dispatch r d => some (r, d, 0x42)
  | .combine r d => some (r, d, 0x43)
  | .configStage r d => some (r, d, 0x50)
  | .configDiscard r d => some (r, d, 0x50)
  | .configActivate r d => some (r, d, 0x51)
  | _ => none

/-- The seq of a descriptor follows the last one accepted from its ring (R357). -/
def seqFollows (e : Eng) (r : Nat) (d : Desc) : Bool := BitVec.ofNat 32 (num d 4 4) == (ring e r).lastSeq + 1

/-- Packets delivered, by their class (R404). -/
def packetOf (i : Instr) : Option (PktHdr × Body) :=
  match i with
  | .index h b => some (h, .index b)
  | .result h b => some (h, .result b)
  | .record h es => some (h, .record es)
  | .recordAck h b => some (h, .recordAck b)
  | .fencePacket h b => some (h, .fence b)
  | .restep h t r => some (h, .restep t r)
  | .skyWrite h b => some (h, .skyWrite b)
  | .skyRead h b => some (h, .skyRead b)
  | .skyData h b => some (h, .skyData b)
  | .skyWriteAck h c => some (h, .skyWriteAck c)
  | .faultPending h c f => some (h, .faultPending c f)
  | .skyResume h c => some (h, .skyResume c)
  | .aborted h c => some (h, .aborted c)
  | .denied h c r => some (h, .denied c r)
  | .sync h => some (h, .sync)
  | .syncAck h => some (h, .syncAck)
  | .stale h => some (h, .stale)
  | .redirect h => some (h, .redirect)
  | .hold h => some (h, .hold)
  | .epochReject h e c k => some (h, .epochReject e c k)
  | .ack h => some (h, .ack)
  | .beacon h b => some (h, .beacon b)
  | _ => none

/-- The engine once a packet's header and its place in its session have taken effect (R407, R408). -/
def received (h : PktHdr) (b : Body) (e : Eng) : Eng := takeDelivery h b (if headed h b then takeHdr h e else e)

/-- Nothing turns a received packet away: the member serves requests (R434) and hears fences (R442), its logic runs for traffic of the job, and the
packet's step has a configuration with members (R416) whose epoch the policy accepts (R422). -/
def packetServed (h : PktHdr) (b : Body) (e : Eng) : Bool :=
  !(needsCredit b && (e.rg.state == .down || e.rg.state == .joining)) && !(bodyCls b == 5 && e.rg.state == .down) && !(jobBody b && e.stopped) &&
    !(epochChecked b && noMembers e h.step) && (checkEpoch h b e).2

/-- Commands that are the write of one register, with its aperture offset and the value written (R313, R326, R331, R340, R392, R426,
R459, R537). -/
def registerRow (i : Instr) : Option (Nat × Word) :=
  match i with
  | .hlRingCfgWrite v => some (0x1024, v)
  | .hlIrqCtrlWrite v => some (0x1054, v)
  | .mtTableCtrlWrite v => some (0x500C, v)
  | .mtInvalCmd v => some (0x5024, v)
  | .stQCfgWrite v => some (0xE024, v)
  | .handlePush v => some (0xE034, v)
  | .fbPortCfgWrite v => some (0xF00C, v)
  | .standDown => some (0x11004, 1)
  | _ => none

/-- Requests on the Nightwatch port that are answered in arrival order (R519 to R523). -/
def nightwatchRow (i : Instr) : Bool :=
  match i with
  | .nwHello _ | .regRead _ _ _ | .regWrite _ _ _ | .jobCounters _ | .countersClear _ _ | .eventRead _ _ | .lodestar _ | .nwStatus _
  | .setPowerCap _ _ _ | .setPowerStateA2 _ _ | .setPowerStateA3 _ _ | .setPowerStateA0 _ | .nwReset _ _ | .stackFail _ _
  | .returnToService _ | .debugMode _ _ | .jobClear _ _ | .flashWrite _ _ _ _ | .flashRead _ _ _ _ | .imageVerify _ _ | .activate _
  | .commit _ | .oosRecord _ | .mctpControlMessage _ | .spdmRequest _ | .pldmRequest _ => true
  | _ => false

/-- What the board, the sensors and the always-on domain do: the operation of each of their commands (chapters 14 and 15). -/
def boardRow (i : Instr) : Option (State → State) :=
  match i with
  | .stackTempSample t => some (opStackTemp t)
  | .burstParityError k c w x => some (opBurstParity k c w x)
  | .thermalSample k t => some (opThermalSample k t)
  | .cautionStepTimer => some opCautionStep
  | .currentClamp k d => some (opClamp k d)
  | .currentClampRelease k d => some (opClampRelease k d)
  | .powerCapTick w f => some (opCapTick w f)
  | .duskIdleTimeout d => some (opDusk d)
  | .duskWake d => some (opDuskWake d)
  | .refClockLost r => some (opRefLost r)
  | .refClockReturn r => some (opRefReturn r)
  | .resetNAssert => some opResetPin
  | .pwrGoodFall => some opPowerFall
  | .coldReset => some (opReset 4)
  | .coreWatchdogExpiry c => some (opWatchdog c)
  | .coreProtectionFault c => some (opProtection c)
  | .coreRestart c r => some (opCoreRestart c r)
  | .controlParity d => some (askUnit d Reason.controlParity)
  | .hang d => some (askUnit d Reason.hang)
  | .quarantineEnd d => some (opQuarantineEnd d)
  | .engineReset => some (opReset 2)
  | .warmReset => some (opReset 3)
  | .ladderTimeout => some opLadder
  | .activationHoldoffExpiry => some opHoldoff
  | .dynamicAddressAssignment a => some (opDynAddr a)
  | .catastrophicTemperature k => some (opCatastrophic k)
  | .powerOn => some opPowerOn
  | _ => none

/-- What the logic of the dies does on its own turn, and what an engine reset therefore stops (R472). -/
def logicRowOf (i : Instr) : Option (Eng → Eng) :=
  match i with
  | .journalDone r => some (opJournalDone r)
  | .recordResend p => some (opRecordResend p)
  | .gatherReadComplete k b r => some (opGatherDone k b r)
  | .stepCloseBegin => some opStepCloseBegin
  | .drainEpochAdvance => some advanceOnce
  | .resilverPassDone => some opPassDone
  | .verdictWaitTimeout => some opVerdictWait
  | .verdictDeferralExpiry => some opDeferralExpiry
  | .streamRunStart n => some (startRun n)
  | .streamRequestDone n k => some (opRequestDone n k)
  | .queueReset q => some (opQueueReset q)
  | .tileClose r q b => some (opTileClose r q b)
  | .shadowDrainDone d n => some (opShadowDrain d n)
  | .refreshManagementRequest k => some (opRefreshMgmt k)
  | _ => none

/-- Packets on the ridge link (R432): what each does to the data path, and whether the logic of the dies does it. -/
def ridgeOf (i : Instr) : Option (Bool × (Eng → Eng)) :=
  match i with
  | .journal b => some (true, opJournal b)
  | .journalAck r q => some (true, opJournalAck r q)
  | .forward l => some (true, opForward l)
  | .forwardAck l => some (true, opForwardAck l)
  | .repair r => some (true, opRepair r)
  | .repairReply r d => some (true, opRepairReply r d)
  | .status b => some (false, opStatus b)
  | .join b => some (false, opJoin b)
  | .resilverCopy b => some (true, opResilverCopy b)
  | .cutover b => some (true, opCutover b)
  | _ => none

/-- What the I/O die does to the data path on a doorbell, a link event or a timer (chapters 10 to 13). -/
def ioOf (i : Instr) : Option (Eng → Eng) :=
  match i with
  | .acceptCommand r => some (opAccept r)
  | .commandComplete r q => some (opCommandComplete r q)
  | .submissionDoorbell r v => some (opSubDoorbell r v)
  | .completionDoorbell r v => some (opCompDoorbell r v)
  | .eventDoorbell v => some (opEventDoorbell v)
  | .heartbeat => some opHeartbeat
  | .drainComplete => some opDrainComplete
  | .drainTimeout => some opDrainTimeout
  | .heartbeatTimeout => some opHeartbeatTimeout
  | .hostLinkModuleFail n => some (opModuleFail n)
  | .hostLinkReset => some (hostLoss 3)
  | .hostWriteAck k => some (opHostWriteAck k)
  | .irqModerationTimeout r => some (opModeration r)
  | .linkNak l q => some (opNakRow l q)
  | .retransmitTimeout p => some (opRetransmit p)
  | .ackDelayTimeout p => some (opAckDelay p)
  | .replyTimeout r => some (opReplyTimeout r)
  | .holdTimer p t => some (opHoldTimer p t)
  | .beaconTimer => some sendBeacons
  | .ridgeHeartbeatTimer => some opRidgeBeat
  | .ridgeLinkSilence => some opLinkSilence
  | .ridgeAliveLost => some opAliveLost
  | .ridgeAliveRelease => some opAliveRelease
  | .walkProbeDone k => some (walkProbe k)
  | .invalidationDone => some opInvalidationDone
  | .faultRetry n g => some (opFaultRetry n g)
  | .faultAbort n g => some (opFaultAbort n g)
  | .skyFaultLimit n => some (opSkyFaultLimit n)
  | .senderFaultWaitLimit c => some (opSenderFaultWaitLimit c)
  | _ => none

/-! ## What a command leaves alone -/

/-- The engine's work is the same: tables, steps, set-up, scale slots, streams, accumulators, fabric, configurations, pair and
translation. -/
def SameWork (a b : Eng) : Prop :=
  b.store = a.store ∧ b.steps = a.steps ∧ b.setup = a.setup ∧ b.qu = a.qu ∧ b.st = a.st ∧ b.ix = a.ix ∧ b.fb = a.fb ∧ b.ls = a.ls ∧
    b.rg = a.rg ∧ b.mt = a.mt

/-- Everything outside the data path is the same. -/
def SameBoard (s t : State) : Prop := t.pending = s.pending ∧ t.pw = s.pw ∧ t.fw = s.fw ∧ t.nw = s.nw

/-- The doorbell of ring `k`, 0 to 128 (R354). -/
def doorbell (k : Nat) (v : Word) : Instr :=
  if k < 64 then .submissionDoorbell k v else if k < 128 then .completionDoorbell (k - 64) v else .eventDoorbell v

/-- The index of a ring that its doorbell carries: the producer index of a submission ring, the consumer index of the others (R352). -/
def doorbellIndex (k : Nat) (q : Ring) : Word := if k < 64 then q.prod else q.cons

/-- Latch a doorbell's index. -/
def latchIndex (k : Nat) (v : Word) (q : Ring) : Ring := if k < 64 then { q with prod := v } else { q with cons := v }

/-- No counter is near its end, so nothing counted here saturates one. -/
def farFromFull (e : Eng) : Prop := ∀ slot, (Tab.get {} e.ctr slot).value + 2 ^ 32 < 2 ^ 64

/-- Slots that raising an event can itself count in. -/
def noteSlots : List Nat := [Ctr.hlEvents, Ctr.hlEventsLost, Ctr.hlBytesOut, Ctr.ctJobHostBytes, Ctr.nwEventsLost]

/-! ## States in which nothing waits for its turn -/

/-- Nothing on the data path goes on by itself: no waiter has its turn, no close is in progress, no fence waits to go out, and no
stream slot is in use. -/
def calmEng (e : Eng) : Bool :=
  e.stopped ||
    (e.mt.notices.isEmpty && e.mt.resume.isEmpty && !e.hl.cmds.any (fun c => c.work == .blocked) && !e.hl.cmds.any (·.retry) && e.steps.closing.isNone &&
      e.steps.fencePending.isEmpty && e.steps.roundFences.isEmpty && !e.rg.standDown && e.st.slots.isEmpty && e.st.swaps.isEmpty)

/-- Nothing in the whole engine goes on by itself. -/
def calm (s : State) : Bool :=
  calmEng s.eng && s.pw.goal.isNone && s.fw.eventDue.isNone && !s.fw.actPending && s.nw.held.isEmpty && !s.eng.hl.mbHeld &&
    (s.eng.stopped || s.fw.resetRung != 0 || s.fw.commitBuild == s.eng.build)

/-! ## What every state keeps -/

/-- Bounds of the always-on state: power states 0, 2 and 3 (R497); no rung, or one of R471; levels and steps of R503 and R507;
at most four held requests (R522); the two banks (R482); the flash in canonical form. -/
structure LegalParts (pw : Power) (fw : Firmware) (nw : Nightwatch) : Prop where
  state : pw.state = 0 ∨ pw.state = 2 ∨ pw.state = 3
  goal : ∀ g, pw.goal = some g → g.1 = 2 ∨ g.1 = 3
  rung : fw.resetRung = 0 ∨ fw.resetRung = 2 ∨ fw.resetRung = 3 ∨ fw.resetRung = 4
  level : pw.level ≤ 2
  arith : pw.arithStep ≤ 2
  cap : 1 ≤ pw.capIssue ∧ pw.capIssue ≤ 16
  issue : ∀ p ∈ pw.issue, 8 ≤ p.2 ∧ p.2 ≤ 16
  held : nw.held.length ≤ 4
  bank : fw.bank ≤ 1
  active : fw.activeBank ≤ 1
  flash : Memory.wf 0xFF fw.flash = true

/-- The whole state keeps its bounds. -/
def Legal (s : State) : Prop := LegalParts s.pw s.fw s.nw

end Sys2Proof.Machine
end

