-- ==== Sys2Proof/WellFormed.lean ====
section
/-! DEFINITION. Which commands are well formed: every operand lies in the field its rule gives it. A command that is not names
something no sender can say; the machine is total on it all the same. -/

namespace Sys2Proof

/-- A descriptor is one entry of 64 bytes and up to four continuation entries (R302, R304, R356). -/
def descOk (d : Desc) : Bool := [64, 128, 192, 256, 320].contains d.length

/-- A submission ring (R351). -/
def subRing (r : Nat) : Bool := decide (r < 64)

/-- A completion ring or the event ring (R351). -/
def writtenRing (r : Nat) : Bool := decide (64 ≤ r ∧ r ≤ 128)

/-- A number of `n` bits. -/
def fits (n v : Nat) : Bool := decide (v < 2 ^ n)

/-- A byte of the two apertures; one of a register is the first of its four (R346, R350). -/
def apertureOk (off : Nat) : Bool := fits 29 off && (off % 4 == 0 || !fits 24 off)

/-- Node IDs are 20 bits and steps 48 bits (R402). -/
def hdrOk (h : PktHdr) : Bool := fits 20 h.src && fits 20 h.dst && fits 48 h.step

/-- A position of an index batch: row 40 bits, bag and position 32 bits (R405). -/
def idxOk (e : IdxEntry) : Bool := fits 40 e.row && fits 32 e.bag && fits 32 e.pos

/-- An INDEX batch (R405). -/
def indexOk (b : IndexBody) : Bool := fits 16 b.table && fits 16 b.shard && decide (b.kind < 4) && b.entries.all idxOk

/-- A RESULT packet (R405). -/
def resultOk (b : ResultBody) : Bool := fits 16 b.table && fits 16 b.shard && decide (b.form < 3) && b.items.all (fun i => fits 32 i.bag)

/-- A record entry (R148, R405). -/
def entryOk (e : Entry) : Bool :=
  fits 16 e.table && fits 8 e.kind && fits 8 e.round && fits 32 e.srcSeq && fits 40 e.row && fits 24 e.srcNode

/-- A RECORD_ACK packet (R439): each range ends at or after its start. -/
def recordAckOk (b : RecordAckBody) : Bool := fits 48 b.step && fits 8 b.round && b.ranges.all (fun r => decide (r.1 ≤ r.2))

/-- A FENCE packet carries at most 1,020 tables (R405). -/
def fenceOk (b : FenceBody) : Bool := fits 8 b.round && decide (b.tables.length ≤ 1020) && b.tables.all (fun t => fits 16 t.1)

/-- A beacon (R421). -/
def beaconOk (b : BeaconBody) : Bool := fits 20 b.node && fits 48 b.pendStep

/-- A JOURNAL packet (R437). -/
def journalOk (b : JournalBody) : Bool := fits 20 b.node && subRing b.ring && descOk b.desc && fits 48 b.step

/-- A repair request: versions are 8 bits, and 256 stands for none (R98, R126). -/
def repairOk (r : RepairReq) : Bool := fits 16 r.table && fits 40 r.row && fits 48 r.step && decide (r.version ≤ 256)

/-- Parts of a kind in the largest variant (R2). -/
def maxParts (p : Part) : Nat :=
  match p with
  | .compute => Variant.e24.computeDies
  | .memory => Variant.e24.msDies
  | .io => 1
  | .stack => Variant.e24.stackCount

/-- Where a data error is found: attempts count from 1, rows are 34 bits. -/
def wfStruck : Struck → Bool
  | .burst n _ => decide (0 < n)
  | .lane => true
  | .site => true
  | .staged t row => fits 16 t && fits 34 row
  | .token r _ t => subRing r && fits 32 t

/-- A tag is 16 bits (R379). -/
def tagOk (tag : Nat) : Bool := fits 16 tag

/-- The header of a Nightwatch request: its reserved bits are those of flags, seven bytes and a body's two. -/
def nwHeadOk (h : NwHead) : Bool := tagOk h.tag && fits 79 h.reserved

/-- The operands of a command lie in their fields. -/
def Instr.wf (i : Instr) : Bool :=
  match i with
  | .nop r d | .stepOpen r d | .stepClose r d | .fence r d | .lookupPool r d | .lookupRows r d | .updateGrad r d | .rowWrite r d
  | .hotSetLoad r d | .thatchRefresh r d | .migrateRows r d | .tableReplace r d | .tableRemap r d | .streamArm r d
  | .streamResume r d | .streamCancel r d | .bufSwap r d | .shingleWrite r d | .shingleRead r d | .atomic r d | .interact r d
  | .topk r d | .dispatch r d | .combine r d | .configStage r d | .configDiscard r d | .configActivate r d =>
    subRing r && descOk d
  | .acceptCommand r | .journalDone r | .commandComplete r _ | .journalAck r _ | .tileClose r _ _ => subRing r
  | .submissionDoorbell r _ | .completionDoorbell r _ => subRing r
  | .irqModerationTimeout r => writtenRing r
  | .hello tag => tagOk tag
  | .attach tag ms => tagOk tag && fits 16 ms
  | .detachDrain tag ms => tagOk tag && fits 32 ms
  | .detachAbandon tag => tagOk tag
  | .hostLinkModuleFail n => decide (n ≤ 8)
  | .hostReadData a d => decide (a + d.length ≤ 2 ^ 52)
  | .registerWrite off _ | .counterReadLo .host off => apertureOk off
  | .counterReadLo .nightwatch off | .counterClear _ off => off % 4 == 0 && fits 24 off
  | .index h b => hdrOk h && indexOk b
  | .result h b => hdrOk h && resultOk b
  | .record h es => hdrOk h && es.all entryOk
  | .recordAck h b => hdrOk h && recordAckOk b
  | .fencePacket h b => hdrOk h && fenceOk b
  | .restep h t r => hdrOk h && fits 16 t && fits 8 r
  | .skyWrite h b => hdrOk h && decide (b.offset + b.data.length ≤ 2 ^ 64)
  | .skyRead h b => hdrOk h && decide (b.offset + b.length ≤ 2 ^ 64)
  | .skyData h b => hdrOk h && decide (b.offset + b.data.length ≤ 2 ^ 64)
  | .skyWriteAck h c | .skyResume h c | .aborted h c => hdrOk h && fits 32 c
  | .faultPending h c f => hdrOk h && fits 32 c && fits 5 f
  | .denied h c r => hdrOk h && fits 32 c && fits 8 r
  | .sync h | .syncAck h | .stale h | .redirect h | .hold h | .ack h => hdrOk h
  | .epochReject h _ c _ => hdrOk h && fits 8 c
  | .beacon h b => hdrOk h && beaconOk b
  | .ethernetFrameRx l _ | .linkFrameRx l _ => fits 6 l
  | .linkNak l q => fits 6 l && fits 12 q
  | .linkChange l _ => decide (l < 68)
  | .retransmitTimeout p | .ackDelayTimeout p | .recordResend p => fits 20 p
  | .holdTimer p st => fits 20 p && fits 48 st
  | .journal b => journalOk b
  | .forward l => l.all (fun x => match x with
    | .entry st e | .replace st e => fits 48 st && entryOk e
    | .atomic r _ _ _ _ _ _ => subRing r)
  | .repair r => repairOk r
  | .repairReply r _ => repairOk r
  | .join b => fits 20 b.node
  | .streamRunStart n | .streamRequestDone n _ => fits 8 n
  | .queueReset q => fits 8 q
  | .faultRetry n _ | .faultAbort n _ | .skyFaultLimit n => fits 5 n
  | .dormerRead x n => [1, 2, 4, 8, 16, 32, 64].contains n && x % n == 0 && fits 28 x
  | .dormerWrite x d => [1, 2, 4, 8, 16, 32, 64].contains d.length && x % d.length == 0 && fits 28 x
  | .shadowDrainDone d n => decide (d < maxParts .compute) && fits 3 n
  | .burstParityError k ch _ x => decide (k < maxParts .stack) && fits 6 ch && wfStruck x
  | .currentClamp p d | .currentClampRelease p d => decide (d < maxParts p)
  | .powerCapTick _ f => decide (1 ≤ f ∧ f ≤ 16)
  | .duskIdleTimeout d | .duskWake d => decide (d < maxParts .compute)
  | .coreWatchdogExpiry c | .coreProtectionFault c | .coreRestart c _ => decide (c < 6)
  | .controlParity d | .hang d | .quarantineEnd d => d.die != .stack && decide (d.index < maxParts d.die)
  | .nwHello t | .jobCounters t | .lodestar t | .nwStatus t | .returnToService t | .activate t | .commit t | .oosRecord t => nwHeadOk t
  | .regRead t off n => nwHeadOk t && fits 32 off && fits 16 n
  | .regWrite t off _ => nwHeadOk t && fits 32 off
  | .countersClear t n | .eventRead t n | .nwReset t n | .stackFail t n | .imageVerify t n => nwHeadOk t && fits 8 n
  | .setPowerCap t w ms => nwHeadOk t && fits 16 w && fits 16 ms
  | .setPowerStateA2 t _ | .setPowerStateA3 t _ | .debugMode t _ | .jobClear t _ => nwHeadOk t
  | .setPowerStateA0 t => nwHeadOk t
  | .flashWrite t r off d => nwHeadOk t && fits 8 r && fits 32 off && fits 16 d.length
  | .flashRead t r off n => nwHeadOk t && fits 8 r && fits 32 off && fits 16 n
  | .catastrophicTemperature k | .refreshManagementRequest k => decide (k < maxParts .stack)
  | .eventDoorbell _ | .heartbeat | .mailboxDoorbell | .drainComplete | .drainTimeout | .heartbeatTimeout | .hostWriteAck _
  | .hlRingCfgWrite _ | .hlIrqCtrlWrite _ | .gatherReadComplete _ _ _ | .stepCloseBegin | .drainEpochAdvance | .replyTimeout _
  | .beaconTimer | .fbPortCfgWrite _ | .forwardAck _ | .status _ | .ridgeHeartbeatTimer | .ridgeLinkSilence | .ridgeAliveLost
  | .verdictWaitTimeout | .ridgeAliveRelease | .resilverCopy _ | .resilverPassDone | .cutover _ | .standDown | .handlePush _
  | .handlePop | .stQCfgWrite _ | .walkProbeDone _ | .mtInvalCmd _ | .invalidationDone | .mtTableCtrlWrite _
  | .senderFaultWaitLimit _ | .stackTempSample _ | .thermalSample _ _ | .cautionStepTimer | .refClockLost _ | .refClockReturn _
  | .resetNAssert | .pwrGoodFall | .coldReset | .engineReset | .warmReset | .ladderTimeout | .activationHoldoffExpiry
  | .mctpControlMessage _ | .spdmRequest _ | .pldmRequest _ | .dynamicAddressAssignment _ | .powerOn | .hostLinkReset
  | .verdictDeferralExpiry => true

end Sys2Proof
end

