-- ==== Sys2Proof/Certificates/Slice0/Obligations.lean ====
section
/-! DEFINITION. The statements for the provers: what a step does with the queue, what every command does and where it completes,
the rules of the chapters, and what every step keeps. -/

open Sys2Proof Sys2Proof.Machine

/-! ## The queue and the step -/

/-- A step takes the command at the front of the queue and carries it out on the state with the queue's rest. -/
def Obligations.StepRunsTheFrontCommand : Prop :=
  ∀ (s : State) (i : Instr) (rest : List Instr),
    s.pending = i :: rest → step s = exec i { s with pending := rest }

/-- On an empty queue the block waits out one tick of local time (the model's choice, log 5): the tick counter rises by 1 modulo
2⁶⁴ (R20, R542), and nothing that a command acts on changes. -/
def Obligations.EmptyQueueWaitsOneTick : Prop :=
  ∀ s : State, s.pending = [] → ∃ t, step s = .next t ∧ t.pending = [] ∧ t.pw = s.pw ∧ t.fw = s.fw ∧ t.nw = s.nw ∧
    t.eng.tick = (s.eng.tick + 1) % 2 ^ 64 ∧ t.eng.hl.cmds = s.eng.hl.cmds ∧ t.eng.store = s.eng.store ∧ t.eng.steps = s.eng.steps ∧
    t.eng.mt = s.eng.mt ∧ t.eng.st = s.eng.st ∧ t.eng.ix = s.eng.ix ∧ t.eng.fb = s.eng.fb ∧ t.eng.ls = s.eng.ls ∧ t.eng.rg = s.eng.rg

/-- Every command that reaches no undefined access completes, in every state, and leaves the queue of waiting commands alone. -/
def Obligations.SafeCommandsComplete : Prop :=
  ∀ (i : Instr) (s : State), Safe i s → ∃ t, exec i s = .next t ∧ t.pending = s.pending

/-- The accesses the spec calls undefined stop the machine, each under its own fault: register accesses that are not aligned
(R346), window accesses that are not naturally aligned (R338), and stores to slots and entries of indirect tables (R58). -/
def Obligations.UndefinedAccessesStop : Prop :=
  ∀ (i : Instr) (s : State) (f : Fault), undefinedAccess i s = some f → exec i s = .fault f

/-- The bounds of the always-on state are kept by every step. -/
def Obligations.EveryStepKeepsTheBounds : Prop :=
  ∀ s t : State, Legal s → step s = .next t → Legal t

/-- The state after reset keeps the bounds, lists no byte of memory, and has no command waiting. -/
def Obligations.ResetKeepsTheBounds : Prop :=
  Legal State.reset ∧ State.reset.pending = [] ∧ Memory.wf 0 State.reset.eng.host = true ∧
    Memory.wf 0 State.reset.eng.store.mem = true ∧ Memory.wf 0 State.reset.eng.st.bufMem = true ∧
    Memory.wf 0 State.reset.eng.hl.mailbox = true

/-- What the set-up registers read after reset: PL_CONFIG, GE_CONFIG, TH_CONFIG, UP_CONFIG, UP_UNDERFLOW_THRESH, AL_BAND_TOP,
AL_HEAP_RESERVE, AL_DRAIN, MT_SKY_FAULT_LIMIT, DW_CTRL, DW_BASE, HL_RING_LAST_SEQ, HL_LINK, RG_RETENTION. And the configuration is
empty, at epoch 0, with no pending set (R416), the member is DOWN, no host is attached with cause NONE (R382), and no step is on record
(R138). -/
def Obligations.ResetLeavesTheseValues : Prop :=
  let rd := fun (off : Nat) => (regRead .host off State.reset).1
  rd 0x9000 = 0x01000000 ∧ rd 0x8000 = 0x01000001 ∧ rd 0x7000 = 0x01000003 ∧ rd 0xA000 = 0x01000002 ∧ rd 0xA004 = 0x00010000 ∧
    rd 0x6004 = 0x01000000 ∧ rd 0x600C = 0x1000 ∧ rd 0x6010 = 0 ∧ rd 0x504C = 100 ∧ rd 0x4000 = 0x01000000 ∧ rd 0x4004 = 0 ∧
    rd 0x1038 = 0xFFFFFFFF ∧ rd 0x100C = 8 ∧ rd 0x11008 = 4 ∧
    (let e := State.reset.eng
     e.ls.active = emptyConf ∧ emptyConf.epoch = 0 ∧ emptyConf.members = [] ∧ e.ls.pend = none ∧ e.rg.state = .down ∧
       e.hl.attach = .detached ∧ e.hl.cause = 0 ∧ e.hl.cmds = [] ∧ e.steps.lastOpened = none ∧ e.steps.openStep = none)

/-! ## Where every command completes -/

/-- A host command whose ring can give one is carried out by the operation its opcode selects, the one acceptance of the ring's head
would run (R358, R360); what follows from it settles at once. -/
def Obligations.HostCommandsRunTheirOpcode : Prop :=
  ∀ (i : Instr) (r op : Nat) (d : Desc) (s : State),
    hostCommand i = some (r, d, op) → opcode d = op → canAccept s r = true →
      exec i s = .next (settle (onEng (opHostCommand (meaningOf d) r d) s))

/-- A state-changing command whose seq follows, whose header and own checks are good, and whose inputs can be read, takes its effect: it is
accepted, journaled with the step it then belongs to, and the operation of its opcode acts with the inputs it read (R357 to R361). An ATOMIC
does not pass an earlier command of its ring that waits for the first STEP_OPEN (R363). -/
def Obligations.ReadyCommandsTakeEffect : Prop :=
  ∀ (i : Instr) (r op : Nat) (d : Desc) (x : Change) (ins : List Byte) (e : Eng) (s : State),
    hostCommand i = some (r, d, op) → opcode d = op → canAccept s r = true → seqFollows s.eng r d = true → headerFail d = none →
      changeOf d = some x → (x.needsStep = true → stepKnown s.eng = true) →
      x.prep (.head r) (stepNow s.eng) d (postHead r d s.eng) = (e, .ready ins) →
      let q := takeHead r d true e
      ∃ c, findCmd q.1 q.2 = some c ∧ c.ring = r ∧ c.desc = d ∧ c.step = stepNow e ∧ c.done = none ∧
        (ring q.1 r).lastSeq = BitVec.ofNat 32 (num d 4 4) ∧
        (behindEarly (journalCmd r c.step d ins q.1) c = false →
          exec i s = .next (settle (onEng (fun _ => x.commit c ins (journalCmd r c.step d ins q.1)) s)))

/-- Where a ring cannot give a command (no host attached, the ring disabled or in error, its head held), its host commands wait in the
ring, and nothing changes (R360, R364). Without power, clock, firmware or an end of its reset the I/O die does nothing: the commands
that are its own change nothing. -/
def Obligations.CommandsTurnedAwayChangeNothing : Prop :=
  (∀ (i : Instr) (r op : Nat) (d : Desc) (s : State),
    hostCommand i = some (r, d, op) → canAccept s r = false → exec i s = .next s) ∧
  (∀ (i : Instr) (s : State), ioUp s = false → Safe i s → boardRow i = none → nightwatchRow i = false →
    (∀ a d, i ≠ .hostReadData a d) → exec i s = .next s)

/-- A packet of each class is delivered while the I/O die runs and an Elnan image is in use: INDEX, RESULT, RECORD, RECORD_ACK, FENCE,
RESTEP, SKY_WRITE, SKY_READ, SKY_DATA, SKY_WRITE_ACK, FAULT_PENDING, RESUME, ABORTED, DENIED, SYNC, SYNC_ACK, STALE, REDIRECT, HOLD,
EPOCH_REJECT, ACK and BEACON (R404); and where nothing turns it away, the effect of its class is applied. A SYNC is not answered while a reset
is in progress, and without an image no traffic is accepted (R517). -/
def Obligations.PacketsAreDelivered : Prop :=
  ∀ (i : Instr) (h : PktHdr) (b : Body) (s : State), packetOf i = some (h, b) → ioUp s = true →
    (s.fw.noImage = false → b ≠ .sync ∨ s.fw.resetRung = 0 →
      exec i s = .next (settle (onEng (opDeliver h b) s)) ∧
      (packetServed h b (received h b s.eng) = true →
        exec i s = .next (settle (onEng (fun e => applyBody h b (checkEpoch h b (received h b e)).1) s)))) ∧
    (b = .sync → s.fw.resetRung ≠ 0 → exec i s = .next (settle s)) ∧
    (s.fw.noImage = true → exec i s = .next (settle s))

/-- Frames and link changes, on the links of their mode. -/
def Obligations.FramesAndLinksComplete : Prop :=
  ∀ (l : Nat) (f : List Byte) (up : Bool) (s : State), ioUp s = true →
    exec (.ethernetFrameRx l f) s = .next (settle (opEthernetFrame l f s)) ∧
    exec (.linkFrameRx l f) s = .next (settle (opLinkFrame l f s)) ∧
    exec (.linkChange l up) s = .next (settle (opLinkChange l up s))

/-- The acts of the I/O die itself: acceptance, completion, doorbells, the host's coming and going, links, timers, Meridian. -/
def Obligations.IoDieCommandsComplete : Prop :=
  ∀ (i : Instr) (f : Eng → Eng) (s : State), ioOf i = some f → ioUp s = true → exec i s = .next (settle (onEng f s))

/-- The acts of the logic of the dies: they go on while the logic runs, and a reset stops them all (R472). -/
def Obligations.LogicCommandsComplete : Prop :=
  ∀ (i : Instr) (f : Eng → Eng) (s : State), logicRowOf i = some f →
    (ioUp s = true → s.eng.stopped = false → exec i s = .next (settle (onEng f s))) ∧
    (s.eng.stopped = true → exec i s = .next s)

/-- Packets on the ridge link: they are heard where a ridge port is up, and those for the logic of the dies act while it runs. -/
def Obligations.RidgePacketsComplete : Prop :=
  ∀ (i : Instr) (logic : Bool) (f : Eng → Eng) (s : State), ridgeOf i = some (logic, f) → ioUp s = true →
    (s.eng.rg.portsUp = [] → exec i s = .next (settle s)) ∧
    (s.eng.rg.portsUp ≠ [] → (ridgeHeard s.eng).stopped = false → exec i s = .next (settle (onEng (fun e => f (ridgeHeard e)) s))) ∧
    (s.eng.rg.portsUp ≠ [] → logic = false → exec i s = .next (settle (onEng (fun e => f (ridgeHeard e)) s)))

/-- The board, the sensors, the references, the resets and the firmware cores: each acts in every state, with nothing to enable it. -/
def Obligations.BoardCommandsComplete : Prop :=
  ∀ (i : Instr) (f : State → State) (s : State), boardRow i = some f → exec i s = .next (settle (f s))

/-- Requests on Nightwatch: answered at once where they are served and none is held before them; held, up to four, while they are not
served; and not taken during a cold reset (R518, R522). A request whose length is not its type's, or that has a reserved bit set, is answered with
BAD_LENGTH or RESERVED_FIELD and has no other effect (R11, R379). -/
def Obligations.NightwatchRequestsComplete : Prop :=
  ∀ (i : Instr) (s : State), nightwatchRow i = true →
    (nwServed s = true → s.nw.held = [] → s.pw.goal = none → exec i s = .next (settle (nwRun i s))) ∧
    (s.fw.resetRung ≠ 4 → nwServed s = false → s.nw.held.length < 4 →
      exec i s = .next (settle { s with nw := { s.nw with held := s.nw.held ++ [i] } })) ∧
    (s.fw.resetRung = 4 → exec i s = .next (settle s)) ∧
    (∀ (msg : Nat) (h : NwHead), nwHeader i = some (msg, h) → nwServed s = true → s.nw.held = [] → s.pw.goal = none →
      (h.badLength = true ∨ h.reserved ≠ 0) → exec i s = .next (settle { s with
        eng := counts [(0x14800, 1), (0x14810, 1)] s.eng
        nw := { s.nw with replies := s.nw.replies ++ [{ msg, tag := h.tag, status := if h.badLength then 3 else 4, body := [] }] } }))

/-- The commands that write one register do what REGISTER_WRITE does at the register's offset, and the resolution of a fault is the
write of MT_FAULT_RESOLVE (R331, R342, R537). -/
def Obligations.RegisterRowsAreWrites : Prop :=
  (∀ (i : Instr) (off : Nat) (v : Word) (s : State), registerRow i = some (off, v) → ioUp s = true →
    exec i s = exec (.registerWrite off v) s ∧ exec i s = .next (settle (regWrite .host off v.toNat s))) ∧
  (∀ (id : Nat) (g : BitVec 8) (s : State), id < 32 →
    exec (.faultRetry id g) s = exec (.registerWrite 0x5070 (BitVec.ofNat 32 (id + 32 * g.toNat))) s ∧
    exec (.faultAbort id g) s = exec (.registerWrite 0x5070 (BitVec.ofNat 32 (id + 32 * g.toNat + 2 ^ 15))) s) ∧
  (∀ s : State, exec .handlePop s = exec (.counterReadLo .host 0xE030) s)

/-- Accesses of the aperture complete as it lays them out (R350): writes and reads of its registers on 4-byte boundaries (R346), and of
its other ranges at any byte; a load through the dormer window with the bytes of the window (R338); over Nightwatch a read of a
counter's low half; and a clear. -/
def Obligations.RegisterAccessesComplete : Prop :=
  ∀ (off : Nat) (v : Word) (p : Path) (s : State), ioUp s = true →
    (off % 4 = 0 ∨ alignedOnly off = false → off < 0x10000000 →
      exec (.registerWrite off v) s = .next (settle (apertureWrite off v s)) ∧
      exec (.counterReadLo .host off) s = .next (settle (apertureRead off s))) ∧
    (off % 4 = 0 → off < 0x1000000 →
      exec (.counterReadLo .host off) s = .next (settle (keepRead (regRead .host off s).1 (regRead .host off s).2))) ∧
    (0x10000000 ≤ off → off < 0x20000000 → windowOk (off - 0x10000000) 4 = true → exec (.counterReadLo .host off) s =
      let q := windowRead (off - 0x10000000) 4 s.eng
      .next (settle (keepBytes q.1 { s with eng := q.2 }))) ∧
    (off % 4 = 0 → exec (.counterReadLo .nightwatch off) s = .next (settle (regRead .nightwatch off s).2) ∧
      exec (.counterClear p off) s = .next (settle (regWrite p off 0 s))) ∧
    exec .handlePop s = .next (settle (keepRead (regRead .host 0xE030 s).1 (regRead .host 0xE030 s).2))

/-- The messages of the mailbox: HELLO, ATTACH and DETACH do what the mailbox doorbell does once their request lies in the request area
(R378, R379); the doorbell is served while core 0 runs and no reset is in progress, and waits otherwise (R462). -/
def Obligations.MailboxRowsAreTheirMessages : Prop :=
  ∀ (tag ms drain : Nat) (s : State), tag < 2 ^ 16 → ms < 2 ^ 16 → drain < 2 ^ 32 → Memory.wf 0 s.eng.hl.mailbox = true → ioUp s = true →
    let asked := fun (req : List Byte) => exec .mailboxDoorbell (onEng (mbWrite 0 req) s)
    exec (.hello tag) s = asked (mbRequest 1 tag []) ∧
    exec (.attach tag ms) s = asked (mbRequest 2 tag (leBytes 2 ms ++ zeros 14)) ∧
    exec (.detachDrain tag drain) s = asked (mbRequest 3 tag ([0, 0] ++ leBytes 4 drain ++ zeros 10)) ∧
    exec (.detachAbandon tag) s = asked (mbRequest 3 tag ([1] ++ zeros 15)) ∧
    (mailboxServed s = true → exec .mailboxDoorbell s = .next (settle (onEng (opMailbox s.fw.oos) s))) ∧
    (mailboxServed s = false → exec .mailboxDoorbell s = .next (settle (onEng (fun e => { e with hl := { e.hl with mbHeld := true } }) s)))

/-! ## Memories and counters -/

/-- Every memory the model keeps stays in its canonical form under a store, reads back what was stored, and keeps every other byte;
and memories that read the same are the same data (R9, R46). -/
def Obligations.MemoriesKeepTheirForm : Prop :=
  ∀ (d : Byte) (m : List Host.Cell), Memory.wf d m = true →
    (∀ (a : Nat) (bs : List Byte), Memory.wf d (memPut d m a bs) = true ∧ memRead d (memPut d m a bs) a bs.length = bs ∧
      ∀ x, x < a ∨ a + bs.length ≤ x → memGet d (memPut d m a bs) x = memGet d m x) ∧
    (∀ m', Memory.wf d m' = true → (∀ x, memGet d m x = memGet d m' x) → m = m')

/-- HOST_READ_DATA: from then on the host dies answer reads of these addresses with these bytes, and nothing else changes (R347; that
the model keeps host memory is its own choice, log 2). -/
def Obligations.HostReadDataIsWhatReadsReturn : Prop :=
  ∀ (a : Nat) (bs : List Byte) (s : State), Memory.wf 0 s.eng.host = true →
    ∃ t, exec (.hostReadData a bs) s = .next t ∧ hostRead t.eng a bs.length = bs ∧
      (∀ x, x < a ∨ a + bs.length ≤ x → memGet 0 t.eng.host x = memGet 0 s.eng.host x) ∧
      t = { s with eng := { s.eng with host := t.eng.host } }

/-- Counting adds, stops at all ones with SAT set, and raises one COUNTER_SAT record when SAT changes from 0 to 1 (R539). The slots
that raising the record itself counts in are left out. -/
def Obligations.CountersSaturate : Prop :=
  ∀ (slot n : Nat) (e : Eng), slot ∉ noteSlots → (Tab.get {} e.ctr slot).value < 2 ^ 64 → n ≠ 0 →
    let c := Tab.get {} e.ctr slot
    let c' := Tab.get {} (count slot n e).ctr slot
    c'.value = min (c.value + n) (2 ^ 64 - 1) ∧ c'.sat = (c.sat || decide (2 ^ 64 - 1 ≤ c.value + n)) ∧ c'.latchHost = c.latchHost ∧
      c'.latchNw = c.latchNw ∧
      (c'.sat = true → c.sat = false → e.nwEvents.length < 64 →
        eventBytes e { kind := 0x000B, arg1 := slot } ∈ (count slot n e).nwEvents)

/-- A write of VALUE_LO or VALUE_HI clears the counter and both its latches; gauges, and the job counters through the host aperture,
ignore it (R538, R540). -/
def Obligations.CounterWritesClear : Prop :=
  ∀ (p : Path) (slot k : Nat) (s : State), slot ∈ counterSlots → k = 0 ∨ k = 4 → ioUp s = true → calm s = true →
    (slot ∉ gauges → ¬(p = .host ∧ slot ∈ jobCounters) →
      exec (.counterClear p (slot + k)) s = .next (onEng (clearCounter slot) s) ∧
      ∀ x, Tab.get {} (clearCounter slot s.eng).ctr x = if x = slot then {} else Tab.get {} s.eng.ctr x) ∧
    (slot ∈ gauges ∨ (p = .host ∧ slot ∈ jobCounters) → exec (.counterClear p (slot + k)) s = .next s)

/-- Each slot and CT_TICK has one latch for each path: a read of the low half returns it and latches the high half, a read of the high
half returns the path's latch whatever was counted since, and a REG_READ over both halves returns a single moment (R541). -/
def Obligations.CounterReadsLatch : Prop :=
  ∀ (p : Path) (s : State),
    (∀ slot ∈ counterSlots,
      let v := slotValue slot s.eng
      let t := (regRead p slot s).2
      (regRead p slot s).1 = v % 2 ^ 32 ∧ (regRead p (slot + 4) t).1 = v / 2 ^ 32 % 2 ^ 32 ∧
        (∀ x n, (regRead p (slot + 4) (onEng (count x n) t)).1 = v / 2 ^ 32 % 2 ^ 32) ∧
        (∀ p', p' ≠ p → (regRead p' (slot + 4) t).1 = (regRead p' (slot + 4) s).1) ∧
        (v < 2 ^ 64 → (readRegs 2 slot s).1 = leBytes 8 v)) ∧
    (let t := (regRead p 0x3004 s).2
     (regRead p 0x3004 s).1 = s.eng.tick % 2 ^ 32 ∧ (regRead p 0x3008 t).1 = s.eng.tick / 2 ^ 32 % 2 ^ 32 ∧
       ∀ p', p' ≠ p → (regRead p' 0x3008 t).1 = (regRead p' 0x3008 s).1)

/-- Reads of registers change nothing but the latches, except the pop of ST_Q_HANDLE_LO; and only the offsets with a latch change
anything at all (R535). -/
def Obligations.ReadsHaveNoSideEffect : Prop :=
  ∀ (p : Path) (off : Nat) (s : State), off ≠ 0xE030 →
    let t := (regRead p off s).2
    SameBoard s t ∧
    t.eng = { s.eng with ctr := t.eng.ctr, tickLatchHost := t.eng.tickLatchHost, tickLatchNw := t.eng.tickLatchNw } ∧
    (∀ slot, (Tab.get {} t.eng.ctr slot).value = (Tab.get {} s.eng.ctr slot).value ∧
      (Tab.get {} t.eng.ctr slot).sat = (Tab.get {} s.eng.ctr slot).sat) ∧
    (off ∉ counterSlots → off ≠ 0x3004 → t = s)

/-- Every selector is held twice: a write of one path's changes no value that the other path reads (R534). -/
def Obligations.SelectorsAreHeldTwice : Prop :=
  ∀ (p p' : Path) (off v x : Nat) (s : State), p ≠ p' →
    off ∈ [0x1018, 0x103C, 0x1044, 0x201C, 0x5000, 0x5050, 0x800C, 0xA008, 0xB000, 0xC000, 0xE004, 0xE020, 0xF008, 0x12010] →
      (regRead p' x (regWrite p off v s)).1 = (regRead p' x s).1

/-! ## Set-up registers -/

/-- AL_BAND_TOP, TH_CONFIG and UP_CONFIG take a write only where it is permitted, and read 0x0100_0000, 3 and 2 after reset (R63, R132, R182). The
three scratchpad areas have seven units (R265). -/
def Obligations.SetupWritesAreChecked : Prop :=
  (∀ (v : Word) (s : State), ioUp s = true → calm s = true →
    let n := v.toNat % 8
    let u := s.eng.setup
    (∃ t, exec (.registerWrite 0x6004 v) s = .next t ∧ SameBoard s t ∧ (regRead .host 0x6004 t).1 =
      if s.eng.ls.active.tables = [] ∧ s.eng.ls.staged.tables = [] ∧ (∀ q, s.eng.ls.pend = some q → q.2.tables = []) ∧
        v.toNat % 2 ^ 25 ≤ 2 ^ 25 - s.eng.store.reserved then v.toNat % 2 ^ 25 else s.eng.store.bandTop) ∧
    (∃ t, exec (.registerWrite 0x7000 v) s = .next t ∧ SameBoard s t ∧ (regRead .host 0x7000 t).1 = 0x01000000 +
      if anyHotSet s.eng = false ∧ 3 ≤ n ∧ n ≤ 6 ∧ u.buffers + u.staging + n ≤ 7 then n else u.thatchSize) ∧
    (∃ t, exec (.registerWrite 0xA000 v) s = .next t ∧ SameBoard s t ∧ (regRead .host 0xA000 t).1 = 0x01000000 +
      if s.eng.steps.staging = [] ∧ 1 ≤ n ∧ n ≤ 4 ∧ u.buffers + n + u.thatchSize ≤ 7 then n else u.staging)) ∧
  (regRead .host 0x6004 State.reset).1 = 0x01000000 ∧ (regRead .host 0x7000 State.reset).1 = 0x01000003 ∧
    (regRead .host 0xA000 State.reset).1 = 0x01000002

/-- What the read-only registers report: AL_LAYOUT, AL_RESERVED, AL_DRAIN and NW_CFG, on either path (R62, R64, R134, R528). -/
def Obligations.LayoutRegistersReport : Prop :=
  ∀ (p : Path) (s : State),
    let rd := fun (off : Nat) => (regRead p off s).1
    rd 0x6000 = 0x01000000 + s.eng.variant.msDies * 2 ^ 16 + s.eng.variant.channels ∧ rd 0x6008 = s.eng.store.reserved ∧
      (rd 0x6010).testBit 0 = s.eng.store.epoch ∧ (rd 0x6010).testBit 1 = !(s.eng.store.free0 ++ s.eng.store.free1).isEmpty ∧
      rd 0x6010 < 4 ∧ rd 0x14000 / 2 ^ 24 = 1 ∧ (rd 0x14000).testBit 23 = s.nw.smbus ∧ rd 0x14000 / 2 ^ 16 % 2 ^ 7 = s.nw.staticAddr % 2 ^ 7 ∧
      rd 0x14000 / 2 ^ 8 % 2 ^ 8 = s.nw.eid.toNat ∧ rd 0x14000 % 2 ^ 8 = s.nw.dynAddr.toNat ∧ (regRead p 0x6010 State.reset).1 = 0

/-! ## The host link -/

/-- NOP does nothing: it completes with OK and count 0, and a byte after its header that is not zero makes it complete with
RESERVED_FIELD (R367). -/
def Obligations.NopOnlyCompletes : Prop :=
  ∀ (r : Nat) (d : Desc) (s : State),
    opcode d = 0 → num d 1 1 = 1 → num d 2 2 / 2 = 0 → canAccept s r = true → seqFollows s.eng r d = true → calm s = true →
      ∃ t c, exec (.nop r d) s = .next t ∧ t.eng.hl.cmds = s.eng.hl.cmds ++ [c] ∧ c.ring = r ∧ c.desc = d ∧
        c.done = some { status := if allZero d 16 48 then 0x00 else 0x06, count := 0 } ∧ SameWork s.eng t.eng ∧ SameBoard s t

/-- What a FENCE names: its own ring, and the enabled rings of its mask; every other byte after its header is reserved (R365). It waits
for the record of every command accepted on those rings before it, and holds its own ring until then (R366). -/
def Obligations.FencesNameTheirRings : Prop :=
  ∀ (r : Nat) (d : Desc) (s : State),
    opcode d = 3 → num d 1 1 = 1 → num d 2 2 / 2 = 0 → canAccept s r = true → seqFollows s.eng r d = true → calm s = true →
      let named := fun (k : Nat) => k < 64 ∧ (k = r ∨ (num d 16 8).testBit k = true ∧ (ring s.eng k).enable = true)
      ∃ t c, exec (.fence r d) s = .next t ∧ t.eng.hl.cmds.getLast? = some c ∧ c.ring = r ∧ c.desc = d ∧ SameWork s.eng t.eng ∧
        (allZero d 24 40 = false → c.done = some { status := 0x06 }) ∧
        (allZero d 24 40 = true →
          ((∀ o ∈ s.eng.hl.cmds, ∀ o' ∈ s.eng.hl.cmds, named o'.ring → o.id = o'.id → o.recIdx.isSome = true) → c.done = some { status := 0x00, count := 0 }) ∧
          ((∃ o ∈ s.eng.hl.cmds, named o.ring ∧ o.recIdx = none) → c.done = none ∧ canAccept t r = false))

/-- The head of a ring whose seq or header is bad completes with the status of the first check that fails, in the order of R359; the
consumer index passes it; only a seq that does not follow the last leaves the last seq as it is (R357, R360). -/
def Obligations.HeaderChecksComeInOrder : Prop :=
  ∀ (r st : Nat) (s : State), r < 64 → ioUp s = true → calm s = true → hasHead s.eng r = true → ringHeld s.eng r = false →
    headWaits s.eng r = false → hasTurn s.eng r = true → (ring s.eng r).head = none →
      let q := ring s.eng r
      let d := headDesc s.eng r
      let k := (BitVec.ofNat 32 (num d 4 4) - q.lastSeq).toNat
      let slot := recSlot s.eng r d
      headLen d ≤ (q.prod - q.cons).toNat →
      st = (if k = 0 ∨ 2 ^ 31 ≤ k then 0x02 else if 2 ≤ k then 0x03 else if opcode d ∉ opcodes then 0x04 else if num d 1 1 ≠ 1 then 0x05
        else if reservedOk d = false then 0x06 else 0x00) → st ≠ 0x00 →
        ∃ t c, exec (.acceptCommand r) s = .next t ∧ t.eng.hl.cmds = s.eng.hl.cmds ++ [c] ∧ c.ring = r ∧ c.desc = d ∧
          c.done = some { status := st, errTable := slot.1, errRow := slot.2 } ∧ (ring t.eng r).cons = q.cons + BitVec.ofNat 32 (headLen d) ∧
          (ring t.eng r).lastSeq = (if k = 1 then BitVec.ofNat 32 (num d 4 4) else q.lastSeq) ∧ SameWork s.eng t.eng ∧ SameBoard s t

/-- A doorbell latches its index. One for a ring that is disabled or in error, or that lies before the latched index, is ignored; one
that would put the producer more than 2ⁿ ahead of the consumer puts the ring in error and raises RING_ERROR (R352, R353). -/
def Obligations.DoorbellsLatchTheirIndex : Prop :=
  ∀ (k : Nat) (v : Word) (s : State), k ≤ 128 → ioUp s = true → calm s = true → s.eng.hl.evHeld = [] → s.eng.hl.evLost = 0 →
    let q := ring s.eng k
    let ahead := if k < 64 then (v - q.cons).toNat else (q.prod - v).toNat
    ((q.enable = false ∨ q.error = true ∨ serialAfter (doorbellIndex k q) v = true) → exec (doorbell k v) s = .next s) ∧
    (q.enable = true → q.error = false → serialAfter (doorbellIndex k q) v = false →
      (ahead ≤ 2 ^ q.sizeLog2 → exec (doorbell k v) s = .next (onEng (setRing k (latchIndex k v)) s)) ∧
      (2 ^ q.sizeLog2 < ahead → s.eng.nwEvents.length < 63 →
        ∃ t, exec (doorbell k v) s = .next t ∧ ring t.eng k = { q with error := true } ∧
          eventBytes s.eng { kind := 0x000D, arg1 := k } ∈ t.eng.nwEvents ∧ SameWork s.eng t.eng ∧ SameBoard s t))

/-- ATTACH is refused with the status of the first case of R383 that applies, and nothing is attached; otherwise the state becomes
ATTACHED and the reply is OK. The reply carries the request's tag (R378, R379). -/
def Obligations.AttachIsChecked : Prop :=
  ∀ (tag ms st : Nat) (s : State), tag < 2 ^ 16 → ms < 2 ^ 16 → ioUp s = true → mailboxServed s = true → calm s = true →
    Memory.wf 0 s.eng.hl.mailbox = true →
    st = (if s.eng.hl.attach ≠ .detached ∨ s.eng.hl.helloSeen = false ∨ s.fw.oos = true then 2
      else if s.eng.hl.statusBase = 0 ∨
        (List.range 64).any (fun k => (ring s.eng k).enable && !(ring s.eng (64 + (ring s.eng k).cq)).enable) = true ∨
        s.eng.hl.cmds.any (fun c => c.carried) = true ∧ (ring s.eng 64).enable = false then 5
      else if 10000 < ms then 9 else 0) →
      ∃ t, exec (.attach tag ms) s = .next t ∧ t.eng.hl.attach = (if st = 0 then .attached else s.eng.hl.attach) ∧
        (st = 0 → t.eng.hl.heartbeatMs = ms ∧ t.eng.hl.lastBeat = s.eng.tick) ∧
        memRead 0 t.eng.hl.mailbox 0x800 9 = leBytes 1 2 ++ [1, 1, 0, 0, 0] ++ leBytes 2 tag ++ leBytes 1 st ∧
        SameWork s.eng t.eng ∧ SameBoard s t

/-- The loss of the host, here by a missed heartbeat, a link reset or an ABANDON: DETACHED with the loss's cause, every ring disabled with
its base, size, bindings and last seq kept, every command carried, read-only ones with HOST_LOST and count 0, state-changing ones going
on (R384 to R387). Without a host there is none to lose. -/
def Obligations.HostLossCarriesCommands : Prop :=
  ∀ (i : Instr) (cause : Nat) (s : State), ioUp s = true → mailboxServed s = true → calm s = true →
    (i = .hostLinkReset ∧ cause = 3) ∨ (i = .heartbeatTimeout ∧ cause = 4 ∧ s.eng.hl.attach = .attached ∧ s.eng.hl.heartbeatMs ≠ 0) ∨
      (i = .drainTimeout ∧ cause = 2 ∧ s.eng.hl.attach = .detaching) →
    (s.eng.hl.attach = .detached → exec i s = .next s) ∧
    (s.eng.hl.attach ≠ .detached → s.eng.hl.unacked = [] → s.eng.mt.faults = [] →
      ∃ t, exec i s = .next t ∧ t.eng.hl.attach = .detached ∧ t.eng.hl.cause = cause ∧
        (∀ k, (ring t.eng k).enable = false ∧ (ring t.eng k).base = (ring s.eng k).base ∧ (ring t.eng k).sizeLog2 = (ring s.eng k).sizeLog2 ∧
          (ring t.eng k).cq = (ring s.eng k).cq ∧ (ring t.eng k).vector = (ring s.eng k).vector ∧
          (ring t.eng k).lastSeq = (ring s.eng k).lastSeq) ∧
        t.eng.hl.cmds = s.eng.hl.cmds.map (fun c =>
          let x := cmdSlot s.eng c
          let c := { c with carried := true, recIdx := none }
          if readOnly c.desc then { c with work := .none, skyHalt := [], done := some { status := 0x01, count := 0, errTable := x.1, errRow := x.2 } } else c))

/-- Vectors (R376, R377): clearing MASK while PENDING is 1 and a host is attached sends one message, HL_IRQ_DATA to HL_IRQ_ADDR, and clears
PENDING; nothing is sent while the engine is not attached, with nothing pending, or to a vector left masked. -/
def Obligations.VectorsHoldWhatIsMasked : Prop :=
  ∀ (v : Word) (s : State), ioUp s = true → calm s = true → farFromFull s.eng →
    let n := sel s.eng .host 0x1044 0
    let q := Tab.get {} s.eng.hl.irqs n
    let send := v.toNat.testBit 0 = false ∧ q.pending = true ∧ s.eng.hl.attach = .attached
    ∃ t, exec (.hlIrqCtrlWrite v) s = .next t ∧ SameWork s.eng t.eng ∧ SameBoard s t ∧ t.eng.hl.rings = s.eng.hl.rings ∧
      (∀ k, Tab.get {} t.eng.hl.irqs k =
        if k = n then { q with mask := v.toNat.testBit 0, pending := q.pending && !decide send } else Tab.get {} s.eng.hl.irqs k) ∧
      (send → t.eng.hl.unacked = s.eng.hl.unacked ++ [WriteRef.irq] ∧ t.eng.host = memPut 0 s.eng.host q.addr (leBytes 4 q.data.toNat)) ∧
      (¬send → t.eng.hl.unacked = s.eng.hl.unacked ∧ t.eng.host = s.eng.host)

/-- An event record's 32 bytes (R373). -/
def Obligations.EventRecordsAreLaidOut : Prop :=
  ∀ (v : Event) (e : Eng), v.kind < 2 ^ 16 → v.step.getD (e.steps.openStep.getD 0) < 2 ^ 48 → v.table < 2 ^ 16 → v.row < 2 ^ 40 →
    v.node.getD e.fb.node < 2 ^ 20 → v.arg0 < 2 ^ 64 → v.arg1 < 2 ^ 32 →
      let b := eventBytes e v
      b.length = 32 ∧ num b 0 2 = v.kind ∧ num b 2 1 = 1 ∧ num b 3 1 = 0 ∧ num b 4 6 = v.step.getD (e.steps.openStep.getD 0) ∧
        num b 10 2 = v.table ∧ num b 12 5 = v.row ∧ num b 17 3 = v.node.getD e.fb.node ∧ num b 20 8 = v.arg0 ∧ num b 28 4 = v.arg1

/-- A completion record's 32 bytes (R369). -/
def Obligations.CompletionRecordsAreLaidOut : Prop :=
  ∀ (c : RunCmd) (r : Rec), 64 ≤ c.desc.length → r.status < 2 ^ 8 → r.detail < 2 ^ 16 → r.count < 2 ^ 48 → r.errTable < 2 ^ 16 →
    r.errRow < 2 ^ 40 →
      let b := recordBytes c r
      b.length = 32 ∧ slice b 0 8 = slice c.desc 8 8 ∧ num b 8 4 = c.seq.toNat ∧ num b 12 1 = opcode c.desc ∧ num b 13 1 = r.status ∧
        num b 14 2 = r.detail ∧ num b 16 6 = r.count ∧ num b 22 2 = r.errTable ∧ num b 24 5 = r.errRow ∧ num b 29 1 = c.ring % 64 ∧
        num b 30 1 = 1 ∧ (num b 31 1).testBit 0 = (r.partner || c.partner) ∧ (num b 31 1).testBit 1 = !r.data.isEmpty ∧ num b 31 1 < 4

/-- An event (R375, R525): it enters the Nightwatch queue of 64, attached or not, or is dropped and counted there; it is written where the
event ring has room and none is held before it, else held, up to 256, else dropped and counted. Once there is room the held records are
written in order, and then one EVENTS_LOST with the count. -/
def Obligations.EventsAreHeldInOrder : Prop :=
  (∀ (v : Event) (e : Eng), farFromFull e →
    let b := eventBytes e v
    let t := raiseEvent v e
    let room := eventRoom e = true ∧ e.hl.evHeld = [] ∧ e.hl.evLost = 0
    let lost := fun (c : Nat) => (Tab.get {} t.ctr c).value - (Tab.get {} e.ctr c).value
    t.nwEvents = (if e.nwEvents.length < 64 then e.nwEvents ++ [b] else e.nwEvents) ∧
      lost 0x14820 = (if e.nwEvents.length < 64 then 0 else 1) ∧
      (room → t.host = memPut 0 e.host ((ring e 128).base + 32 * ((ring e 128).wr.toNat % 2 ^ (ring e 128).sizeLog2)) b ∧
        (ring t 128).wr = (ring e 128).wr + 1 ∧ t.hl.evHeld = []) ∧
      (¬room → t.host = e.host ∧ t.hl.rings = e.hl.rings ∧
        t.hl.evHeld = (if e.hl.evHeld.length < 256 then e.hl.evHeld ++ [b] else e.hl.evHeld) ∧
        t.hl.evLost = e.hl.evLost + (if e.hl.evHeld.length < 256 then 0 else 1) ∧
        lost 0x1880 = (if e.hl.evHeld.length < 256 then 0 else 1))) ∧
  (∀ e : Eng, farFromFull e → Memory.wf 0 e.host = true → attached e = true → (ring e 128).runs = true → (ring e 128).sizeLog2 ≤ 16 →
    e.hl.evHeld.length ≤ 256 → (∀ b ∈ e.hl.evHeld, b.length = 32) → e.hl.evLost ≠ 0 → e.hl.evHeld.length < (ring e 128).free →
      let t := flushHeld e
      t.hl.evHeld = [] ∧ t.hl.evLost = 0 ∧
      ∀ k b, (e.hl.evHeld ++ [eventBytes e { kind := 0x000C, arg0 := e.hl.evLost }])[k]? = some b →
        hostRead t ((ring e 128).base + 32 * (((ring e 128).wr + BitVec.ofNat 32 k).toNat % 2 ^ (ring e 128).sizeLog2)) 32 = b)

/-! ## Translation and the dormer window -/

/-- MT_INVAL_CMD (R326, R341): while BUSY is 1 it is ignored; otherwise BUSY becomes 1, every cached range of the table that overlaps the
span is gone and every other one stays, the table's walks start again only once BUSY clears, walks that waited for a walker take those they
leave (R324), and pending faults stay. BUSY clears when the accesses that used a removed translation are over. -/
def Obligations.InvalidationsRemoveRanges : Prop :=
  ∀ (v : Word) (s : State), ioUp s = true → calm s = true →
    let m := s.eng.mt
    let table := v.toNat % 2 ^ 9
    let lo := if v.toNat.testBit 31 then 0 else m.invalAddr / 4096 * 4096
    let len := if v.toNat.testBit 31 then 2 ^ 64 else (m.invalLen + 4095) / 4096 * 4096
    (m.busy = true → exec (.mtInvalCmd v) s = .next s) ∧
    (m.busy = false → ∃ t, exec (.mtInvalCmd v) s = .next t ∧ t.eng.mt.busy = true ∧ t.eng.mt.roots = m.roots ∧
      (∀ q : Range, q ∈ t.eng.mt.cache ↔ q ∈ m.cache ∧ ¬(q.table = table ∧ lo < q.start + q.length ∧ q.start < lo + len)) ∧
      ((∀ k ∈ m.queued, k.held = true) → t.eng.mt.faults = m.faults ∧ ∀ w ∈ t.eng.mt.walks, w ∈ m.walks ∧ w.table ≠ table) ∧
      (∀ w ∈ t.eng.mt.walks, w ∈ m.walks ∧ w.table ≠ table ∨ ∃ k ∈ m.queued, k.held = false ∧ k.table = w.table ∧ k.addr = w.addr) ∧
      (∀ w ∈ m.walks, w.table = table → ∃ k ∈ t.eng.mt.queued, k.held = true ∧ k.table = w.table ∧ k.addr = w.addr ∧ k.waiters = w.waiters) ∧
      t.eng.store = s.eng.store ∧ SameBoard s t) ∧
    (m.busy = true → m.queued = [] → m.deferred = [] → shutOut s.eng .io 0 6 = false →
      exec .invalidationDone s = .next { s with eng := { s.eng with mt := { m with busy := false } } })

/-- A resolution that names no pending entry by ID and generation is ignored and counted. ABORT frees the entry, and a local command that
waited on it completes with XLATE_FAULT and the fault's kind; RETRY invalidates the span, frees the entry, and gives a local waiter its turn
again; its invalidation is in progress then (R326, R331). -/
def Obligations.FaultsAreResolvedByName : Prop :=
  ∀ (id : Nat) (gen : BitVec 8) (s : State), id < 32 → ioUp s = true → calm s = true →
    let f := faultEntry s.eng id
    (¬(f.pending = true ∧ f.gen = gen) →
      exec (.faultRetry id gen) s = .next (onEng (count 0x5880 1) s) ∧ exec (.faultAbort id gen) s = .next (onEng (count 0x5880 1) s)) ∧
    (f.pending = true → f.gen = gen → s.eng.mt.starved = [] → ∀ k c, f.waiters = [.cmd k] → findCmd s.eng k = some c → c.work = .parked →
      c.done = none →
      (∃ t, exec (.faultAbort id gen) s = .next t ∧ (faultEntry t.eng id).pending = false ∧ (faultEntry t.eng id).gen = gen ∧
        (∃ c', findCmd t.eng k = some c' ∧ c'.done = some { status := 0x38, detail := f.kind }) ∧ t.eng.store = s.eng.store ∧ SameBoard s t) ∧
      (s.eng.mt.busy = false → s.eng.mt.queued = [] → s.eng.mt.walks = [] → s.eng.mt.deferred = [] →
        let e := opFaultRetry id gen s.eng
        e.mt.resume = s.eng.mt.resume ++ [.cmd k] ∧ (faultEntry e id).pending = false ∧ e.mt.busy = true ∧
          ∀ q ∈ e.mt.cache, q ∈ s.eng.mt.cache ∧ ¬(q.table = f.table ∧ f.start < q.start + q.length ∧ q.start < f.start + (f.fin - f.start))))

/-- Accesses through the dormer window, by the first case of R339 that applies: window off or stack failed, reserved region, writes not
permitted, otherwise. Reads give all ones, zero, or what the stacks hold there; writes are dropped and counted, or made. -/
def Obligations.WindowAccessesFollowTheirCase : Prop :=
  ∀ (x n : Nat) (bs : List Byte) (s : State), windowOk x n = true → bs.length = n → ioUp s = true → calm s = true →
    Memory.wf 0 s.eng.store.mem = true →
    let a := s.eng.mt.dwWindow * 2 ^ 28 + x
    let u := unitOf s.eng a
    let off := s.eng.mt.dwEnable = false ∨ u.1 / 64 ∈ s.eng.store.failedStacks
    let reserved := 2 ^ 25 - s.eng.store.reserved ≤ u.2
    (∃ t, exec (.dormerRead x n) s = .next t ∧ t.eng.store = { s.eng.store with cache := t.eng.store.cache } ∧ SameBoard s t ∧
      t.eng.hl.readData = if off then List.replicate n 0xFF else if reserved then List.replicate n 0 else memRead 0 s.eng.store.mem a n) ∧
    (off ∨ reserved ∨ s.eng.mt.dwWriteEn = false → exec (.dormerWrite x bs) s = .next (onEng (count 0x4820 1) s)) ∧
    (¬off → ¬reserved → s.eng.mt.dwWriteEn = true → windowForbidden s.eng x n = false →
      ∃ t, exec (.dormerWrite x bs) s = .next t ∧ SameBoard s t ∧ memRead 0 t.eng.store.mem a n = bs ∧ t.eng.fb = s.eng.fb ∧
        ∀ y, y < a ∨ a + n ≤ y → memGet 0 t.eng.store.mem y = memGet 0 s.eng.store.mem y) ∧
    (∀ off, n = 4 → off = 0x10000000 + x → exec (.registerWrite off (BitVec.ofNat 32 (leNat bs))) s = exec (.dormerWrite x bs) s)

/-! ## Tables and storage -/

/-- The CRC of a slot: its check value, and that a slot the engine makes passes its check (R39, R42, R43). -/
def Obligations.SlotsCarryTheirCrc : Prop :=
  crc32c [0x31, 0x32, 0x33, 0x34, 0x35, 0x36, 0x37, 0x38, 0x39] = 0xE3069283 ∧
  ∀ (t : TD) (fmt ver scale2 : Nat) (codes : List Nat) (payload : List Byte),
    let m := mkSlot t fmt ver scale2 codes payload
    slotCrcOk m = true ∧ num m 0 4 = crc32c (m.drop 4) ∧ num m 4 2 = scale2 % 2 ^ 16 ∧ slotVersion m = ver % 2 ^ 8 ∧
      slotFormat m = fmt % 2 ^ 8 ∧ (8 + codes.length + payload.length ≤ t.slotSize fmt → m.length = t.slotSize fmt)

/-- An Almanac entry reads back as it was written, with its check good for its table and row (R53). -/
def Obligations.AlmanacEntriesReadBack : Prop :=
  ∀ (a : AlEntry) (t i : Nat), a.version < 2 ^ 8 → a.fmt < 2 ^ 4 → 1 ≤ a.units → a.units ≤ 2 ^ 7 → a.channel < 2 ^ 11 → a.offset < 2 ^ 25 →
    parseEntry (a.word t i) = a ∧ entryGood (a.word t i) t i = a.valid ∧ a.word t i < 2 ^ 64

/-- Stack addresses and units of pseudo-channels name each other: a 256-byte interleave over all P channels (R46, R256). Within a
pseudo-channel, consecutive rows of the offset space lie in different banks, and bank, row and column name the offset (R255). -/
def Obligations.StackAddressesNameUnits : Prop :=
  ∀ (e : Eng) (ch o a : Nat), ch < e.variant.channels →
    unitOf e (stackAddr e ch o) = (ch, o) ∧ stackAddr e (unitOf e a).1 (unitOf e a).2 + a % 32 = a ∧ (unitOf e a).1 < e.variant.channels ∧
      (o < 2 ^ 25 → stackAddr e ch o + 32 ≤ e.variant.channels * 2 ^ 30) ∧
      (e.variant = .e24 → stackAddr e 1491 0x100000 = 0xC0005D300) ∧
      (o < 2 ^ 25 → let p := bankPlace ch o
        p.row = o / 2 ^ 11 ∧ p.column = o % 2 ^ 5 ∧ p.bank < 64 ∧ p.bank = p.bankGroup + 4 * p.bankInGroup + 16 * p.stackId ∧
          (o + 32 < 2 ^ 25 → (bankPlace ch (o + 32)).bank ≠ p.bank) ∧
          ∀ q, q < 2 ^ 25 → (bankPlace ch q).bank = p.bank → (bankPlace ch q).row = p.row → (bankPlace ch q).column = p.column → q = o)

/-- A row's half bit and its lead: of the two members of a pair, the one whose node-ID bit 0 is the half leads, and the other one is the
mirror; and the worked example (R430). -/
def Obligations.HalvesHaveALead : Prop :=
  (∀ t i pair : Nat, halfOf t i = (((i * 0x9E3779B9 + t * 0x85EBCA6B) % 2 ^ 32) >>> 30) &&& 1 ∧ halfOf t i < 2 ∧
    leadOf pair (halfOf t i) / 2 = pair ∧ leadOf pair (halfOf t i) % 2 = halfOf t i) ∧
  (∀ (t i : Nat) (e e' : Eng), e.fb.node / 2 = e'.fb.node / 2 → e.fb.node ≠ e'.fb.node →
    (leads e t i = true ↔ e.fb.node = leadOf (e.fb.node / 2) (halfOf t i)) ∧ leads e' t i = !leads e t i) ∧
  halfOf 0x0031 0x000051C6 = 0 ∧ leadOf (0x02C40 / 2) (halfOf 0x0031 0x000051C6) = 0x02C40

/-! ## Settling queues -/

/-- A settling queue keeps its items sorted by key, and items of one key in the order they were pushed (R294). -/
def Obligations.SettlingQueuesSort : Prop :=
  ∀ (x : Item) (l : List Item), List.Pairwise (fun a b : Item => a.key ≤ b.key) l →
    List.Pairwise (fun a b : Item => a.key ≤ b.key) (insertItem x l) ∧ (insertItem x l).length = l.length + 1 ∧
      ∀ k, (insertItem x l).filter (fun y => y.key == k) = l.filter (fun y => y.key == k) ++ (if x.key = k then [x] else [])

/-- HANDLE_PUSH and HANDLE_POP (R296, R314): a disabled queue takes a push of ST_Q_KEY with the handle; an enabled one ignores it. A pop of
a queue that is disabled or has no consumer takes the lowest item, and latches its high half and key; of an empty queue it returns the last
item taken and sets UNDERRUN; at other times it has no effect. -/
def Obligations.HandlesArePushedAndPopped : Prop :=
  ∀ (v : Word) (s : State), ioUp s = true → calm s = true →
    let q := sel s.eng .host 0xE020 0
    let h := hqueue s.eng q
    (∃ t, exec (.handlePush v) s = .next t ∧ SameBoard s t ∧ t.eng.store = s.eng.store ∧ (hqueue t.eng q).items =
      if h.enable = true ∨ 64 ≤ h.items.length then h.items
      else insertItem { key := h.key.toNat, handle := v.toNat * 2 ^ 32 + h.lo.toNat } h.items) ∧
    (∃ t, exec .handlePop s = .next t ∧ SameBoard s t ∧ t.eng.store = s.eng.store ∧
      (h.enable = true → h.consumer ≠ none → hqueue t.eng q = h) ∧
      (h.enable = false ∨ h.consumer = none →
        (∀ x rest, h.items = x :: rest → (hqueue t.eng q).items = rest ∧ t.eng.hl.readData = leBytes 4 x.handle ∧
          (hqueue t.eng q).hi = BitVec.ofNat 32 (x.handle / 2 ^ 32) ∧ (hqueue t.eng q).key = BitVec.ofNat 32 x.key ∧
          (hqueue t.eng q).last = x.handle) ∧
        (h.items = [] → hqueue t.eng q = { h with underrun := true } ∧ t.eng.hl.readData = leBytes 4 h.last)))

/-! ## Steps -/

/-- What STEP_OPEN and STEP_CLOSE are refused for (R137): a step is open, or the step is not the one after the last opened, or the last
number there is; the step is not the open one, or lr_scale is negative, NaN or infinite (−0 counts as 0, log 41). A refusal has no other
effect (R360). -/
def Obligations.StepCommandsAreChecked : Prop :=
  ∀ (r : Nat) (d : Desc) (s : State), canAccept s r = true → seqFollows s.eng r d = true → calm s = true → headerFail d = none →
    let n := num d 16 6
    let lr := num d 24 4
    let good := fun (i : Instr) (st : Nat) => ∃ t c, exec i s = .next t ∧ t.eng.hl.cmds = s.eng.hl.cmds ++ [c] ∧ c.ring = r ∧ c.desc = d ∧
      c.done = some { status := st } ∧ SameWork s.eng t.eng ∧ SameBoard s t
    (opcode d = 1 → s.eng.steps.openStep ≠ none → good (.stepOpen r d) 0x1B) ∧
    (opcode d = 1 → s.eng.steps.openStep = none → n = 2 ^ 48 - 1 → good (.stepOpen r d) 0x1C) ∧
    (opcode d = 1 → s.eng.steps.openStep = none → n < 2 ^ 48 - 1 → coreRuns s.eng 2 = true →
      (∃ o, s.eng.steps.lastOpened = some o ∧ n ≠ o + 1) ∨ (s.eng.steps.lastOpened = none ∧ n = 0) → good (.stepOpen r d) 0x1B) ∧
    (opcode d = 2 → s.eng.steps.openStep ≠ some n ∨ (2 ^ 31 < lr ∨ (0x7F800000 ≤ lr ∧ lr < 2 ^ 31)) → good (.stepClose r d) 0x1B)

/-! ## The fabric and the pair -/

/-- The routing-table entry of a destination (R412): FLAT takes n[14:0] for nodes below 2¹⁵ and no other is routable; GROUP takes the node
within its own group, or the entry of another group. -/
def Obligations.RouteEntriesAreSelected : Prop :=
  ∀ (e : Eng) (n : Nat), n < 2 ^ 20 →
    (e.fb.groupMode = false → routeIndex e n = if n < 2 ^ 15 then some n else none) ∧
    (e.fb.groupMode = true → 6 ≤ e.fb.shift → e.fb.shift ≤ 14 →
      ∃ k, routeIndex e n = some k ∧ k < 32768 ∧
        (n / 2 ^ e.fb.shift = e.fb.node / 2 ^ e.fb.shift → k = n % 2 ^ e.fb.shift) ∧
        (n / 2 ^ e.fb.shift ≠ e.fb.node / 2 ^ e.fb.shift → k = 16384 + n / 2 ^ e.fb.shift))

/-- A member in DOWN or JOINING serves no row: a request packet is not carried out, a REDIRECT for its sender is sent or queued, and its
credit is given back (R408, R434). -/
def Obligations.MembersDownRedirect : Prop :=
  ∀ (i : Instr) (h : PktHdr) (b : Body) (s : State), packetOf i = some (h, b) → needsCredit b = true → ioUp s = true → calm s = true →
    s.eng.rg.state = .down ∨ s.eng.rg.state = .joining → h.src ≠ s.eng.fb.node →
      ∃ t, exec i s = .next t ∧ SameBoard s t ∧ t.eng.store = s.eng.store ∧ t.eng.steps = s.eng.steps ∧ t.eng.mt = s.eng.mt ∧
        t.eng.hl.cmds = s.eng.hl.cmds ∧ t.eng.rg = s.eng.rg ∧
        (session t.eng h.src).granted = (session s.eng h.src).granted + 1 ∧
        (∃ p, (p ∈ t.eng.fb.tx ∨ p ∈ (session t.eng h.src).waiting ∨ p ∈ (session t.eng h.src).unacked) ∧ p.body = .redirect)

/-! ## Power, firmware and Nightwatch -/

/-- The thresholds of R502 with no lowering by the image, and the level a temperature reaches. -/
def Obligations.ThermalLevelsAreReached : Prop :=
  ∀ (pw : Power) (kind t : Nat), kind ≤ 3 → pw.lowered = [] →
    threshold pw kind 1 = 95 ∧ threshold pw kind 2 = (if kind = 3 then 100 else 105) ∧ threshold pw kind 3 = (if kind = 3 then 105 else 115) ∧
      (levelOf pw kind t = 0 ↔ t < 95) ∧ (levelOf pw kind t = 3 ↔ (if kind = 3 then 105 else 115) ≤ t) ∧
      (2 ≤ levelOf pw kind t ↔ (if kind = 3 then 100 else 105) ≤ t)

/-- A thermal Trip (R503): THERMTRIP_N is asserted, RIDGE_ALIVE_OUT_N released, the host lost, and the dies outside the always-on domain
are held: here by a stack's catastrophic temperature output (R253, R502). -/
def Obligations.TripsHoldTheEngine : Prop :=
  ∀ (k : Nat) (s : State), k < s.eng.variant.stackCount → s.pw.state ≠ 3 → s.pw.thermtrip = false → s.eng.mt.faults = [] →
    ∃ t, exec (.catastrophicTemperature k) s = .next t ∧ t.pw.thermtrip = true ∧ ioUp t = false ∧ t.eng.stopped = true ∧
      t.eng.rg.aliveOut = false ∧ t.eng.rg.state = .down ∧ t.eng.hl.attach = .detached

/-- THERMTRIP_N stays asserted, and the I/O die off, until PWR_GOOD falls or all power is lost, whatever is commanded (R503, R504). -/
def Obligations.ThermtripHoldsUntilPowerFalls : Prop :=
  ∀ (i : Instr) (s t : State), s.pw.thermtrip = true → i ≠ .pwrGoodFall → i ≠ .powerOn → exec i s = .next t →
    t.pw.thermtrip = true ∧ ioUp t = false

/-- Debug mode is set only by DEBUG_MODE over Nightwatch (R481), now or held from before (R522). -/
def Obligations.DebugModeIsSetOverNightwatch : Prop :=
  ∀ (i : Instr) (s t : State), exec i s = .next t → s.fw.debug = false → t.fw.debug = true →
    (∃ tag, i = .debugMode tag true) ∨ ∃ tag, Instr.debugMode tag true ∈ s.nw.held

/-- The out-of-service record is erased only by RETURN_TO_SERVICE, now or held from before (R477, R478). -/
def Obligations.OutOfServiceIsKeptUntilReturn : Prop :=
  ∀ (i : Instr) (s t : State), exec i s = .next t → s.fw.oosRecord ≠ none → t.fw.oosRecord = none →
    (∃ tag, i = .returnToService tag) ∨ ∃ tag, Instr.returnToService tag ∈ s.nw.held

/-- SET_POWER_CAP: the cap is taken to the nearest end of the configuration's range, a window outside 1 to 1,000 ms keeps the one set
before (R527), and the reply gives what is then in force from the next window on (R507, R523). -/
def Obligations.PowerCapsAreClamped : Prop :=
  ∀ (tag watts ms : Nat) (s : State), nwServed s = true → calm s = true →
    let old := match s.pw.newCap with | some q => q.2 | none => s.pw.capWindow
    let w := max s.eng.variant.capFloor (min s.eng.variant.designPower watts)
    let m := if 1 ≤ ms ∧ ms ≤ 1000 then ms else old
    exec (.setPowerCap { tag } watts ms) s = .next { s with
      eng := count 0x14800 1 s.eng
      pw := { s.pw with newCap := some (w, m) }
      nw := { s.nw with replies := s.nw.replies ++ [{ msg := 0x30, tag, status := 0, body := leBytes 2 w ++ leBytes 2 m }] } }

/-- REG_WRITE over Nightwatch reaches the PW_, CK_, NW_ and RG_ blocks and the counters; every other write is DENIED, counted, and has no
effect (R523). -/
def Obligations.NightwatchWritesArePermitted : Prop :=
  ∀ (tag off : Nat) (v : Word) (s : State), nwServed s = true → calm s = true → off % 4 = 0 → off < 0x1000000 →
    (¬(0x11000 ≤ off ∧ off < 0x15000) → off / 16 * 16 ∉ counterSlots →
      exec (.regWrite { tag } off v) s = .next { s with
        eng := counts [(0x14800, 1), (0x14810, 1)] s.eng
        nw := { s.nw with replies := s.nw.replies ++ [{ msg := 0x11, tag, status := 7, body := [] }] } }) ∧
    ((0x11000 ≤ off ∧ off < 0x15000) ∨ off / 16 * 16 ∈ counterSlots →
      exec (.regWrite { tag } off v) s = .next (settle (nwReply 0x11 tag 0 [] (regWrite .nightwatch off v.toNat s))))

/-- SET_POWER_STATE to A2 or A3 is refused with BAD_STATE unless the engine is DETACHED, with BUSY while an activation is pending or
running, and without FORCE with BAD_STATE unless the partner is PAIRED (R499); a refusal changes nothing else. -/
def Obligations.PowerStateRequestsAreChecked : Prop :=
  ∀ (tag target st : Nat) (force : Bool) (s : State), nwServed s = true → calm s = true → s.fw.oos = false → s.fw.recovery = false →
    s.pw.state = 0 →
    let i := if target = 2 then Instr.setPowerStateA2 { tag } force else Instr.setPowerStateA3 { tag } force
    st = (if s.eng.hl.attach ≠ .detached then 2 else if s.fw.actPending = true ∨ s.fw.actRunning = true then 6
      else if force = false ∧ (∀ p, s.eng.rg.partner = some p → p.state ≠ .paired) then 2 else 0) →
      (target = 2 ∨ target = 3) → st ≠ 0 →
      exec i s = .next { s with
        eng := counts [(0x14800, 1), (0x14810, 1)] s.eng
        nw := { s.nw with replies := s.nw.replies ++ [{ msg := 0x31, tag, status := st, body := [] }] } }

/-- JOB_CLEAR (R524): refused with BAD_STATE and without effect unless the engine is DETACHED, no step is open and every accepted
state-changing command has completed; otherwise, in SOLO, DOWN or JOINING, the configuration is the empty one at epoch 0, every table,
journal, step and carried completion is gone, and the job counters are clear, while ring set-up, roots, links and the fabric generation stay. -/
def Obligations.JobClearEndsTheJob : Prop :=
  ∀ (tag : Nat) (b : Bool) (s : State), nwServed s = true → calm s = true → farFromFull s.eng →
    (s.eng.hl.attach ≠ .detached ∨ s.eng.steps.openStep ≠ none ∨ (∃ c ∈ s.eng.hl.cmds, readOnly c.desc = false) →
      exec (.jobClear { tag } b) s = .next { s with
        eng := counts [(0x14800, 1), (0x14810, 1)] s.eng
        nw := { s.nw with replies := s.nw.replies ++ [{ msg := 0x36, tag, status := 2, body := [] }] } }) ∧
    (s.eng.hl.attach = .detached → s.eng.steps.openStep = none → s.eng.steps.closing = none → (∀ c ∈ s.eng.hl.cmds, readOnly c.desc = true) →
      s.eng.rg.state ≠ .paired →
        ∃ t, exec (.jobClear { tag } b) s = .next t ∧ t.eng.ls.active = emptyConf ∧ t.eng.ls.pend = none ∧ t.eng.steps = {} ∧ t.eng.hl.cmds = [] ∧
          t.eng.rg.own = [] ∧ t.eng.rg.custody = [] ∧ t.eng.store.hotSets = [] ∧ t.eng.store.replicas = [] ∧ t.eng.store.allocs = [] ∧
          (∀ c ∈ jobCounters, Tab.get {} t.eng.ctr c = {}) ∧ t.eng.hl.rings = s.eng.hl.rings ∧ t.eng.mt = s.eng.mt ∧
          t.eng.fb.gen = s.eng.fb.gen ∧ t.eng.fb.linksUp = s.eng.fb.linksUp ∧ t.pw = s.pw)
end

