-- ==== Sys2Proof/Laws/Memory.lean ====
section
/-! SUPPORT. Memories: the canonical form is kept by every store, a byte stored reads back, and every other byte stays. -/

namespace Sys2Proof.Machine

theorem memWfFrom_mono {d : Byte} {lo lo' : Nat} {m : List Host.Cell} (h : lo' ≤ lo) (w : memWfFrom d lo m = true) :
    memWfFrom d lo' m = true := by
  cases m with
  | nil => rfl
  | cons c t =>
    simp only [memWfFrom, Bool.and_eq_true, decide_eq_true_eq] at w ⊢
    exact ⟨⟨by omega, w.1.2⟩, w.2⟩

theorem memWfFrom_filter {d : Byte} (p : Host.Cell → Bool) {lo : Nat} {m : List Host.Cell} (w : memWfFrom d lo m = true) :
    memWfFrom d lo (m.filter p) = true := by
  induction m generalizing lo with
  | nil => rfl
  | cons c t ih =>
    simp only [memWfFrom, Bool.and_eq_true, decide_eq_true_eq] at w
    rw [List.filter_cons]
    split
    · simp only [memWfFrom, Bool.and_eq_true, decide_eq_true_eq]
      exact ⟨w.1, ih w.2⟩
    · exact ih (memWfFrom_mono (by omega) w.2)

theorem memWfFrom_set {d b : Byte} (hb : b ≠ d) {lo a : Nat} {m : List Host.Cell} (h : lo ≤ a) (w : memWfFrom d lo m = true) :
    memWfFrom d lo (Tab.set m a b) = true := by
  induction m generalizing lo with
  | nil => simp [Tab.set, memWfFrom, h, hb]
  | cons c t ih =>
    simp only [memWfFrom, Bool.and_eq_true, decide_eq_true_eq, bne_iff_ne] at w
    unfold Tab.set
    split
    · next e => subst e; simp [memWfFrom, hb, w]
    · split
      · simp only [memWfFrom, Bool.and_eq_true, decide_eq_true_eq, bne_iff_ne]
        exact ⟨⟨h, hb⟩, ⟨by omega, w.1.2⟩, w.2⟩
      · simp only [memWfFrom, Bool.and_eq_true, decide_eq_true_eq, bne_iff_ne]
        exact ⟨⟨w.1.1, w.1.2⟩, ih (by omega) w.2⟩

/-- Erasing a range of a memory keeps its canonical form. -/
theorem memory_wf_filter {d : Byte} (p : Host.Cell → Bool) {m : List Host.Cell} (w : Memory.wf d m = true) :
    Memory.wf d (m.filter p) = true := memWfFrom_filter p w

/-- Storing a byte keeps the canonical form. -/
theorem memSet_wf {d : Byte} {m : List Host.Cell} (a : Nat) (b : Byte) (w : Memory.wf d m = true) :
    Memory.wf d (memSet d m a b) = true := by
  unfold memSet
  split
  · exact memWfFrom_filter _ w
  · next h => exact memWfFrom_set h (Nat.zero_le a) w

/-- Storing bytes keeps the canonical form. -/
theorem memPut_wf {d : Byte} {m : List Host.Cell} (a : Nat) (bs : List Byte) (w : Memory.wf d m = true) :
    Memory.wf d (memPut d m a bs) = true := by
  induction bs generalizing m a with
  | nil => exact w
  | cons b t ih => exact ih _ (memSet_wf a b w)

theorem tabGet_below {α : Type} (d : α) {m : Tab α} {a : Nat} (h : ∀ p ∈ m, a < p.1) : Tab.get d m a = d := by
  cases m with
  | nil => rfl
  | cons c t =>
    have := h c (List.mem_cons_self ..)
    simp only [Tab.get]
    rw [if_neg (by omega), if_pos this]

theorem memWfFrom_lt {d : Byte} {lo : Nat} {m : List Host.Cell} (w : memWfFrom d lo m = true) : ∀ p ∈ m, lo ≤ p.1 := by
  induction m generalizing lo with
  | nil => simp
  | cons c t ih =>
    simp only [memWfFrom, Bool.and_eq_true, decide_eq_true_eq] at w
    intro p hp
    rcases List.mem_cons.1 hp with rfl | hp
    · exact w.1.1
    · have := ih w.2 p hp; omega

theorem tabGet_set {α : Type} (d : α) (m : Tab α) (a x : Nat) (b : α) :
    Tab.get d (Tab.set m a b) x = if x = a then b else Tab.get d m x := by
  induction m with
  | nil => simp only [Tab.set, Tab.get]; split <;> simp
  | cons c t ih =>
    unfold Tab.set
    split
    · next e => subst e; simp only [Tab.get]; split <;> rfl
    · split
      · simp only [Tab.get]
        split
        · rfl
        · split
          · next h1 h2 h3 => rw [if_neg (by omega), if_pos (by omega)]
          · rfl
      · next h1 h2 =>
        simp only [Tab.get, ih]
        split
        · next h3 => rw [if_neg (by omega)]
        · split
          · next h3 h4 => rw [if_neg (by omega)]
          · rfl

theorem memGet_erase {d : Byte} {lo : Nat} {m : List Host.Cell} (w : memWfFrom d lo m = true) (a x : Nat) :
    memGet d (Tab.erase m a) x = if x = a then d else memGet d m x := by
  induction m generalizing lo with
  | nil => simp [memGet, Tab.erase, Tab.get]
  | cons c t ih =>
    simp only [memWfFrom, Bool.and_eq_true, decide_eq_true_eq] at w
    have ht := memWfFrom_lt w.2
    have hi := ih w.2
    simp only [memGet, Tab.erase] at hi ⊢
    rw [List.filter_cons]
    split
    · next h =>
      simp only [bne_iff_ne] at h
      simp only [Tab.get, hi]
      split
      · next e => subst e; rw [if_neg h]
      · split
        · split <;> rfl
        · rfl
    · next h =>
      simp only [bne_iff_ne, ne_eq, Decidable.not_not] at h
      rw [hi]
      split
      · rfl
      · next hx =>
        simp only [Tab.get]
        rw [if_neg (by omega)]
        split
        · exact tabGet_below d (fun p hp => by have := ht p hp; omega)
        · rfl

/-- A byte stored reads back, and every other byte stays. -/
theorem memGet_memSet {d : Byte} {m : List Host.Cell} (w : Memory.wf d m = true) (a x : Nat) (b : Byte) :
    memGet d (memSet d m a b) x = if x = a then b else memGet d m x := by
  unfold memSet
  split
  · next h => rw [memGet_erase w]; simp [h]
  · exact tabGet_set d m a x b

end Sys2Proof.Machine
end

