-- ==== Sys2Proof/Laws/Notes.lean ====
section
/-! SUPPORT. What counting, raising events, writing host memory and signalling can change: the counters, the event queues, host
memory, the rings, the vectors and the writes not yet acknowledged, and nothing else. -/

namespace Sys2Proof.Machine

/-- `e'` differs from `e` at most in counters, event queues, host memory, rings, vectors and unacknowledged writes. -/
def Noted (e e' : Eng) : Prop :=
  ∃ (ctr : Tab Counter) (nwEvents : List (List Byte)) (host : List Host.Cell) (rings : Tab Ring) (irqs : Tab Irq)
    (unacked : List WriteRef) (evHeld : List (List Byte)) (evLost : Nat),
    e' = { e with
      ctr, nwEvents, host, hl := { e.hl with rings := rings, irqs := irqs, unacked := unacked, evHeld := evHeld, evLost := evLost } }

theorem Noted.rfl (e : Eng) : Noted e e := ⟨e.ctr, e.nwEvents, e.host, e.hl.rings, e.hl.irqs, e.hl.unacked, e.hl.evHeld, e.hl.evLost, by rfl⟩

theorem Noted.trans {a b c : Eng} (h : Noted a b) (k : Noted b c) : Noted a c := by
  obtain ⟨_, _, _, _, _, _, _, _, rfl⟩ := h
  obtain ⟨x1, x2, x3, x4, x5, x6, x7, x8, rfl⟩ := k
  exact ⟨x1, x2, x3, x4, x5, x6, x7, x8, by rfl⟩

theorem noted_bump (slot n : Nat) (e : Eng) : Noted e (bump slot n e).1 := by
  unfold bump
  dsimp only
  split
  · exact .rfl e
  · exact ⟨_, e.nwEvents, e.host, e.hl.rings, e.hl.irqs, e.hl.unacked, e.hl.evHeld, e.hl.evLost, by rfl⟩

theorem noted_bumps (l : List (Nat × Nat)) (e : Eng) : Noted e (bumps l e).1 := by
  induction l generalizing e with
  | nil => exact .rfl e
  | cons p t ih => exact (noted_bump p.1 p.2 e).trans (ih _)

theorem noted_hostStore (a : Nat) (bs : List Byte) (e : Eng) : Noted e (hostStore a bs e) :=
  ⟨e.ctr, e.nwEvents, _, e.hl.rings, e.hl.irqs, e.hl.unacked, e.hl.evHeld, e.hl.evLost, by rfl⟩

theorem noted_setRing (r : Nat) (f : Ring → Ring) (e : Eng) : Noted e (setRing r f e) :=
  ⟨e.ctr, e.nwEvents, e.host, _, e.hl.irqs, e.hl.unacked, e.hl.evHeld, e.hl.evLost, by rfl⟩

theorem noted_unacked (u : List WriteRef) (e : Eng) : Noted e { e with hl := { e.hl with unacked := u } } :=
  ⟨e.ctr, e.nwEvents, e.host, e.hl.rings, e.hl.irqs, u, e.hl.evHeld, e.hl.evLost, by rfl⟩

theorem noted_held (l : List (List Byte)) (n : Nat) (e : Eng) :
    Noted e { e with hl := { e.hl with evHeld := l, evLost := n } } :=
  ⟨e.ctr, e.nwEvents, e.host, e.hl.rings, e.hl.irqs, e.hl.unacked, l, n, by rfl⟩

theorem noted_irqs (t : Tab Irq) (e : Eng) : Noted e { e with hl := { e.hl with irqs := t } } :=
  ⟨e.ctr, e.nwEvents, e.host, e.hl.rings, t, e.hl.unacked, e.hl.evHeld, e.hl.evLost, by rfl⟩

theorem noted_putEventEntry (bs : List Byte) (e : Eng) : Noted e (putEventEntry bs e).1 :=
  (((noted_hostStore _ bs e).trans (noted_unacked _ _)).trans (noted_setRing 128 _ _)).trans (noted_bumps _ _)

theorem noted_putNwEvent (bs : List Byte) (e : Eng) : Noted e (putNwEvent bs e).1 := by
  unfold putNwEvent
  split
  · exact ⟨e.ctr, _, e.host, e.hl.rings, e.hl.irqs, e.hl.unacked, e.hl.evHeld, e.hl.evLost, by rfl⟩
  · exact noted_bumps _ e

theorem noted_putHostEvent (bs : List Byte) (e : Eng) : Noted e (putHostEvent bs e).1 := by
  unfold putHostEvent
  split
  · exact noted_putEventEntry bs e
  · split
    · exact noted_held _ e.hl.evLost e
    · exact (noted_held e.hl.evHeld (e.hl.evLost + 1) e).trans (noted_bumps _ _)

theorem noted_putEvent (v : Event) (e : Eng) : Noted e (putEvent v e).1 :=
  (noted_putNwEvent (eventBytes e v) e).trans (noted_putHostEvent _ _)

theorem noted_putEvents (l : List Event) (e : Eng) : Noted e (putEvents l e).1 := by
  induction l generalizing e with
  | nil => exact .rfl e
  | cons v t ih => exact (noted_putEvent v e).trans (ih _)

theorem noted_postEvents (n : Nat) (l : List Event) (e : Eng) : Noted e (postEvents n l e) := by
  induction n generalizing l e with
  | zero => exact .rfl e
  | succ n ih =>
    unfold postEvents
    dsimp only
    split
    · exact noted_putEvents l e
    · exact (noted_putEvents l e).trans (ih _ _)

theorem noted_raiseEvent (v : Event) (e : Eng) : Noted e (raiseEvent v e) := noted_postEvents 8 [v] e

theorem noted_count (slot n : Nat) (e : Eng) : Noted e (count slot n e) := by
  unfold count
  dsimp only
  split
  · exact (noted_bump slot n e).trans (noted_raiseEvent _ _)
  · exact noted_bump slot n e

theorem noted_counts (l : List (Nat × Nat)) (e : Eng) : Noted e (counts l e) := by
  induction l generalizing e with
  | nil => exact .rfl e
  | cons p t ih => exact (noted_count p.1 p.2 e).trans (ih _)

theorem noted_hostWrite (w : WriteRef) (a : Nat) (bs : List Byte) (e : Eng) : Noted e (hostWrite w a bs e) :=
  ((noted_hostStore a bs e).trans (noted_unacked _ _)).trans (noted_counts _ _)

theorem noted_irqSend (v : Nat) (e : Eng) : Noted e (irqSend v e) := (noted_hostWrite ..).trans (noted_count ..)

theorem noted_irqSignal (v : Nat) (e : Eng) : Noted e (irqSignal v e) := by
  unfold irqSignal
  split
  · exact noted_irqs _ e
  · split
    · exact noted_irqSend v e
    · exact .rfl e

theorem noted_ringSignal (r n : Nat) (irq : Bool) (e : Eng) : Noted e (ringSignal r n irq e) := by
  unfold ringSignal
  dsimp only
  split
  · exact (noted_setRing ..).trans (noted_irqSignal ..)
  · exact noted_setRing ..

theorem noted_publish (r n : Nat) (irq : Bool) (e : Eng) : Noted e (publish r n irq e) := noted_hostWrite ..

theorem noted_flushHeldF (n : Nat) (e : Eng) : Noted e (flushHeldF n e) := by
  induction n generalizing e with
  | zero => exact .rfl e
  | succ n ih =>
    unfold flushHeldF
    dsimp only
    split
    · exact .rfl e
    · split
      · exact (((noted_held _ e.hl.evLost e).trans (noted_putEventEntry _ _)).trans (noted_postEvents ..)).trans (ih _)
      · split
        · exact .rfl e
        · exact ((noted_held e.hl.evHeld 0 e).trans (noted_putEventEntry _ _)).trans (noted_postEvents ..)

theorem noted_flushHeld (e : Eng) : Noted e (flushHeld e) := noted_flushHeldF 257 e

/-! ## The fields that stay, for the simplifier -/

theorem Noted.variant {a b : Eng} (h : Noted a b) : b.variant = a.variant := by obtain ⟨_, _, _, _, _, _, _, _, rfl⟩ := h; rfl
theorem Noted.shut {a b : Eng} (h : Noted a b) : b.shut = a.shut := by obtain ⟨_, _, _, _, _, _, _, _, rfl⟩ := h; rfl
theorem Noted.tick {a b : Eng} (h : Noted a b) : b.tick = a.tick := by obtain ⟨_, _, _, _, _, _, _, _, rfl⟩ := h; rfl
theorem Noted.tickLatchHost {a b : Eng} (h : Noted a b) : b.tickLatchHost = a.tickLatchHost := by obtain ⟨_, _, _, _, _, _, _, _, rfl⟩ := h; rfl
theorem Noted.tickLatchNw {a b : Eng} (h : Noted a b) : b.tickLatchNw = a.tickLatchNw := by obtain ⟨_, _, _, _, _, _, _, _, rfl⟩ := h; rfl
theorem Noted.free {a b : Eng} (h : Noted a b) : b.free = a.free := by obtain ⟨_, _, _, _, _, _, _, _, rfl⟩ := h; rfl
theorem Noted.sels {a b : Eng} (h : Noted a b) : b.sels = a.sels := by obtain ⟨_, _, _, _, _, _, _, _, rfl⟩ := h; rfl
theorem Noted.mt {a b : Eng} (h : Noted a b) : b.mt = a.mt := by obtain ⟨_, _, _, _, _, _, _, _, rfl⟩ := h; rfl
theorem Noted.store {a b : Eng} (h : Noted a b) : b.store = a.store := by obtain ⟨_, _, _, _, _, _, _, _, rfl⟩ := h; rfl
theorem Noted.steps {a b : Eng} (h : Noted a b) : b.steps = a.steps := by obtain ⟨_, _, _, _, _, _, _, _, rfl⟩ := h; rfl
theorem Noted.setup {a b : Eng} (h : Noted a b) : b.setup = a.setup := by obtain ⟨_, _, _, _, _, _, _, _, rfl⟩ := h; rfl
theorem Noted.qu {a b : Eng} (h : Noted a b) : b.qu = a.qu := by obtain ⟨_, _, _, _, _, _, _, _, rfl⟩ := h; rfl
theorem Noted.quDefault {a b : Eng} (h : Noted a b) : b.quDefault = a.quDefault := by obtain ⟨_, _, _, _, _, _, _, _, rfl⟩ := h; rfl
theorem Noted.st {a b : Eng} (h : Noted a b) : b.st = a.st := by obtain ⟨_, _, _, _, _, _, _, _, rfl⟩ := h; rfl
theorem Noted.ix {a b : Eng} (h : Noted a b) : b.ix = a.ix := by obtain ⟨_, _, _, _, _, _, _, _, rfl⟩ := h; rfl
theorem Noted.fb {a b : Eng} (h : Noted a b) : b.fb = a.fb := by obtain ⟨_, _, _, _, _, _, _, _, rfl⟩ := h; rfl
theorem Noted.ls {a b : Eng} (h : Noted a b) : b.ls = a.ls := by obtain ⟨_, _, _, _, _, _, _, _, rfl⟩ := h; rfl
theorem Noted.rg {a b : Eng} (h : Noted a b) : b.rg = a.rg := by obtain ⟨_, _, _, _, _, _, _, _, rfl⟩ := h; rfl
theorem Noted.build {a b : Eng} (h : Noted a b) : b.build = a.build := by obtain ⟨_, _, _, _, _, _, _, _, rfl⟩ := h; rfl
theorem Noted.nextBuild {a b : Eng} (h : Noted a b) : b.nextBuild = a.nextBuild := by obtain ⟨_, _, _, _, _, _, _, _, rfl⟩ := h; rfl
theorem Noted.coreUp {a b : Eng} (h : Noted a b) : b.coreUp = a.coreUp := by obtain ⟨_, _, _, _, _, _, _, _, rfl⟩ := h; rfl
theorem Noted.stopped {a b : Eng} (h : Noted a b) : b.stopped = a.stopped := by obtain ⟨_, _, _, _, _, _, _, _, rfl⟩ := h; rfl
theorem Noted.hl_attach {a b : Eng} (h : Noted a b) : b.hl.attach = a.hl.attach := by obtain ⟨_, _, _, _, _, _, _, _, rfl⟩ := h; rfl
theorem Noted.hl_turns {a b : Eng} (h : Noted a b) : b.hl.turns = a.hl.turns := by obtain ⟨_, _, _, _, _, _, _, _, rfl⟩ := h; rfl
theorem Noted.hl_cause {a b : Eng} (h : Noted a b) : b.hl.cause = a.hl.cause := by obtain ⟨_, _, _, _, _, _, _, _, rfl⟩ := h; rfl
theorem Noted.hl_helloSeen {a b : Eng} (h : Noted a b) : b.hl.helloSeen = a.hl.helloSeen := by obtain ⟨_, _, _, _, _, _, _, _, rfl⟩ := h; rfl
theorem Noted.hl_heartbeatMs {a b : Eng} (h : Noted a b) : b.hl.heartbeatMs = a.hl.heartbeatMs := by obtain ⟨_, _, _, _, _, _, _, _, rfl⟩ := h; rfl
theorem Noted.hl_lastBeat {a b : Eng} (h : Noted a b) : b.hl.lastBeat = a.hl.lastBeat := by obtain ⟨_, _, _, _, _, _, _, _, rfl⟩ := h; rfl
theorem Noted.hl_drain {a b : Eng} (h : Noted a b) : b.hl.drain = a.hl.drain := by obtain ⟨_, _, _, _, _, _, _, _, rfl⟩ := h; rfl
theorem Noted.hl_mbVector {a b : Eng} (h : Noted a b) : b.hl.mbVector = a.hl.mbVector := by obtain ⟨_, _, _, _, _, _, _, _, rfl⟩ := h; rfl
theorem Noted.hl_modules {a b : Eng} (h : Noted a b) : b.hl.modules = a.hl.modules := by obtain ⟨_, _, _, _, _, _, _, _, rfl⟩ := h; rfl
theorem Noted.hl_statusBase {a b : Eng} (h : Noted a b) : b.hl.statusBase = a.hl.statusBase := by obtain ⟨_, _, _, _, _, _, _, _, rfl⟩ := h; rfl
theorem Noted.hl_ctxs {a b : Eng} (h : Noted a b) : b.hl.ctxs = a.hl.ctxs := by obtain ⟨_, _, _, _, _, _, _, _, rfl⟩ := h; rfl
theorem Noted.hl_cmds {a b : Eng} (h : Noted a b) : b.hl.cmds = a.hl.cmds := by obtain ⟨_, _, _, _, _, _, _, _, rfl⟩ := h; rfl
theorem Noted.hl_nextId {a b : Eng} (h : Noted a b) : b.hl.nextId = a.hl.nextId := by obtain ⟨_, _, _, _, _, _, _, _, rfl⟩ := h; rfl
theorem Noted.hl_mbHeld {a b : Eng} (h : Noted a b) : b.hl.mbHeld = a.hl.mbHeld := by obtain ⟨_, _, _, _, _, _, _, _, rfl⟩ := h; rfl
theorem Noted.hl_mailbox {a b : Eng} (h : Noted a b) : b.hl.mailbox = a.hl.mailbox := by obtain ⟨_, _, _, _, _, _, _, _, rfl⟩ := h; rfl
theorem Noted.hl_readData {a b : Eng} (h : Noted a b) : b.hl.readData = a.hl.readData := by obtain ⟨_, _, _, _, _, _, _, _, rfl⟩ := h; rfl

@[simp] theorem count_variant (n k : Nat) (e : Eng) : (count n k e).variant = e.variant := (noted_count ..).variant
@[simp] theorem count_shut (n k : Nat) (e : Eng) : (count n k e).shut = e.shut := (noted_count ..).shut
@[simp] theorem count_tick (n k : Nat) (e : Eng) : (count n k e).tick = e.tick := (noted_count ..).tick
@[simp] theorem count_tickLatchHost (n k : Nat) (e : Eng) : (count n k e).tickLatchHost = e.tickLatchHost := (noted_count ..).tickLatchHost
@[simp] theorem count_tickLatchNw (n k : Nat) (e : Eng) : (count n k e).tickLatchNw = e.tickLatchNw := (noted_count ..).tickLatchNw
@[simp] theorem count_free (n k : Nat) (e : Eng) : (count n k e).free = e.free := (noted_count ..).free
@[simp] theorem count_sels (n k : Nat) (e : Eng) : (count n k e).sels = e.sels := (noted_count ..).sels
@[simp] theorem count_mt (n k : Nat) (e : Eng) : (count n k e).mt = e.mt := (noted_count ..).mt
@[simp] theorem count_store (n k : Nat) (e : Eng) : (count n k e).store = e.store := (noted_count ..).store
@[simp] theorem count_steps (n k : Nat) (e : Eng) : (count n k e).steps = e.steps := (noted_count ..).steps
@[simp] theorem count_setup (n k : Nat) (e : Eng) : (count n k e).setup = e.setup := (noted_count ..).setup
@[simp] theorem count_qu (n k : Nat) (e : Eng) : (count n k e).qu = e.qu := (noted_count ..).qu
@[simp] theorem count_quDefault (n k : Nat) (e : Eng) : (count n k e).quDefault = e.quDefault := (noted_count ..).quDefault
@[simp] theorem count_st (n k : Nat) (e : Eng) : (count n k e).st = e.st := (noted_count ..).st
@[simp] theorem count_ix (n k : Nat) (e : Eng) : (count n k e).ix = e.ix := (noted_count ..).ix
@[simp] theorem count_fb (n k : Nat) (e : Eng) : (count n k e).fb = e.fb := (noted_count ..).fb
@[simp] theorem count_ls (n k : Nat) (e : Eng) : (count n k e).ls = e.ls := (noted_count ..).ls
@[simp] theorem count_rg (n k : Nat) (e : Eng) : (count n k e).rg = e.rg := (noted_count ..).rg
@[simp] theorem count_build (n k : Nat) (e : Eng) : (count n k e).build = e.build := (noted_count ..).build
@[simp] theorem count_nextBuild (n k : Nat) (e : Eng) : (count n k e).nextBuild = e.nextBuild := (noted_count ..).nextBuild
@[simp] theorem count_coreUp (n k : Nat) (e : Eng) : (count n k e).coreUp = e.coreUp := (noted_count ..).coreUp
@[simp] theorem count_stopped (n k : Nat) (e : Eng) : (count n k e).stopped = e.stopped := (noted_count ..).stopped
@[simp] theorem count_hl_attach (n k : Nat) (e : Eng) : (count n k e).hl.attach = e.hl.attach := (noted_count ..).hl_attach
@[simp] theorem count_hl_turns (n k : Nat) (e : Eng) : (count n k e).hl.turns = e.hl.turns := (noted_count ..).hl_turns
@[simp] theorem count_hl_cause (n k : Nat) (e : Eng) : (count n k e).hl.cause = e.hl.cause := (noted_count ..).hl_cause
@[simp] theorem count_hl_helloSeen (n k : Nat) (e : Eng) : (count n k e).hl.helloSeen = e.hl.helloSeen := (noted_count ..).hl_helloSeen
@[simp] theorem count_hl_heartbeatMs (n k : Nat) (e : Eng) : (count n k e).hl.heartbeatMs = e.hl.heartbeatMs := (noted_count ..).hl_heartbeatMs
@[simp] theorem count_hl_lastBeat (n k : Nat) (e : Eng) : (count n k e).hl.lastBeat = e.hl.lastBeat := (noted_count ..).hl_lastBeat
@[simp] theorem count_hl_drain (n k : Nat) (e : Eng) : (count n k e).hl.drain = e.hl.drain := (noted_count ..).hl_drain
@[simp] theorem count_hl_mbVector (n k : Nat) (e : Eng) : (count n k e).hl.mbVector = e.hl.mbVector := (noted_count ..).hl_mbVector
@[simp] theorem count_hl_modules (n k : Nat) (e : Eng) : (count n k e).hl.modules = e.hl.modules := (noted_count ..).hl_modules
@[simp] theorem count_hl_statusBase (n k : Nat) (e : Eng) : (count n k e).hl.statusBase = e.hl.statusBase := (noted_count ..).hl_statusBase
@[simp] theorem count_hl_ctxs (n k : Nat) (e : Eng) : (count n k e).hl.ctxs = e.hl.ctxs := (noted_count ..).hl_ctxs
@[simp] theorem count_hl_cmds (n k : Nat) (e : Eng) : (count n k e).hl.cmds = e.hl.cmds := (noted_count ..).hl_cmds
@[simp] theorem count_hl_nextId (n k : Nat) (e : Eng) : (count n k e).hl.nextId = e.hl.nextId := (noted_count ..).hl_nextId
@[simp] theorem count_hl_mbHeld (n k : Nat) (e : Eng) : (count n k e).hl.mbHeld = e.hl.mbHeld := (noted_count ..).hl_mbHeld
@[simp] theorem count_hl_mailbox (n k : Nat) (e : Eng) : (count n k e).hl.mailbox = e.hl.mailbox := (noted_count ..).hl_mailbox
@[simp] theorem count_hl_readData (n k : Nat) (e : Eng) : (count n k e).hl.readData = e.hl.readData := (noted_count ..).hl_readData
@[simp] theorem counts_variant (l : List (Nat × Nat)) (e : Eng) : (counts l e).variant = e.variant := (noted_counts ..).variant
@[simp] theorem counts_shut (l : List (Nat × Nat)) (e : Eng) : (counts l e).shut = e.shut := (noted_counts ..).shut
@[simp] theorem counts_tick (l : List (Nat × Nat)) (e : Eng) : (counts l e).tick = e.tick := (noted_counts ..).tick
@[simp] theorem counts_tickLatchHost (l : List (Nat × Nat)) (e : Eng) : (counts l e).tickLatchHost = e.tickLatchHost := (noted_counts ..).tickLatchHost
@[simp] theorem counts_tickLatchNw (l : List (Nat × Nat)) (e : Eng) : (counts l e).tickLatchNw = e.tickLatchNw := (noted_counts ..).tickLatchNw
@[simp] theorem counts_free (l : List (Nat × Nat)) (e : Eng) : (counts l e).free = e.free := (noted_counts ..).free
@[simp] theorem counts_sels (l : List (Nat × Nat)) (e : Eng) : (counts l e).sels = e.sels := (noted_counts ..).sels
@[simp] theorem counts_mt (l : List (Nat × Nat)) (e : Eng) : (counts l e).mt = e.mt := (noted_counts ..).mt
@[simp] theorem counts_store (l : List (Nat × Nat)) (e : Eng) : (counts l e).store = e.store := (noted_counts ..).store
@[simp] theorem counts_steps (l : List (Nat × Nat)) (e : Eng) : (counts l e).steps = e.steps := (noted_counts ..).steps
@[simp] theorem counts_setup (l : List (Nat × Nat)) (e : Eng) : (counts l e).setup = e.setup := (noted_counts ..).setup
@[simp] theorem counts_qu (l : List (Nat × Nat)) (e : Eng) : (counts l e).qu = e.qu := (noted_counts ..).qu
@[simp] theorem counts_quDefault (l : List (Nat × Nat)) (e : Eng) : (counts l e).quDefault = e.quDefault := (noted_counts ..).quDefault
@[simp] theorem counts_st (l : List (Nat × Nat)) (e : Eng) : (counts l e).st = e.st := (noted_counts ..).st
@[simp] theorem counts_ix (l : List (Nat × Nat)) (e : Eng) : (counts l e).ix = e.ix := (noted_counts ..).ix
@[simp] theorem counts_fb (l : List (Nat × Nat)) (e : Eng) : (counts l e).fb = e.fb := (noted_counts ..).fb
@[simp] theorem counts_ls (l : List (Nat × Nat)) (e : Eng) : (counts l e).ls = e.ls := (noted_counts ..).ls
@[simp] theorem counts_rg (l : List (Nat × Nat)) (e : Eng) : (counts l e).rg = e.rg := (noted_counts ..).rg
@[simp] theorem counts_build (l : List (Nat × Nat)) (e : Eng) : (counts l e).build = e.build := (noted_counts ..).build
@[simp] theorem counts_nextBuild (l : List (Nat × Nat)) (e : Eng) : (counts l e).nextBuild = e.nextBuild := (noted_counts ..).nextBuild
@[simp] theorem counts_coreUp (l : List (Nat × Nat)) (e : Eng) : (counts l e).coreUp = e.coreUp := (noted_counts ..).coreUp
@[simp] theorem counts_stopped (l : List (Nat × Nat)) (e : Eng) : (counts l e).stopped = e.stopped := (noted_counts ..).stopped
@[simp] theorem counts_hl_attach (l : List (Nat × Nat)) (e : Eng) : (counts l e).hl.attach = e.hl.attach := (noted_counts ..).hl_attach
@[simp] theorem counts_hl_turns (l : List (Nat × Nat)) (e : Eng) : (counts l e).hl.turns = e.hl.turns := (noted_counts ..).hl_turns
@[simp] theorem counts_hl_cause (l : List (Nat × Nat)) (e : Eng) : (counts l e).hl.cause = e.hl.cause := (noted_counts ..).hl_cause
@[simp] theorem counts_hl_helloSeen (l : List (Nat × Nat)) (e : Eng) : (counts l e).hl.helloSeen = e.hl.helloSeen := (noted_counts ..).hl_helloSeen
@[simp] theorem counts_hl_heartbeatMs (l : List (Nat × Nat)) (e : Eng) : (counts l e).hl.heartbeatMs = e.hl.heartbeatMs := (noted_counts ..).hl_heartbeatMs
@[simp] theorem counts_hl_lastBeat (l : List (Nat × Nat)) (e : Eng) : (counts l e).hl.lastBeat = e.hl.lastBeat := (noted_counts ..).hl_lastBeat
@[simp] theorem counts_hl_drain (l : List (Nat × Nat)) (e : Eng) : (counts l e).hl.drain = e.hl.drain := (noted_counts ..).hl_drain
@[simp] theorem counts_hl_mbVector (l : List (Nat × Nat)) (e : Eng) : (counts l e).hl.mbVector = e.hl.mbVector := (noted_counts ..).hl_mbVector
@[simp] theorem counts_hl_modules (l : List (Nat × Nat)) (e : Eng) : (counts l e).hl.modules = e.hl.modules := (noted_counts ..).hl_modules
@[simp] theorem counts_hl_statusBase (l : List (Nat × Nat)) (e : Eng) : (counts l e).hl.statusBase = e.hl.statusBase := (noted_counts ..).hl_statusBase
@[simp] theorem counts_hl_ctxs (l : List (Nat × Nat)) (e : Eng) : (counts l e).hl.ctxs = e.hl.ctxs := (noted_counts ..).hl_ctxs
@[simp] theorem counts_hl_cmds (l : List (Nat × Nat)) (e : Eng) : (counts l e).hl.cmds = e.hl.cmds := (noted_counts ..).hl_cmds
@[simp] theorem counts_hl_nextId (l : List (Nat × Nat)) (e : Eng) : (counts l e).hl.nextId = e.hl.nextId := (noted_counts ..).hl_nextId
@[simp] theorem counts_hl_mbHeld (l : List (Nat × Nat)) (e : Eng) : (counts l e).hl.mbHeld = e.hl.mbHeld := (noted_counts ..).hl_mbHeld
@[simp] theorem counts_hl_mailbox (l : List (Nat × Nat)) (e : Eng) : (counts l e).hl.mailbox = e.hl.mailbox := (noted_counts ..).hl_mailbox
@[simp] theorem counts_hl_readData (l : List (Nat × Nat)) (e : Eng) : (counts l e).hl.readData = e.hl.readData := (noted_counts ..).hl_readData
@[simp] theorem raiseEvent_variant (v : Event) (e : Eng) : (raiseEvent v e).variant = e.variant := (noted_raiseEvent ..).variant
@[simp] theorem raiseEvent_shut (v : Event) (e : Eng) : (raiseEvent v e).shut = e.shut := (noted_raiseEvent ..).shut
@[simp] theorem raiseEvent_tick (v : Event) (e : Eng) : (raiseEvent v e).tick = e.tick := (noted_raiseEvent ..).tick
@[simp] theorem raiseEvent_tickLatchHost (v : Event) (e : Eng) : (raiseEvent v e).tickLatchHost = e.tickLatchHost := (noted_raiseEvent ..).tickLatchHost
@[simp] theorem raiseEvent_tickLatchNw (v : Event) (e : Eng) : (raiseEvent v e).tickLatchNw = e.tickLatchNw := (noted_raiseEvent ..).tickLatchNw
@[simp] theorem raiseEvent_free (v : Event) (e : Eng) : (raiseEvent v e).free = e.free := (noted_raiseEvent ..).free
@[simp] theorem raiseEvent_sels (v : Event) (e : Eng) : (raiseEvent v e).sels = e.sels := (noted_raiseEvent ..).sels
@[simp] theorem raiseEvent_mt (v : Event) (e : Eng) : (raiseEvent v e).mt = e.mt := (noted_raiseEvent ..).mt
@[simp] theorem raiseEvent_store (v : Event) (e : Eng) : (raiseEvent v e).store = e.store := (noted_raiseEvent ..).store
@[simp] theorem raiseEvent_steps (v : Event) (e : Eng) : (raiseEvent v e).steps = e.steps := (noted_raiseEvent ..).steps
@[simp] theorem raiseEvent_setup (v : Event) (e : Eng) : (raiseEvent v e).setup = e.setup := (noted_raiseEvent ..).setup
@[simp] theorem raiseEvent_qu (v : Event) (e : Eng) : (raiseEvent v e).qu = e.qu := (noted_raiseEvent ..).qu
@[simp] theorem raiseEvent_quDefault (v : Event) (e : Eng) : (raiseEvent v e).quDefault = e.quDefault := (noted_raiseEvent ..).quDefault
@[simp] theorem raiseEvent_st (v : Event) (e : Eng) : (raiseEvent v e).st = e.st := (noted_raiseEvent ..).st
@[simp] theorem raiseEvent_ix (v : Event) (e : Eng) : (raiseEvent v e).ix = e.ix := (noted_raiseEvent ..).ix
@[simp] theorem raiseEvent_fb (v : Event) (e : Eng) : (raiseEvent v e).fb = e.fb := (noted_raiseEvent ..).fb
@[simp] theorem raiseEvent_ls (v : Event) (e : Eng) : (raiseEvent v e).ls = e.ls := (noted_raiseEvent ..).ls
@[simp] theorem raiseEvent_rg (v : Event) (e : Eng) : (raiseEvent v e).rg = e.rg := (noted_raiseEvent ..).rg
@[simp] theorem raiseEvent_build (v : Event) (e : Eng) : (raiseEvent v e).build = e.build := (noted_raiseEvent ..).build
@[simp] theorem raiseEvent_nextBuild (v : Event) (e : Eng) : (raiseEvent v e).nextBuild = e.nextBuild := (noted_raiseEvent ..).nextBuild
@[simp] theorem raiseEvent_coreUp (v : Event) (e : Eng) : (raiseEvent v e).coreUp = e.coreUp := (noted_raiseEvent ..).coreUp
@[simp] theorem raiseEvent_stopped (v : Event) (e : Eng) : (raiseEvent v e).stopped = e.stopped := (noted_raiseEvent ..).stopped
@[simp] theorem raiseEvent_hl_attach (v : Event) (e : Eng) : (raiseEvent v e).hl.attach = e.hl.attach := (noted_raiseEvent ..).hl_attach
@[simp] theorem raiseEvent_hl_turns (v : Event) (e : Eng) : (raiseEvent v e).hl.turns = e.hl.turns := (noted_raiseEvent ..).hl_turns
@[simp] theorem raiseEvent_hl_cause (v : Event) (e : Eng) : (raiseEvent v e).hl.cause = e.hl.cause := (noted_raiseEvent ..).hl_cause
@[simp] theorem raiseEvent_hl_helloSeen (v : Event) (e : Eng) : (raiseEvent v e).hl.helloSeen = e.hl.helloSeen := (noted_raiseEvent ..).hl_helloSeen
@[simp] theorem raiseEvent_hl_heartbeatMs (v : Event) (e : Eng) : (raiseEvent v e).hl.heartbeatMs = e.hl.heartbeatMs := (noted_raiseEvent ..).hl_heartbeatMs
@[simp] theorem raiseEvent_hl_lastBeat (v : Event) (e : Eng) : (raiseEvent v e).hl.lastBeat = e.hl.lastBeat := (noted_raiseEvent ..).hl_lastBeat
@[simp] theorem raiseEvent_hl_drain (v : Event) (e : Eng) : (raiseEvent v e).hl.drain = e.hl.drain := (noted_raiseEvent ..).hl_drain
@[simp] theorem raiseEvent_hl_mbVector (v : Event) (e : Eng) : (raiseEvent v e).hl.mbVector = e.hl.mbVector := (noted_raiseEvent ..).hl_mbVector
@[simp] theorem raiseEvent_hl_modules (v : Event) (e : Eng) : (raiseEvent v e).hl.modules = e.hl.modules := (noted_raiseEvent ..).hl_modules
@[simp] theorem raiseEvent_hl_statusBase (v : Event) (e : Eng) : (raiseEvent v e).hl.statusBase = e.hl.statusBase := (noted_raiseEvent ..).hl_statusBase
@[simp] theorem raiseEvent_hl_ctxs (v : Event) (e : Eng) : (raiseEvent v e).hl.ctxs = e.hl.ctxs := (noted_raiseEvent ..).hl_ctxs
@[simp] theorem raiseEvent_hl_cmds (v : Event) (e : Eng) : (raiseEvent v e).hl.cmds = e.hl.cmds := (noted_raiseEvent ..).hl_cmds
@[simp] theorem raiseEvent_hl_nextId (v : Event) (e : Eng) : (raiseEvent v e).hl.nextId = e.hl.nextId := (noted_raiseEvent ..).hl_nextId
@[simp] theorem raiseEvent_hl_mbHeld (v : Event) (e : Eng) : (raiseEvent v e).hl.mbHeld = e.hl.mbHeld := (noted_raiseEvent ..).hl_mbHeld
@[simp] theorem raiseEvent_hl_mailbox (v : Event) (e : Eng) : (raiseEvent v e).hl.mailbox = e.hl.mailbox := (noted_raiseEvent ..).hl_mailbox
@[simp] theorem raiseEvent_hl_readData (v : Event) (e : Eng) : (raiseEvent v e).hl.readData = e.hl.readData := (noted_raiseEvent ..).hl_readData
@[simp] theorem hostWrite_variant (w : WriteRef) (a : Nat) (bs : List Byte) (e : Eng) : (hostWrite w a bs e).variant = e.variant := (noted_hostWrite ..).variant
@[simp] theorem hostWrite_shut (w : WriteRef) (a : Nat) (bs : List Byte) (e : Eng) : (hostWrite w a bs e).shut = e.shut := (noted_hostWrite ..).shut
@[simp] theorem hostWrite_tick (w : WriteRef) (a : Nat) (bs : List Byte) (e : Eng) : (hostWrite w a bs e).tick = e.tick := (noted_hostWrite ..).tick
@[simp] theorem hostWrite_tickLatchHost (w : WriteRef) (a : Nat) (bs : List Byte) (e : Eng) : (hostWrite w a bs e).tickLatchHost = e.tickLatchHost := (noted_hostWrite ..).tickLatchHost
@[simp] theorem hostWrite_tickLatchNw (w : WriteRef) (a : Nat) (bs : List Byte) (e : Eng) : (hostWrite w a bs e).tickLatchNw = e.tickLatchNw := (noted_hostWrite ..).tickLatchNw
@[simp] theorem hostWrite_free (w : WriteRef) (a : Nat) (bs : List Byte) (e : Eng) : (hostWrite w a bs e).free = e.free := (noted_hostWrite ..).free
@[simp] theorem hostWrite_sels (w : WriteRef) (a : Nat) (bs : List Byte) (e : Eng) : (hostWrite w a bs e).sels = e.sels := (noted_hostWrite ..).sels
@[simp] theorem hostWrite_mt (w : WriteRef) (a : Nat) (bs : List Byte) (e : Eng) : (hostWrite w a bs e).mt = e.mt := (noted_hostWrite ..).mt
@[simp] theorem hostWrite_store (w : WriteRef) (a : Nat) (bs : List Byte) (e : Eng) : (hostWrite w a bs e).store = e.store := (noted_hostWrite ..).store
@[simp] theorem hostWrite_steps (w : WriteRef) (a : Nat) (bs : List Byte) (e : Eng) : (hostWrite w a bs e).steps = e.steps := (noted_hostWrite ..).steps
@[simp] theorem hostWrite_setup (w : WriteRef) (a : Nat) (bs : List Byte) (e : Eng) : (hostWrite w a bs e).setup = e.setup := (noted_hostWrite ..).setup
@[simp] theorem hostWrite_qu (w : WriteRef) (a : Nat) (bs : List Byte) (e : Eng) : (hostWrite w a bs e).qu = e.qu := (noted_hostWrite ..).qu
@[simp] theorem hostWrite_quDefault (w : WriteRef) (a : Nat) (bs : List Byte) (e : Eng) : (hostWrite w a bs e).quDefault = e.quDefault := (noted_hostWrite ..).quDefault
@[simp] theorem hostWrite_st (w : WriteRef) (a : Nat) (bs : List Byte) (e : Eng) : (hostWrite w a bs e).st = e.st := (noted_hostWrite ..).st
@[simp] theorem hostWrite_ix (w : WriteRef) (a : Nat) (bs : List Byte) (e : Eng) : (hostWrite w a bs e).ix = e.ix := (noted_hostWrite ..).ix
@[simp] theorem hostWrite_fb (w : WriteRef) (a : Nat) (bs : List Byte) (e : Eng) : (hostWrite w a bs e).fb = e.fb := (noted_hostWrite ..).fb
@[simp] theorem hostWrite_ls (w : WriteRef) (a : Nat) (bs : List Byte) (e : Eng) : (hostWrite w a bs e).ls = e.ls := (noted_hostWrite ..).ls
@[simp] theorem hostWrite_rg (w : WriteRef) (a : Nat) (bs : List Byte) (e : Eng) : (hostWrite w a bs e).rg = e.rg := (noted_hostWrite ..).rg
@[simp] theorem hostWrite_build (w : WriteRef) (a : Nat) (bs : List Byte) (e : Eng) : (hostWrite w a bs e).build = e.build := (noted_hostWrite ..).build
@[simp] theorem hostWrite_nextBuild (w : WriteRef) (a : Nat) (bs : List Byte) (e : Eng) : (hostWrite w a bs e).nextBuild = e.nextBuild := (noted_hostWrite ..).nextBuild
@[simp] theorem hostWrite_coreUp (w : WriteRef) (a : Nat) (bs : List Byte) (e : Eng) : (hostWrite w a bs e).coreUp = e.coreUp := (noted_hostWrite ..).coreUp
@[simp] theorem hostWrite_stopped (w : WriteRef) (a : Nat) (bs : List Byte) (e : Eng) : (hostWrite w a bs e).stopped = e.stopped := (noted_hostWrite ..).stopped
@[simp] theorem hostWrite_hl_attach (w : WriteRef) (a : Nat) (bs : List Byte) (e : Eng) : (hostWrite w a bs e).hl.attach = e.hl.attach := (noted_hostWrite ..).hl_attach
@[simp] theorem hostWrite_hl_turns (w : WriteRef) (a : Nat) (bs : List Byte) (e : Eng) : (hostWrite w a bs e).hl.turns = e.hl.turns := (noted_hostWrite ..).hl_turns
@[simp] theorem hostWrite_hl_cause (w : WriteRef) (a : Nat) (bs : List Byte) (e : Eng) : (hostWrite w a bs e).hl.cause = e.hl.cause := (noted_hostWrite ..).hl_cause
@[simp] theorem hostWrite_hl_helloSeen (w : WriteRef) (a : Nat) (bs : List Byte) (e : Eng) : (hostWrite w a bs e).hl.helloSeen = e.hl.helloSeen := (noted_hostWrite ..).hl_helloSeen
@[simp] theorem hostWrite_hl_heartbeatMs (w : WriteRef) (a : Nat) (bs : List Byte) (e : Eng) : (hostWrite w a bs e).hl.heartbeatMs = e.hl.heartbeatMs := (noted_hostWrite ..).hl_heartbeatMs
@[simp] theorem hostWrite_hl_lastBeat (w : WriteRef) (a : Nat) (bs : List Byte) (e : Eng) : (hostWrite w a bs e).hl.lastBeat = e.hl.lastBeat := (noted_hostWrite ..).hl_lastBeat
@[simp] theorem hostWrite_hl_drain (w : WriteRef) (a : Nat) (bs : List Byte) (e : Eng) : (hostWrite w a bs e).hl.drain = e.hl.drain := (noted_hostWrite ..).hl_drain
@[simp] theorem hostWrite_hl_mbVector (w : WriteRef) (a : Nat) (bs : List Byte) (e : Eng) : (hostWrite w a bs e).hl.mbVector = e.hl.mbVector := (noted_hostWrite ..).hl_mbVector
@[simp] theorem hostWrite_hl_modules (w : WriteRef) (a : Nat) (bs : List Byte) (e : Eng) : (hostWrite w a bs e).hl.modules = e.hl.modules := (noted_hostWrite ..).hl_modules
@[simp] theorem hostWrite_hl_statusBase (w : WriteRef) (a : Nat) (bs : List Byte) (e : Eng) : (hostWrite w a bs e).hl.statusBase = e.hl.statusBase := (noted_hostWrite ..).hl_statusBase
@[simp] theorem hostWrite_hl_ctxs (w : WriteRef) (a : Nat) (bs : List Byte) (e : Eng) : (hostWrite w a bs e).hl.ctxs = e.hl.ctxs := (noted_hostWrite ..).hl_ctxs
@[simp] theorem hostWrite_hl_cmds (w : WriteRef) (a : Nat) (bs : List Byte) (e : Eng) : (hostWrite w a bs e).hl.cmds = e.hl.cmds := (noted_hostWrite ..).hl_cmds
@[simp] theorem hostWrite_hl_nextId (w : WriteRef) (a : Nat) (bs : List Byte) (e : Eng) : (hostWrite w a bs e).hl.nextId = e.hl.nextId := (noted_hostWrite ..).hl_nextId
@[simp] theorem hostWrite_hl_mbHeld (w : WriteRef) (a : Nat) (bs : List Byte) (e : Eng) : (hostWrite w a bs e).hl.mbHeld = e.hl.mbHeld := (noted_hostWrite ..).hl_mbHeld
@[simp] theorem hostWrite_hl_mailbox (w : WriteRef) (a : Nat) (bs : List Byte) (e : Eng) : (hostWrite w a bs e).hl.mailbox = e.hl.mailbox := (noted_hostWrite ..).hl_mailbox
@[simp] theorem hostWrite_hl_readData (w : WriteRef) (a : Nat) (bs : List Byte) (e : Eng) : (hostWrite w a bs e).hl.readData = e.hl.readData := (noted_hostWrite ..).hl_readData
@[simp] theorem irqSignal_variant (v : Nat) (e : Eng) : (irqSignal v e).variant = e.variant := (noted_irqSignal ..).variant
@[simp] theorem irqSignal_shut (v : Nat) (e : Eng) : (irqSignal v e).shut = e.shut := (noted_irqSignal ..).shut
@[simp] theorem irqSignal_tick (v : Nat) (e : Eng) : (irqSignal v e).tick = e.tick := (noted_irqSignal ..).tick
@[simp] theorem irqSignal_tickLatchHost (v : Nat) (e : Eng) : (irqSignal v e).tickLatchHost = e.tickLatchHost := (noted_irqSignal ..).tickLatchHost
@[simp] theorem irqSignal_tickLatchNw (v : Nat) (e : Eng) : (irqSignal v e).tickLatchNw = e.tickLatchNw := (noted_irqSignal ..).tickLatchNw
@[simp] theorem irqSignal_free (v : Nat) (e : Eng) : (irqSignal v e).free = e.free := (noted_irqSignal ..).free
@[simp] theorem irqSignal_sels (v : Nat) (e : Eng) : (irqSignal v e).sels = e.sels := (noted_irqSignal ..).sels
@[simp] theorem irqSignal_mt (v : Nat) (e : Eng) : (irqSignal v e).mt = e.mt := (noted_irqSignal ..).mt
@[simp] theorem irqSignal_store (v : Nat) (e : Eng) : (irqSignal v e).store = e.store := (noted_irqSignal ..).store
@[simp] theorem irqSignal_steps (v : Nat) (e : Eng) : (irqSignal v e).steps = e.steps := (noted_irqSignal ..).steps
@[simp] theorem irqSignal_setup (v : Nat) (e : Eng) : (irqSignal v e).setup = e.setup := (noted_irqSignal ..).setup
@[simp] theorem irqSignal_qu (v : Nat) (e : Eng) : (irqSignal v e).qu = e.qu := (noted_irqSignal ..).qu
@[simp] theorem irqSignal_quDefault (v : Nat) (e : Eng) : (irqSignal v e).quDefault = e.quDefault := (noted_irqSignal ..).quDefault
@[simp] theorem irqSignal_st (v : Nat) (e : Eng) : (irqSignal v e).st = e.st := (noted_irqSignal ..).st
@[simp] theorem irqSignal_ix (v : Nat) (e : Eng) : (irqSignal v e).ix = e.ix := (noted_irqSignal ..).ix
@[simp] theorem irqSignal_fb (v : Nat) (e : Eng) : (irqSignal v e).fb = e.fb := (noted_irqSignal ..).fb
@[simp] theorem irqSignal_ls (v : Nat) (e : Eng) : (irqSignal v e).ls = e.ls := (noted_irqSignal ..).ls
@[simp] theorem irqSignal_rg (v : Nat) (e : Eng) : (irqSignal v e).rg = e.rg := (noted_irqSignal ..).rg
@[simp] theorem irqSignal_build (v : Nat) (e : Eng) : (irqSignal v e).build = e.build := (noted_irqSignal ..).build
@[simp] theorem irqSignal_nextBuild (v : Nat) (e : Eng) : (irqSignal v e).nextBuild = e.nextBuild := (noted_irqSignal ..).nextBuild
@[simp] theorem irqSignal_coreUp (v : Nat) (e : Eng) : (irqSignal v e).coreUp = e.coreUp := (noted_irqSignal ..).coreUp
@[simp] theorem irqSignal_stopped (v : Nat) (e : Eng) : (irqSignal v e).stopped = e.stopped := (noted_irqSignal ..).stopped
@[simp] theorem irqSignal_hl_attach (v : Nat) (e : Eng) : (irqSignal v e).hl.attach = e.hl.attach := (noted_irqSignal ..).hl_attach
@[simp] theorem irqSignal_hl_turns (v : Nat) (e : Eng) : (irqSignal v e).hl.turns = e.hl.turns := (noted_irqSignal ..).hl_turns
@[simp] theorem irqSignal_hl_cause (v : Nat) (e : Eng) : (irqSignal v e).hl.cause = e.hl.cause := (noted_irqSignal ..).hl_cause
@[simp] theorem irqSignal_hl_helloSeen (v : Nat) (e : Eng) : (irqSignal v e).hl.helloSeen = e.hl.helloSeen := (noted_irqSignal ..).hl_helloSeen
@[simp] theorem irqSignal_hl_heartbeatMs (v : Nat) (e : Eng) : (irqSignal v e).hl.heartbeatMs = e.hl.heartbeatMs := (noted_irqSignal ..).hl_heartbeatMs
@[simp] theorem irqSignal_hl_lastBeat (v : Nat) (e : Eng) : (irqSignal v e).hl.lastBeat = e.hl.lastBeat := (noted_irqSignal ..).hl_lastBeat
@[simp] theorem irqSignal_hl_drain (v : Nat) (e : Eng) : (irqSignal v e).hl.drain = e.hl.drain := (noted_irqSignal ..).hl_drain
@[simp] theorem irqSignal_hl_mbVector (v : Nat) (e : Eng) : (irqSignal v e).hl.mbVector = e.hl.mbVector := (noted_irqSignal ..).hl_mbVector
@[simp] theorem irqSignal_hl_modules (v : Nat) (e : Eng) : (irqSignal v e).hl.modules = e.hl.modules := (noted_irqSignal ..).hl_modules
@[simp] theorem irqSignal_hl_statusBase (v : Nat) (e : Eng) : (irqSignal v e).hl.statusBase = e.hl.statusBase := (noted_irqSignal ..).hl_statusBase
@[simp] theorem irqSignal_hl_ctxs (v : Nat) (e : Eng) : (irqSignal v e).hl.ctxs = e.hl.ctxs := (noted_irqSignal ..).hl_ctxs
@[simp] theorem irqSignal_hl_cmds (v : Nat) (e : Eng) : (irqSignal v e).hl.cmds = e.hl.cmds := (noted_irqSignal ..).hl_cmds
@[simp] theorem irqSignal_hl_nextId (v : Nat) (e : Eng) : (irqSignal v e).hl.nextId = e.hl.nextId := (noted_irqSignal ..).hl_nextId
@[simp] theorem irqSignal_hl_mbHeld (v : Nat) (e : Eng) : (irqSignal v e).hl.mbHeld = e.hl.mbHeld := (noted_irqSignal ..).hl_mbHeld
@[simp] theorem irqSignal_hl_mailbox (v : Nat) (e : Eng) : (irqSignal v e).hl.mailbox = e.hl.mailbox := (noted_irqSignal ..).hl_mailbox
@[simp] theorem irqSignal_hl_readData (v : Nat) (e : Eng) : (irqSignal v e).hl.readData = e.hl.readData := (noted_irqSignal ..).hl_readData
@[simp] theorem publish_variant (r n : Nat) (i : Bool) (e : Eng) : (publish r n i e).variant = e.variant := (noted_publish ..).variant
@[simp] theorem publish_shut (r n : Nat) (i : Bool) (e : Eng) : (publish r n i e).shut = e.shut := (noted_publish ..).shut
@[simp] theorem publish_tick (r n : Nat) (i : Bool) (e : Eng) : (publish r n i e).tick = e.tick := (noted_publish ..).tick
@[simp] theorem publish_tickLatchHost (r n : Nat) (i : Bool) (e : Eng) : (publish r n i e).tickLatchHost = e.tickLatchHost := (noted_publish ..).tickLatchHost
@[simp] theorem publish_tickLatchNw (r n : Nat) (i : Bool) (e : Eng) : (publish r n i e).tickLatchNw = e.tickLatchNw := (noted_publish ..).tickLatchNw
@[simp] theorem publish_free (r n : Nat) (i : Bool) (e : Eng) : (publish r n i e).free = e.free := (noted_publish ..).free
@[simp] theorem publish_sels (r n : Nat) (i : Bool) (e : Eng) : (publish r n i e).sels = e.sels := (noted_publish ..).sels
@[simp] theorem publish_mt (r n : Nat) (i : Bool) (e : Eng) : (publish r n i e).mt = e.mt := (noted_publish ..).mt
@[simp] theorem publish_store (r n : Nat) (i : Bool) (e : Eng) : (publish r n i e).store = e.store := (noted_publish ..).store
@[simp] theorem publish_steps (r n : Nat) (i : Bool) (e : Eng) : (publish r n i e).steps = e.steps := (noted_publish ..).steps
@[simp] theorem publish_setup (r n : Nat) (i : Bool) (e : Eng) : (publish r n i e).setup = e.setup := (noted_publish ..).setup
@[simp] theorem publish_qu (r n : Nat) (i : Bool) (e : Eng) : (publish r n i e).qu = e.qu := (noted_publish ..).qu
@[simp] theorem publish_quDefault (r n : Nat) (i : Bool) (e : Eng) : (publish r n i e).quDefault = e.quDefault := (noted_publish ..).quDefault
@[simp] theorem publish_st (r n : Nat) (i : Bool) (e : Eng) : (publish r n i e).st = e.st := (noted_publish ..).st
@[simp] theorem publish_ix (r n : Nat) (i : Bool) (e : Eng) : (publish r n i e).ix = e.ix := (noted_publish ..).ix
@[simp] theorem publish_fb (r n : Nat) (i : Bool) (e : Eng) : (publish r n i e).fb = e.fb := (noted_publish ..).fb
@[simp] theorem publish_ls (r n : Nat) (i : Bool) (e : Eng) : (publish r n i e).ls = e.ls := (noted_publish ..).ls
@[simp] theorem publish_rg (r n : Nat) (i : Bool) (e : Eng) : (publish r n i e).rg = e.rg := (noted_publish ..).rg
@[simp] theorem publish_build (r n : Nat) (i : Bool) (e : Eng) : (publish r n i e).build = e.build := (noted_publish ..).build
@[simp] theorem publish_nextBuild (r n : Nat) (i : Bool) (e : Eng) : (publish r n i e).nextBuild = e.nextBuild := (noted_publish ..).nextBuild
@[simp] theorem publish_coreUp (r n : Nat) (i : Bool) (e : Eng) : (publish r n i e).coreUp = e.coreUp := (noted_publish ..).coreUp
@[simp] theorem publish_stopped (r n : Nat) (i : Bool) (e : Eng) : (publish r n i e).stopped = e.stopped := (noted_publish ..).stopped
@[simp] theorem publish_hl_attach (r n : Nat) (i : Bool) (e : Eng) : (publish r n i e).hl.attach = e.hl.attach := (noted_publish ..).hl_attach
@[simp] theorem publish_hl_turns (r n : Nat) (i : Bool) (e : Eng) : (publish r n i e).hl.turns = e.hl.turns := (noted_publish ..).hl_turns
@[simp] theorem publish_hl_cause (r n : Nat) (i : Bool) (e : Eng) : (publish r n i e).hl.cause = e.hl.cause := (noted_publish ..).hl_cause
@[simp] theorem publish_hl_helloSeen (r n : Nat) (i : Bool) (e : Eng) : (publish r n i e).hl.helloSeen = e.hl.helloSeen := (noted_publish ..).hl_helloSeen
@[simp] theorem publish_hl_heartbeatMs (r n : Nat) (i : Bool) (e : Eng) : (publish r n i e).hl.heartbeatMs = e.hl.heartbeatMs := (noted_publish ..).hl_heartbeatMs
@[simp] theorem publish_hl_lastBeat (r n : Nat) (i : Bool) (e : Eng) : (publish r n i e).hl.lastBeat = e.hl.lastBeat := (noted_publish ..).hl_lastBeat
@[simp] theorem publish_hl_drain (r n : Nat) (i : Bool) (e : Eng) : (publish r n i e).hl.drain = e.hl.drain := (noted_publish ..).hl_drain
@[simp] theorem publish_hl_mbVector (r n : Nat) (i : Bool) (e : Eng) : (publish r n i e).hl.mbVector = e.hl.mbVector := (noted_publish ..).hl_mbVector
@[simp] theorem publish_hl_modules (r n : Nat) (i : Bool) (e : Eng) : (publish r n i e).hl.modules = e.hl.modules := (noted_publish ..).hl_modules
@[simp] theorem publish_hl_statusBase (r n : Nat) (i : Bool) (e : Eng) : (publish r n i e).hl.statusBase = e.hl.statusBase := (noted_publish ..).hl_statusBase
@[simp] theorem publish_hl_ctxs (r n : Nat) (i : Bool) (e : Eng) : (publish r n i e).hl.ctxs = e.hl.ctxs := (noted_publish ..).hl_ctxs
@[simp] theorem publish_hl_cmds (r n : Nat) (i : Bool) (e : Eng) : (publish r n i e).hl.cmds = e.hl.cmds := (noted_publish ..).hl_cmds
@[simp] theorem publish_hl_nextId (r n : Nat) (i : Bool) (e : Eng) : (publish r n i e).hl.nextId = e.hl.nextId := (noted_publish ..).hl_nextId
@[simp] theorem publish_hl_mbHeld (r n : Nat) (i : Bool) (e : Eng) : (publish r n i e).hl.mbHeld = e.hl.mbHeld := (noted_publish ..).hl_mbHeld
@[simp] theorem publish_hl_mailbox (r n : Nat) (i : Bool) (e : Eng) : (publish r n i e).hl.mailbox = e.hl.mailbox := (noted_publish ..).hl_mailbox
@[simp] theorem publish_hl_readData (r n : Nat) (i : Bool) (e : Eng) : (publish r n i e).hl.readData = e.hl.readData := (noted_publish ..).hl_readData
@[simp] theorem flushHeld_variant (e : Eng) : (flushHeld e).variant = e.variant := (noted_flushHeld ..).variant
@[simp] theorem flushHeld_shut (e : Eng) : (flushHeld e).shut = e.shut := (noted_flushHeld ..).shut
@[simp] theorem flushHeld_tick (e : Eng) : (flushHeld e).tick = e.tick := (noted_flushHeld ..).tick
@[simp] theorem flushHeld_tickLatchHost (e : Eng) : (flushHeld e).tickLatchHost = e.tickLatchHost := (noted_flushHeld ..).tickLatchHost
@[simp] theorem flushHeld_tickLatchNw (e : Eng) : (flushHeld e).tickLatchNw = e.tickLatchNw := (noted_flushHeld ..).tickLatchNw
@[simp] theorem flushHeld_free (e : Eng) : (flushHeld e).free = e.free := (noted_flushHeld ..).free
@[simp] theorem flushHeld_sels (e : Eng) : (flushHeld e).sels = e.sels := (noted_flushHeld ..).sels
@[simp] theorem flushHeld_mt (e : Eng) : (flushHeld e).mt = e.mt := (noted_flushHeld ..).mt
@[simp] theorem flushHeld_store (e : Eng) : (flushHeld e).store = e.store := (noted_flushHeld ..).store
@[simp] theorem flushHeld_steps (e : Eng) : (flushHeld e).steps = e.steps := (noted_flushHeld ..).steps
@[simp] theorem flushHeld_setup (e : Eng) : (flushHeld e).setup = e.setup := (noted_flushHeld ..).setup
@[simp] theorem flushHeld_qu (e : Eng) : (flushHeld e).qu = e.qu := (noted_flushHeld ..).qu
@[simp] theorem flushHeld_quDefault (e : Eng) : (flushHeld e).quDefault = e.quDefault := (noted_flushHeld ..).quDefault
@[simp] theorem flushHeld_st (e : Eng) : (flushHeld e).st = e.st := (noted_flushHeld ..).st
@[simp] theorem flushHeld_ix (e : Eng) : (flushHeld e).ix = e.ix := (noted_flushHeld ..).ix
@[simp] theorem flushHeld_fb (e : Eng) : (flushHeld e).fb = e.fb := (noted_flushHeld ..).fb
@[simp] theorem flushHeld_ls (e : Eng) : (flushHeld e).ls = e.ls := (noted_flushHeld ..).ls
@[simp] theorem flushHeld_rg (e : Eng) : (flushHeld e).rg = e.rg := (noted_flushHeld ..).rg
@[simp] theorem flushHeld_build (e : Eng) : (flushHeld e).build = e.build := (noted_flushHeld ..).build
@[simp] theorem flushHeld_nextBuild (e : Eng) : (flushHeld e).nextBuild = e.nextBuild := (noted_flushHeld ..).nextBuild
@[simp] theorem flushHeld_coreUp (e : Eng) : (flushHeld e).coreUp = e.coreUp := (noted_flushHeld ..).coreUp
@[simp] theorem flushHeld_stopped (e : Eng) : (flushHeld e).stopped = e.stopped := (noted_flushHeld ..).stopped
@[simp] theorem flushHeld_hl_attach (e : Eng) : (flushHeld e).hl.attach = e.hl.attach := (noted_flushHeld ..).hl_attach
@[simp] theorem flushHeld_hl_turns (e : Eng) : (flushHeld e).hl.turns = e.hl.turns := (noted_flushHeld ..).hl_turns
@[simp] theorem flushHeld_hl_cause (e : Eng) : (flushHeld e).hl.cause = e.hl.cause := (noted_flushHeld ..).hl_cause
@[simp] theorem flushHeld_hl_helloSeen (e : Eng) : (flushHeld e).hl.helloSeen = e.hl.helloSeen := (noted_flushHeld ..).hl_helloSeen
@[simp] theorem flushHeld_hl_heartbeatMs (e : Eng) : (flushHeld e).hl.heartbeatMs = e.hl.heartbeatMs := (noted_flushHeld ..).hl_heartbeatMs
@[simp] theorem flushHeld_hl_lastBeat (e : Eng) : (flushHeld e).hl.lastBeat = e.hl.lastBeat := (noted_flushHeld ..).hl_lastBeat
@[simp] theorem flushHeld_hl_drain (e : Eng) : (flushHeld e).hl.drain = e.hl.drain := (noted_flushHeld ..).hl_drain
@[simp] theorem flushHeld_hl_mbVector (e : Eng) : (flushHeld e).hl.mbVector = e.hl.mbVector := (noted_flushHeld ..).hl_mbVector
@[simp] theorem flushHeld_hl_modules (e : Eng) : (flushHeld e).hl.modules = e.hl.modules := (noted_flushHeld ..).hl_modules
@[simp] theorem flushHeld_hl_statusBase (e : Eng) : (flushHeld e).hl.statusBase = e.hl.statusBase := (noted_flushHeld ..).hl_statusBase
@[simp] theorem flushHeld_hl_ctxs (e : Eng) : (flushHeld e).hl.ctxs = e.hl.ctxs := (noted_flushHeld ..).hl_ctxs
@[simp] theorem flushHeld_hl_cmds (e : Eng) : (flushHeld e).hl.cmds = e.hl.cmds := (noted_flushHeld ..).hl_cmds
@[simp] theorem flushHeld_hl_nextId (e : Eng) : (flushHeld e).hl.nextId = e.hl.nextId := (noted_flushHeld ..).hl_nextId
@[simp] theorem flushHeld_hl_mbHeld (e : Eng) : (flushHeld e).hl.mbHeld = e.hl.mbHeld := (noted_flushHeld ..).hl_mbHeld
@[simp] theorem flushHeld_hl_mailbox (e : Eng) : (flushHeld e).hl.mailbox = e.hl.mailbox := (noted_flushHeld ..).hl_mailbox
@[simp] theorem flushHeld_hl_readData (e : Eng) : (flushHeld e).hl.readData = e.hl.readData := (noted_flushHeld ..).hl_readData
end Sys2Proof.Machine
end

