-- ==== Sys2Proof/Laws/Queue.lean ====
section
/-! SUPPORT. No operation of the machine touches the queue of waiting commands: one lemma for each operation on the whole state.
Only the step takes a command from the queue. -/

namespace Sys2Proof.Machine

@[simp] theorem onEng_pending (f : Eng → Eng) (s : State) : (onEng f s).pending = s.pending := rfl

@[simp] theorem nextGen_pending (s : State) : (nextGen s).pending = s.pending := by
  first | rfl | (unfold nextGen; (try dsimp only); (repeat' split) <;> simp_all)

@[simp] theorem coldDrop_pending (c : Word) (s : State) : (coldDrop c s).pending = s.pending := by
  first | rfl | (unfold coldDrop; (try dsimp only); (repeat' split) <;> simp_all)

@[simp] theorem leave_pending (o : Bool) (s : State) : (leave o s).pending = s.pending := by
  first | rfl | (unfold leave; (try dsimp only); (repeat' split) <;> simp_all)

@[simp] theorem holdLogic_pending (r : Nat) (s : State) : (holdLogic r s).pending = s.pending := by
  first | rfl | (unfold holdLogic; (try dsimp only); (repeat' split) <;> simp_all)

@[simp] theorem startRung_pending (r : Nat) (c : Word) (s : State) : (startRung r c s).pending = s.pending := by
  first | rfl | (unfold startRung; (try dsimp only); (repeat' split) <;> simp_all)

@[simp] theorem outOfService_pending (c : Cause) (r : Nat) (s : State) : (outOfService c r s).pending = s.pending := by
  first | rfl | (unfold outOfService; (try dsimp only); (repeat' split) <;> simp_all)

@[simp] theorem failStack_pending (k : Nat) (s : State) : (failStack k s).pending = s.pending := by
  first | rfl | (unfold failStack; (try dsimp only); (repeat' split) <;> simp_all)

@[simp] theorem trainStack_pending (s : State) (k : Nat) : (trainStack s k).pending = s.pending := by
  unfold trainStack; split <;> simp

@[simp] theorem trainStacks_pending (s : State) : (trainStacks s).pending = s.pending := by
  have h : ∀ (l : List Nat) (s : State), (l.foldl trainStack s).pending = s.pending := by
    intro l
    induction l with
    | nil => exact fun _ => rfl
    | cons k l ih => exact fun s => (ih _).trans (trainStack_pending s k)
  exact h _ s

@[simp] theorem startLogic_pending (s : State) : (startLogic s).pending = s.pending := rfl

@[simp] theorem askReset_pending (r : Nat) (c : Cause) (x : Nat) (b : Bool) (s : State) : (askReset r c x b s).pending = s.pending := by
  first | rfl | (unfold askReset; (try dsimp only); (repeat' split) <;> simp_all)

@[simp] theorem unitReset_pending (d : Domain) (r : Nat) (s : State) : (unitReset d r s).pending = s.pending := by
  first | rfl | (unfold unitReset; (try dsimp only); (repeat' split) <;> simp_all)

@[simp] theorem askUnit_pending (d : Domain) (r : Nat) (s : State) : (askUnit d r s).pending = s.pending := by
  first | rfl | (unfold askUnit; (try dsimp only); (repeat' split) <;> simp_all)

@[simp] theorem opQuarantineEnd_pending (d : Domain) (s : State) : (opQuarantineEnd d s).pending = s.pending := by
  first | rfl | (unfold opQuarantineEnd; (try dsimp only); (repeat' split) <;> simp_all)

@[simp] theorem setCore_pending (c : Nat) (f : Core → Core) (s : State) : (setCore c f s).pending = s.pending := by
  first | rfl | (unfold setCore; (try dsimp only); (repeat' split) <;> simp_all)

@[simp] theorem downCore_pending (c k : Nat) (s : State) : (downCore c k s).pending = s.pending := by
  first | rfl | (unfold downCore; (try dsimp only); (repeat' split) <;> simp_all)

@[simp] theorem activationEvent_pending (b : BitVec 64) (r c : Nat) (s : State) : (activationEvent b r c s).pending = s.pending := by
  first | rfl | (unfold activationEvent; (try dsimp only); (repeat' split) <;> simp_all)

@[simp] theorem endActivation_pending (s : State) : (endActivation s).pending = s.pending := by
  first | rfl | (unfold endActivation; (try dsimp only); (repeat' split) <;> simp_all)

@[simp] theorem finishActivation_pending (s : State) : (finishActivation s).pending = s.pending := by
  first | rfl | (unfold finishActivation; (try dsimp only); (repeat' split) <;> simp_all)

@[simp] theorem finishRollback_pending (c : Nat) (s : State) : (finishRollback c s).pending = s.pending := by
  first | rfl | (unfold finishRollback; (try dsimp only); (repeat' split) <;> simp_all)

@[simp] theorem nextCore_pending (s : State) : (nextCore s).pending = s.pending := by
  first | rfl | (unfold nextCore; (try dsimp only); (repeat' split) <;> simp_all)

@[simp] theorem startActivation_pending (s : State) : (startActivation s).pending = s.pending := by
  first | rfl | (unfold startActivation; (try dsimp only); (repeat' split) <;> simp_all)

@[simp] theorem rollBack_pending (c : Nat) (s : State) : (rollBack c s).pending = s.pending := by
  first | rfl | (unfold rollBack; (try dsimp only); (repeat' split) <;> simp_all)

@[simp] theorem opHoldoff_pending (s : State) : (opHoldoff s).pending = s.pending := by
  first | rfl | (unfold opHoldoff; (try dsimp only); (repeat' split) <;> simp_all)

@[simp] theorem activateIfDue_pending (s : State) : (activateIfDue s).pending = s.pending := by
  first | rfl | (unfold activateIfDue; (try dsimp only); (repeat' split) <;> simp_all)

@[simp] theorem failCore_pending (c k : Nat) (s : State) : (failCore c k s).pending = s.pending := by
  first | rfl | (unfold failCore; (try dsimp only); (repeat' split) <;> simp_all)

@[simp] theorem opWatchdog_pending (c : Nat) (s : State) : (opWatchdog c s).pending = s.pending := by
  first | rfl | (unfold opWatchdog; (try dsimp only); (repeat' split) <;> simp_all)

@[simp] theorem opProtection_pending (c : Nat) (s : State) : (opProtection c s).pending = s.pending := by
  first | rfl | (unfold opProtection; (try dsimp only); (repeat' split) <;> simp_all)

@[simp] theorem coreBack_pending (c : Nat) (s : State) : (coreBack c s).pending = s.pending := by
  first | rfl | (unfold coreBack; (try dsimp only); (repeat' split) <;> simp_all)

@[simp] theorem coreStuck_pending (c : Nat) (s : State) : (coreStuck c s).pending = s.pending := by
  first | rfl | (unfold coreStuck; (try dsimp only); (repeat' split) <;> simp_all)

@[simp] theorem opCoreRestart_pending (c : Nat) (b : Bool) (s : State) : (opCoreRestart c b s).pending = s.pending := by
  first | rfl | (unfold opCoreRestart; (try dsimp only); (repeat' split) <;> simp_all)

@[simp] theorem bootActivation_pending (s : State) : (bootActivation s).pending = s.pending := by
  first | rfl | (unfold bootActivation; (try dsimp only); (repeat' split) <;> simp_all)

@[simp] theorem runLogic_pending (s : State) : (runLogic s).pending = s.pending := by
  first | rfl | (unfold runLogic; (try dsimp only); (repeat' split) <;> simp_all)

@[simp] theorem toA0_pending (s : State) : (toA0 s).pending = s.pending := by
  first | rfl | (unfold toA0; (try dsimp only); (repeat' split) <;> simp_all)

theorem pickBank_pending {n : Nat} {s t : State} (h : pickBank n s = some t) : t.pending = s.pending := by
  simp only [pickBank, Option.map_eq_some_iff] at h
  obtain ⟨_, _, rfl⟩ := h
  rfl

@[simp] theorem finishWarm_pending (s : State) : (finishWarm s).pending = s.pending := by
  unfold finishWarm; dsimp only; (repeat' split) <;> (try have := pickBank_pending ‹_›) <;> simp_all

@[simp] theorem bootCold_pending (s : State) : (bootCold s).pending = s.pending := by
  first | rfl | (unfold bootCold; (try dsimp only); (repeat' split) <;> simp_all)

@[simp] theorem finishCold_pending (s : State) : (finishCold s).pending = s.pending := by
  unfold finishCold; dsimp only; (repeat' split) <;> (try have := pickBank_pending ‹_›) <;> simp_all

@[simp] theorem raiseDue_pending (s : State) : (raiseDue s).pending = s.pending := by
  first | rfl | (unfold raiseDue; (try dsimp only); (repeat' split) <;> simp_all)

@[simp] theorem freeCause_pending (r : Nat) (s : State) : (freeCause r s).1.pending = s.pending := rfl

@[simp] theorem opReset_pending (r : Nat) (s : State) : (opReset r s).pending = s.pending := by
  first | rfl | (unfold opReset; (try dsimp only); (repeat' split) <;> simp_all)

@[simp] theorem opLadder_pending (s : State) : (opLadder s).pending = s.pending := by
  first | rfl | (unfold opLadder; (try dsimp only); (repeat' split) <;> simp_all)

@[simp] theorem readFailed_pending (k c : Nat) (s : State) : (readFailed k c s).pending = s.pending := by
  first | rfl | (unfold readFailed; (try dsimp only); (repeat' split) <;> simp_all)

@[simp] theorem burstFailed_pending (k c : Nat) (w : Bool) (a : Nat) (r : Option Nat) (s : State) : (burstFailed k c w a r s).pending = s.pending := by
  first | rfl | (unfold burstFailed; (try dsimp only); (repeat' split) <;> simp_all)

@[simp] theorem opBurstParity_pending (k c : Nat) (w : Bool) (a : Struck) (s : State) : (opBurstParity k c w a s).pending = s.pending := by
  first | rfl | (unfold opBurstParity; (try dsimp only); (repeat' split) <;> simp_all)

@[simp] theorem levelEvent_pending (l : Nat) (s : State) : (levelEvent l s).pending = s.pending := by
  first | rfl | (unfold levelEvent; (try dsimp only); (repeat' split) <;> simp_all)

@[simp] theorem setLevel_pending (l : Nat) (s : State) : (setLevel l s).pending = s.pending := by
  first | rfl | (unfold setLevel; (try dsimp only); (repeat' split) <;> simp_all)

@[simp] theorem trip_pending (k i : Nat) (s : State) : (trip k i s).pending = s.pending := by
  first | rfl | (unfold trip; (try dsimp only); (repeat' split) <;> simp_all)

@[simp] theorem markCool_pending (s : State) : (markCool s).pending = s.pending := by
  first | rfl | (unfold markCool; (try dsimp only); (repeat' split) <;> simp_all)

@[simp] theorem judge_pending (s : State) : (judge s).pending = s.pending := by
  first | rfl | (unfold judge; (try dsimp only); (repeat' split) <;> simp_all)

@[simp] theorem opThermalSample_pending (k : Part) (t : List Nat) (s : State) : (opThermalSample k t s).pending = s.pending := by
  first | rfl | (unfold opThermalSample; (try dsimp only); (repeat' split) <;> simp_all)

@[simp] theorem opStackTemp_pending (t : List Nat) (s : State) : (opStackTemp t s).pending = s.pending := by
  first | rfl | (unfold opStackTemp; (try dsimp only); (repeat' split) <;> simp_all)

@[simp] theorem opCatastrophic_pending (k : Nat) (s : State) : (opCatastrophic k s).pending = s.pending := by
  first | rfl | (unfold opCatastrophic; (try dsimp only); (repeat' split) <;> simp_all)

@[simp] theorem opCautionStep_pending (s : State) : (opCautionStep s).pending = s.pending := by
  first | rfl | (unfold opCautionStep; (try dsimp only); (repeat' split) <;> simp_all)

@[simp] theorem opClamp_pending (k : Part) (d : Nat) (s : State) : (opClamp k d s).pending = s.pending := by
  first | rfl | (unfold opClamp; (try dsimp only); (repeat' split) <;> simp_all)

@[simp] theorem opClampRelease_pending (k : Part) (d : Nat) (s : State) : (opClampRelease k d s).pending = s.pending := by
  first | rfl | (unfold opClampRelease; (try dsimp only); (repeat' split) <;> simp_all)

@[simp] theorem askCap_pending (w m : Nat) (s : State) : (askCap w m s).pending = s.pending := by
  first | rfl | (unfold askCap; (try dsimp only); (repeat' split) <;> simp_all)

@[simp] theorem opCapTick_pending (w f : Nat) (s : State) : (opCapTick w f s).pending = s.pending := by
  first | rfl | (unfold opCapTick; (try dsimp only); (repeat' split) <;> simp_all)

@[simp] theorem opDusk_pending (d : Nat) (s : State) : (opDusk d s).pending = s.pending := by
  first | rfl | (unfold opDusk; (try dsimp only); (repeat' split) <;> simp_all)

@[simp] theorem opDuskWake_pending (d : Nat) (s : State) : (opDuskWake d s).pending = s.pending := by
  first | rfl | (unfold opDuskWake; (try dsimp only); (repeat' split) <;> simp_all)

@[simp] theorem opRefLost_pending (r : Ref) (s : State) : (opRefLost r s).pending = s.pending := by
  first | rfl | (unfold opRefLost; (try dsimp only); (repeat' split) <;> simp_all)

@[simp] theorem opRefReturn_pending (r : Ref) (s : State) : (opRefReturn r s).pending = s.pending := by
  first | rfl | (unfold opRefReturn; (try dsimp only); (repeat' split) <;> simp_all)

@[simp] theorem opResetPin_pending (s : State) : (opResetPin s).pending = s.pending := by
  first | rfl | (unfold opResetPin; (try dsimp only); (repeat' split) <;> simp_all)

@[simp] theorem opPowerFall_pending (s : State) : (opPowerFall s).pending = s.pending := by
  first | rfl | (unfold opPowerFall; (try dsimp only); (repeat' split) <;> simp_all)

@[simp] theorem opPowerOn_pending (s : State) : (opPowerOn s).pending = s.pending := by
  first | rfl | (unfold opPowerOn; (try dsimp only); (repeat' split) <;> simp_all)

@[simp] theorem groupsOff_pending (v : Nat) (s : State) : (groupsOff v s).pending = s.pending := by
  first | rfl | (unfold groupsOff; (try dsimp only); (repeat' split) <;> simp_all)

@[simp] theorem enterNight_pending (s : State) : (enterNight s).pending = s.pending := by
  first | rfl | (unfold enterNight; (try dsimp only); (repeat' split) <;> simp_all)

@[simp] theorem enterDark_pending (s : State) : (enterDark s).pending = s.pending := by
  unfold enterDark; dsimp only

@[simp] theorem enterLow_pending (t : Nat) (s : State) : (enterLow t s).pending = s.pending := by
  first | rfl | (unfold enterLow; (try dsimp only); (repeat' split) <;> simp_all)

@[simp] theorem leaveNight_pending (s : State) : (leaveNight s).pending = s.pending := by
  first | rfl | (unfold leaveNight; (try dsimp only); (repeat' split) <;> simp_all)

@[simp] theorem leaveDark_pending (s : State) : (leaveDark s).pending = s.pending := by
  unfold leaveDark; dsimp only; (repeat' split) <;> (try have := pickBank_pending ‹_›) <;> simp_all [nextGen]

@[simp] theorem pwWrite_pending (p : Path) (r v : Nat) (s : State) : (pwWrite p r v s).pending = s.pending := by
  first | rfl | (unfold pwWrite; (try dsimp only); (repeat' split) <;> simp_all)

@[simp] theorem ckWrite_pending (r v : Nat) (s : State) : (ckWrite r v s).pending = s.pending := by
  first | rfl | (unfold ckWrite; (try dsimp only); (repeat' split) <;> simp_all)

@[simp] theorem controlWrite_pending (p : Path) (b r v : Nat) (s : State) : (controlWrite p b r v s).pending = s.pending := by
  first | rfl | (unfold controlWrite; (try dsimp only); (repeat' split) <;> simp_all)

@[simp] theorem regWrite_pending (p : Path) (o v : Nat) (s : State) : (regWrite p o v s).pending = s.pending := by
  first | rfl | (unfold regWrite; (try dsimp only); (repeat' split) <;> simp_all)

theorem controlRead_pending (p : Path) (b r : Nat) (s : State) : (controlRead p b r s).2.pending = s.pending := by
  unfold controlRead
  split <;> (try rfl)
  split <;> rfl

@[simp] theorem regRead_pending (p : Path) (o : Nat) (s : State) : (regRead p o s).2.pending = s.pending := by
  unfold regRead
  split
  · rfl
  · exact controlRead_pending ..

@[simp] theorem nwReply_pending (m t x : Nat) (b : List Byte) (s : State) : (nwReply m t x b s).pending = s.pending := by
  first | rfl | (unfold nwReply; (try dsimp only); (repeat' split) <;> simp_all)

@[simp] theorem readRegs_pending (n o : Nat) (s : State) : (readRegs n o s).2.pending = s.pending := by
  induction n generalizing o s with
  | zero => rfl
  | succ n ih => simp [readRegs, ih, regRead_pending]

@[simp] theorem nwRegRead_pending (t o n : Nat) (s : State) : (nwRegRead t o n s).pending = s.pending := by
  first | rfl | (unfold nwRegRead; (try dsimp only); (repeat' split) <;> simp_all)

@[simp] theorem nwRegWrite_pending (t o : Nat) (v : Word) (s : State) : (nwRegWrite t o v s).pending = s.pending := by
  first | rfl | (unfold nwRegWrite; (try dsimp only); (repeat' split) <;> simp_all)

@[simp] theorem nwJobCounters_pending (t : Nat) (s : State) : (nwJobCounters t s).pending = s.pending := by
  first | rfl | (unfold nwJobCounters; (try dsimp only); (repeat' split) <;> simp_all)

@[simp] theorem nwCountersClear_pending (t c : Nat) (s : State) : (nwCountersClear t c s).pending = s.pending := by
  first | rfl | (unfold nwCountersClear; (try dsimp only); (repeat' split) <;> simp_all)

@[simp] theorem nwEventRead_pending (t n : Nat) (s : State) : (nwEventRead t n s).pending = s.pending := by
  first | rfl | (unfold nwEventRead; (try dsimp only); (repeat' split) <;> simp_all)

@[simp] theorem nwLodestar_pending (t : Nat) (s : State) : (nwLodestar t s).pending = s.pending := by
  first | rfl | (unfold nwLodestar; (try dsimp only); (repeat' split) <;> simp_all)

@[simp] theorem nwStatusMsg_pending (t : Nat) (s : State) : (nwStatusMsg t s).pending = s.pending := by
  first | rfl | (unfold nwStatusMsg; (try dsimp only); (repeat' split) <;> simp_all)

@[simp] theorem nwPowerCap_pending (t w m : Nat) (s : State) : (nwPowerCap t w m s).pending = s.pending := by
  first | rfl | (unfold nwPowerCap; (try dsimp only); (repeat' split) <;> simp_all)

@[simp] theorem nwPowerLow_pending (t g : Nat) (f : Bool) (s : State) : (nwPowerLow t g f s).pending = s.pending := by
  first | rfl | (unfold nwPowerLow; (try dsimp only); (repeat' split) <;> simp_all)

@[simp] theorem reachGoal_pending (s : State) : (reachGoal s).pending = s.pending := by
  first | rfl | (unfold reachGoal; (try dsimp only); (repeat' split) <;> simp_all)

@[simp] theorem nwPowerUp_pending (t : Nat) (s : State) : (nwPowerUp t s).pending = s.pending := by
  first | rfl | (unfold nwPowerUp; (try dsimp only); (repeat' split) <;> simp_all)

@[simp] theorem nwResetMsg_pending (t r : Nat) (s : State) : (nwResetMsg t r s).pending = s.pending := by
  first | rfl | (unfold nwResetMsg; (try dsimp only); (repeat' split) <;> simp_all)

@[simp] theorem nwStackFail_pending (t k : Nat) (s : State) : (nwStackFail t k s).pending = s.pending := by
  first | rfl | (unfold nwStackFail; (try dsimp only); (repeat' split) <;> simp_all)

@[simp] theorem nwReturn_pending (t : Nat) (s : State) : (nwReturn t s).pending = s.pending := by
  first | rfl | (unfold nwReturn; (try dsimp only); (repeat' split) <;> simp_all)

@[simp] theorem nwDebug_pending (t : Nat) (b : Bool) (s : State) : (nwDebug t b s).pending = s.pending := by
  first | rfl | (unfold nwDebug; (try dsimp only); (repeat' split) <;> simp_all)

@[simp] theorem nwJobClear_pending (t : Nat) (a : Bool) (s : State) : (nwJobClear t a s).pending = s.pending := by
  first | rfl | (unfold nwJobClear; (try dsimp only); (repeat' split) <;> simp_all)

@[simp] theorem nwFlashWrite_pending (t r o : Nat) (b : List Byte) (s : State) : (nwFlashWrite t r o b s).pending = s.pending := by
  first | rfl | (unfold nwFlashWrite; (try dsimp only); (repeat' split) <;> simp_all)

@[simp] theorem nwFlashRead_pending (t r o n : Nat) (s : State) : (nwFlashRead t r o n s).pending = s.pending := by
  first | rfl | (unfold nwFlashRead; (try dsimp only); (repeat' split) <;> simp_all)

@[simp] theorem nwImageVerify_pending (t b : Nat) (s : State) : (nwImageVerify t b s).pending = s.pending := by
  first | rfl | (unfold nwImageVerify; (try dsimp only); (repeat' split) <;> simp_all)

@[simp] theorem nwActivate_pending (t : Nat) (s : State) : (nwActivate t s).pending = s.pending := by
  first | rfl | (unfold nwActivate; (try dsimp only); (repeat' split) <;> simp_all)

@[simp] theorem nwCommit_pending (t : Nat) (s : State) : (nwCommit t s).pending = s.pending := by
  first | rfl | (unfold nwCommit; (try dsimp only); (repeat' split) <;> simp_all)

@[simp] theorem nwOosRecord_pending (t : Nat) (s : State) : (nwOosRecord t s).pending = s.pending := by
  first | rfl | (unfold nwOosRecord; (try dsimp only); (repeat' split) <;> simp_all)

@[simp] theorem rawReply_pending (p q v : Nat) (s : State) : (rawReply p q v s).pending = s.pending := by
  first | rfl | (unfold rawReply; (try dsimp only); (repeat' split) <;> simp_all)

@[simp] theorem mctpAnswer_pending (c : MctpCommand) (s : State) : (mctpAnswer c s).pending = s.pending := by
  first | rfl | (unfold mctpAnswer; (try dsimp only); (repeat' split) <;> simp_all)

@[simp] theorem spdmAnswer_pending (r : SpdmRequest) (s : State) : (spdmAnswer r s).pending = s.pending := by
  first | rfl | (unfold spdmAnswer; (try dsimp only); (repeat' split) <;> simp_all)

@[simp] theorem pldmAnswer_pending (r : PldmRequest) (s : State) : (pldmAnswer r s).pending = s.pending := by
  first | rfl | (unfold pldmAnswer; (try dsimp only); (repeat' split) <;> simp_all)

@[simp] theorem opDynAddr_pending (a : BitVec 7) (s : State) : (opDynAddr a s).pending = s.pending := by
  first | rfl | (unfold opDynAddr; (try dsimp only); (repeat' split) <;> simp_all)

@[simp] theorem nwBody_pending (i : Instr) (s : State) : (nwBody i s).pending = s.pending := by
  first | rfl | (unfold nwBody; (try dsimp only); (repeat' split) <;> simp_all)
@[simp] theorem nwRun_pending (i : Instr) (s : State) : (nwRun i s).pending = s.pending := by
  unfold nwRun; (repeat' split) <;> simp
@[simp] theorem nwHold_pending (i : Instr) (s : State) : (nwHold i s).pending = s.pending := by
  first | rfl | (unfold nwHold; (try dsimp only); (repeat' split) <;> simp_all)

@[simp] theorem nwAsk_pending (i : Instr) (s : State) : (nwAsk i s).pending = s.pending := by
  first | rfl | (unfold nwAsk; (try dsimp only); (repeat' split) <;> simp_all)

@[simp] theorem deliverPkt_pending (h : PktHdr) (b : Body) (s : State) : (deliverPkt h b s).pending = s.pending := by
  first | rfl | (unfold deliverPkt; (try dsimp only); (repeat' split) <;> simp_all)

@[simp] theorem ringMailbox_pending (s : State) : (ringMailbox s).pending = s.pending := by
  first | rfl | (unfold ringMailbox; (try dsimp only); (repeat' split) <;> simp_all)

@[simp] theorem serveMailbox_pending (s : State) : (serveMailbox s).pending = s.pending := by
  first | rfl | (unfold serveMailbox; (try dsimp only); (repeat' split) <;> simp_all)

@[simp] theorem nwDrain_pending (n : Nat) (s : State) : (nwDrain n s).pending = s.pending := by
  induction n generalizing s with
  | zero => rfl
  | succ n ih =>
    unfold nwDrain
    split
    · rfl
    · split <;> simp [ih]

@[simp] theorem noteBuild_pending (s : State) : (noteBuild s).pending = s.pending := by
  first | rfl | (unfold noteBuild; (try dsimp only); (repeat' split) <;> simp_all)

@[simp] theorem settle_pending (s : State) : (settle s).pending = s.pending := by
  first | rfl | (unfold settle; (try dsimp only); (repeat' split) <;> simp_all)

@[simp] theorem keepRead_pending (v : Nat) (s : State) : (keepRead v s).pending = s.pending := by
  first | rfl | (unfold keepRead; (try dsimp only); (repeat' split) <;> simp_all)

@[simp] theorem pageDoorbell_pending (k : Nat) (v : Word) (s : State) : (pageDoorbell k v s).pending = s.pending := by
  first | rfl | (unfold pageDoorbell; (try dsimp only); (repeat' split) <;> simp_all)

@[simp] theorem apertureWrite_pending (o : Nat) (v : Word) (s : State) : (apertureWrite o v s).pending = s.pending := by
  first | rfl | (unfold apertureWrite; (try dsimp only); (repeat' split) <;> simp_all)

@[simp] theorem deliverBuffered_pending (n src : Nat) (s : State) : (deliverBuffered n src s).pending = s.pending := by
  induction n generalizing s with
  | zero => rfl
  | succ n ih =>
    unfold deliverBuffered
    dsimp only
    split
    · rfl
    · simp [ih]

@[simp] theorem sequencePacket_pending (p : Packet) (s : State) : (sequencePacket p s).pending = s.pending := by
  first | rfl | (unfold sequencePacket; (try dsimp only); (repeat' split) <;> simp_all)

@[simp] theorem framePacket_pending (p : Packet) (s : State) : (framePacket p s).pending = s.pending := by
  first | rfl | (unfold framePacket; (try dsimp only); (repeat' split) <;> simp_all)

@[simp] theorem packetIn_pending (b : List Byte) (s : State) : (packetIn b s).pending = s.pending := by
  first | rfl | (unfold packetIn; (try dsimp only); (repeat' split) <;> simp_all)

@[simp] theorem opEthernetFrame_pending (l : Nat) (f : List Byte) (s : State) : (opEthernetFrame l f s).pending = s.pending := by
  first | rfl | (unfold opEthernetFrame; (try dsimp only); (repeat' split) <;> simp_all)

@[simp] theorem linkPacket_pending (b : List Byte) (s : State) : (linkPacket b s).pending = s.pending := by
  first | rfl | (unfold linkPacket; (try dsimp only); (repeat' split) <;> simp_all)

@[simp] theorem opLinkFrame_pending (l : Nat) (f : List Byte) (s : State) : (opLinkFrame l f s).pending = s.pending := by
  first | rfl | (unfold opLinkFrame; (try dsimp only); (repeat' split) <;> simp_all)

@[simp] theorem opLinkChange_pending (l : Nat) (u : Bool) (s : State) : (opLinkChange l u s).pending = s.pending := by
  first | rfl | (unfold opLinkChange; (try dsimp only); (repeat' split) <;> simp_all)

end Sys2Proof.Machine
end

