-- ==== Sys2Proof/Laws/State.lean ====
section
/-! SUPPORT. What each update of the state writes, and that every other field stays; and that a calm state settles to itself. -/

namespace Sys2Proof.Machine

@[simp] theorem onEng_eng (f : Eng → Eng) (s : State) : (onEng f s).eng = f s.eng := rfl
@[simp] theorem onEng_pw (f : Eng → Eng) (s : State) : (onEng f s).pw = s.pw := rfl
@[simp] theorem onEng_fw (f : Eng → Eng) (s : State) : (onEng f s).fw = s.fw := rfl
@[simp] theorem onEng_nw (f : Eng → Eng) (s : State) : (onEng f s).nw = s.nw := rfl

@[simp] theorem hostStore_variant (a : Nat) (bs : List Byte) (e : Eng) : (hostStore a bs e).variant = e.variant := rfl
@[simp] theorem hostStore_shut (a : Nat) (bs : List Byte) (e : Eng) : (hostStore a bs e).shut = e.shut := rfl
@[simp] theorem hostStore_tick (a : Nat) (bs : List Byte) (e : Eng) : (hostStore a bs e).tick = e.tick := rfl
@[simp] theorem hostStore_tickLatchHost (a : Nat) (bs : List Byte) (e : Eng) : (hostStore a bs e).tickLatchHost = e.tickLatchHost := rfl
@[simp] theorem hostStore_tickLatchNw (a : Nat) (bs : List Byte) (e : Eng) : (hostStore a bs e).tickLatchNw = e.tickLatchNw := rfl
@[simp] theorem hostStore_free (a : Nat) (bs : List Byte) (e : Eng) : (hostStore a bs e).free = e.free := rfl
@[simp] theorem hostStore_host (a : Nat) (bs : List Byte) (e : Eng) : (hostStore a bs e).host = memPut 0 e.host a bs := rfl
@[simp] theorem hostStore_sels (a : Nat) (bs : List Byte) (e : Eng) : (hostStore a bs e).sels = e.sels := rfl
@[simp] theorem hostStore_ctr (a : Nat) (bs : List Byte) (e : Eng) : (hostStore a bs e).ctr = e.ctr := rfl
@[simp] theorem hostStore_nwEvents (a : Nat) (bs : List Byte) (e : Eng) : (hostStore a bs e).nwEvents = e.nwEvents := rfl
@[simp] theorem hostStore_hl (a : Nat) (bs : List Byte) (e : Eng) : (hostStore a bs e).hl = e.hl := rfl
@[simp] theorem hostStore_mt (a : Nat) (bs : List Byte) (e : Eng) : (hostStore a bs e).mt = e.mt := rfl
@[simp] theorem hostStore_store (a : Nat) (bs : List Byte) (e : Eng) : (hostStore a bs e).store = e.store := rfl
@[simp] theorem hostStore_steps (a : Nat) (bs : List Byte) (e : Eng) : (hostStore a bs e).steps = e.steps := rfl
@[simp] theorem hostStore_setup (a : Nat) (bs : List Byte) (e : Eng) : (hostStore a bs e).setup = e.setup := rfl
@[simp] theorem hostStore_qu (a : Nat) (bs : List Byte) (e : Eng) : (hostStore a bs e).qu = e.qu := rfl
@[simp] theorem hostStore_quDefault (a : Nat) (bs : List Byte) (e : Eng) : (hostStore a bs e).quDefault = e.quDefault := rfl
@[simp] theorem hostStore_st (a : Nat) (bs : List Byte) (e : Eng) : (hostStore a bs e).st = e.st := rfl
@[simp] theorem hostStore_ix (a : Nat) (bs : List Byte) (e : Eng) : (hostStore a bs e).ix = e.ix := rfl
@[simp] theorem hostStore_fb (a : Nat) (bs : List Byte) (e : Eng) : (hostStore a bs e).fb = e.fb := rfl
@[simp] theorem hostStore_ls (a : Nat) (bs : List Byte) (e : Eng) : (hostStore a bs e).ls = e.ls := rfl
@[simp] theorem hostStore_rg (a : Nat) (bs : List Byte) (e : Eng) : (hostStore a bs e).rg = e.rg := rfl
@[simp] theorem hostStore_build (a : Nat) (bs : List Byte) (e : Eng) : (hostStore a bs e).build = e.build := rfl
@[simp] theorem hostStore_nextBuild (a : Nat) (bs : List Byte) (e : Eng) : (hostStore a bs e).nextBuild = e.nextBuild := rfl
@[simp] theorem hostStore_coreUp (a : Nat) (bs : List Byte) (e : Eng) : (hostStore a bs e).coreUp = e.coreUp := rfl
@[simp] theorem hostStore_stopped (a : Nat) (bs : List Byte) (e : Eng) : (hostStore a bs e).stopped = e.stopped := rfl

@[simp] theorem stackPut_variant (a : Nat) (bs : List Byte) (e : Eng) : (stackPut a bs e).variant = e.variant := rfl
@[simp] theorem stackPut_shut (a : Nat) (bs : List Byte) (e : Eng) : (stackPut a bs e).shut = e.shut := rfl
@[simp] theorem stackPut_tick (a : Nat) (bs : List Byte) (e : Eng) : (stackPut a bs e).tick = e.tick := rfl
@[simp] theorem stackPut_tickLatchHost (a : Nat) (bs : List Byte) (e : Eng) : (stackPut a bs e).tickLatchHost = e.tickLatchHost := rfl
@[simp] theorem stackPut_tickLatchNw (a : Nat) (bs : List Byte) (e : Eng) : (stackPut a bs e).tickLatchNw = e.tickLatchNw := rfl
@[simp] theorem stackPut_free (a : Nat) (bs : List Byte) (e : Eng) : (stackPut a bs e).free = e.free := rfl
@[simp] theorem stackPut_host (a : Nat) (bs : List Byte) (e : Eng) : (stackPut a bs e).host = e.host := rfl
@[simp] theorem stackPut_sels (a : Nat) (bs : List Byte) (e : Eng) : (stackPut a bs e).sels = e.sels := rfl
@[simp] theorem stackPut_ctr (a : Nat) (bs : List Byte) (e : Eng) : (stackPut a bs e).ctr = e.ctr := rfl
@[simp] theorem stackPut_nwEvents (a : Nat) (bs : List Byte) (e : Eng) : (stackPut a bs e).nwEvents = e.nwEvents := rfl
@[simp] theorem stackPut_hl (a : Nat) (bs : List Byte) (e : Eng) : (stackPut a bs e).hl = e.hl := rfl
@[simp] theorem stackPut_mt (a : Nat) (bs : List Byte) (e : Eng) : (stackPut a bs e).mt = e.mt := rfl
@[simp] theorem stackPut_store (a : Nat) (bs : List Byte) (e : Eng) : (stackPut a bs e).store = { e.store with mem := memPut 0 e.store.mem a bs } := rfl
@[simp] theorem stackPut_steps (a : Nat) (bs : List Byte) (e : Eng) : (stackPut a bs e).steps = e.steps := rfl
@[simp] theorem stackPut_setup (a : Nat) (bs : List Byte) (e : Eng) : (stackPut a bs e).setup = e.setup := rfl
@[simp] theorem stackPut_qu (a : Nat) (bs : List Byte) (e : Eng) : (stackPut a bs e).qu = e.qu := rfl
@[simp] theorem stackPut_quDefault (a : Nat) (bs : List Byte) (e : Eng) : (stackPut a bs e).quDefault = e.quDefault := rfl
@[simp] theorem stackPut_st (a : Nat) (bs : List Byte) (e : Eng) : (stackPut a bs e).st = e.st := rfl
@[simp] theorem stackPut_ix (a : Nat) (bs : List Byte) (e : Eng) : (stackPut a bs e).ix = e.ix := rfl
@[simp] theorem stackPut_fb (a : Nat) (bs : List Byte) (e : Eng) : (stackPut a bs e).fb = e.fb := rfl
@[simp] theorem stackPut_ls (a : Nat) (bs : List Byte) (e : Eng) : (stackPut a bs e).ls = e.ls := rfl
@[simp] theorem stackPut_rg (a : Nat) (bs : List Byte) (e : Eng) : (stackPut a bs e).rg = e.rg := rfl
@[simp] theorem stackPut_build (a : Nat) (bs : List Byte) (e : Eng) : (stackPut a bs e).build = e.build := rfl
@[simp] theorem stackPut_nextBuild (a : Nat) (bs : List Byte) (e : Eng) : (stackPut a bs e).nextBuild = e.nextBuild := rfl
@[simp] theorem stackPut_coreUp (a : Nat) (bs : List Byte) (e : Eng) : (stackPut a bs e).coreUp = e.coreUp := rfl
@[simp] theorem stackPut_stopped (a : Nat) (bs : List Byte) (e : Eng) : (stackPut a bs e).stopped = e.stopped := rfl

@[simp] theorem setRing_variant (r : Nat) (f : Ring → Ring) (e : Eng) : (setRing r f e).variant = e.variant := rfl
@[simp] theorem setRing_shut (r : Nat) (f : Ring → Ring) (e : Eng) : (setRing r f e).shut = e.shut := rfl
@[simp] theorem setRing_tick (r : Nat) (f : Ring → Ring) (e : Eng) : (setRing r f e).tick = e.tick := rfl
@[simp] theorem setRing_tickLatchHost (r : Nat) (f : Ring → Ring) (e : Eng) : (setRing r f e).tickLatchHost = e.tickLatchHost := rfl
@[simp] theorem setRing_tickLatchNw (r : Nat) (f : Ring → Ring) (e : Eng) : (setRing r f e).tickLatchNw = e.tickLatchNw := rfl
@[simp] theorem setRing_free (r : Nat) (f : Ring → Ring) (e : Eng) : (setRing r f e).free = e.free := rfl
@[simp] theorem setRing_host (r : Nat) (f : Ring → Ring) (e : Eng) : (setRing r f e).host = e.host := rfl
@[simp] theorem setRing_sels (r : Nat) (f : Ring → Ring) (e : Eng) : (setRing r f e).sels = e.sels := rfl
@[simp] theorem setRing_ctr (r : Nat) (f : Ring → Ring) (e : Eng) : (setRing r f e).ctr = e.ctr := rfl
@[simp] theorem setRing_nwEvents (r : Nat) (f : Ring → Ring) (e : Eng) : (setRing r f e).nwEvents = e.nwEvents := rfl
@[simp] theorem setRing_hl (r : Nat) (f : Ring → Ring) (e : Eng) : (setRing r f e).hl = { e.hl with rings := Tab.modify {} e.hl.rings r f } := rfl
@[simp] theorem setRing_mt (r : Nat) (f : Ring → Ring) (e : Eng) : (setRing r f e).mt = e.mt := rfl
@[simp] theorem setRing_store (r : Nat) (f : Ring → Ring) (e : Eng) : (setRing r f e).store = e.store := rfl
@[simp] theorem setRing_steps (r : Nat) (f : Ring → Ring) (e : Eng) : (setRing r f e).steps = e.steps := rfl
@[simp] theorem setRing_setup (r : Nat) (f : Ring → Ring) (e : Eng) : (setRing r f e).setup = e.setup := rfl
@[simp] theorem setRing_qu (r : Nat) (f : Ring → Ring) (e : Eng) : (setRing r f e).qu = e.qu := rfl
@[simp] theorem setRing_quDefault (r : Nat) (f : Ring → Ring) (e : Eng) : (setRing r f e).quDefault = e.quDefault := rfl
@[simp] theorem setRing_st (r : Nat) (f : Ring → Ring) (e : Eng) : (setRing r f e).st = e.st := rfl
@[simp] theorem setRing_ix (r : Nat) (f : Ring → Ring) (e : Eng) : (setRing r f e).ix = e.ix := rfl
@[simp] theorem setRing_fb (r : Nat) (f : Ring → Ring) (e : Eng) : (setRing r f e).fb = e.fb := rfl
@[simp] theorem setRing_ls (r : Nat) (f : Ring → Ring) (e : Eng) : (setRing r f e).ls = e.ls := rfl
@[simp] theorem setRing_rg (r : Nat) (f : Ring → Ring) (e : Eng) : (setRing r f e).rg = e.rg := rfl
@[simp] theorem setRing_build (r : Nat) (f : Ring → Ring) (e : Eng) : (setRing r f e).build = e.build := rfl
@[simp] theorem setRing_nextBuild (r : Nat) (f : Ring → Ring) (e : Eng) : (setRing r f e).nextBuild = e.nextBuild := rfl
@[simp] theorem setRing_coreUp (r : Nat) (f : Ring → Ring) (e : Eng) : (setRing r f e).coreUp = e.coreUp := rfl
@[simp] theorem setRing_stopped (r : Nat) (f : Ring → Ring) (e : Eng) : (setRing r f e).stopped = e.stopped := rfl

@[simp] theorem setCmd_variant (i : Nat) (f : RunCmd → RunCmd) (e : Eng) : (setCmd i f e).variant = e.variant := rfl
@[simp] theorem setCmd_shut (i : Nat) (f : RunCmd → RunCmd) (e : Eng) : (setCmd i f e).shut = e.shut := rfl
@[simp] theorem setCmd_tick (i : Nat) (f : RunCmd → RunCmd) (e : Eng) : (setCmd i f e).tick = e.tick := rfl
@[simp] theorem setCmd_tickLatchHost (i : Nat) (f : RunCmd → RunCmd) (e : Eng) : (setCmd i f e).tickLatchHost = e.tickLatchHost := rfl
@[simp] theorem setCmd_tickLatchNw (i : Nat) (f : RunCmd → RunCmd) (e : Eng) : (setCmd i f e).tickLatchNw = e.tickLatchNw := rfl
@[simp] theorem setCmd_free (i : Nat) (f : RunCmd → RunCmd) (e : Eng) : (setCmd i f e).free = e.free := rfl
@[simp] theorem setCmd_host (i : Nat) (f : RunCmd → RunCmd) (e : Eng) : (setCmd i f e).host = e.host := rfl
@[simp] theorem setCmd_sels (i : Nat) (f : RunCmd → RunCmd) (e : Eng) : (setCmd i f e).sels = e.sels := rfl
@[simp] theorem setCmd_ctr (i : Nat) (f : RunCmd → RunCmd) (e : Eng) : (setCmd i f e).ctr = e.ctr := rfl
@[simp] theorem setCmd_nwEvents (i : Nat) (f : RunCmd → RunCmd) (e : Eng) : (setCmd i f e).nwEvents = e.nwEvents := rfl
@[simp] theorem setCmd_hl (i : Nat) (f : RunCmd → RunCmd) (e : Eng) : (setCmd i f e).hl = { e.hl with cmds := e.hl.cmds.map (fun c => if c.id = i then f c else c) } := rfl
@[simp] theorem setCmd_mt (i : Nat) (f : RunCmd → RunCmd) (e : Eng) : (setCmd i f e).mt = e.mt := rfl
@[simp] theorem setCmd_store (i : Nat) (f : RunCmd → RunCmd) (e : Eng) : (setCmd i f e).store = e.store := rfl
@[simp] theorem setCmd_steps (i : Nat) (f : RunCmd → RunCmd) (e : Eng) : (setCmd i f e).steps = e.steps := rfl
@[simp] theorem setCmd_setup (i : Nat) (f : RunCmd → RunCmd) (e : Eng) : (setCmd i f e).setup = e.setup := rfl
@[simp] theorem setCmd_qu (i : Nat) (f : RunCmd → RunCmd) (e : Eng) : (setCmd i f e).qu = e.qu := rfl
@[simp] theorem setCmd_quDefault (i : Nat) (f : RunCmd → RunCmd) (e : Eng) : (setCmd i f e).quDefault = e.quDefault := rfl
@[simp] theorem setCmd_st (i : Nat) (f : RunCmd → RunCmd) (e : Eng) : (setCmd i f e).st = e.st := rfl
@[simp] theorem setCmd_ix (i : Nat) (f : RunCmd → RunCmd) (e : Eng) : (setCmd i f e).ix = e.ix := rfl
@[simp] theorem setCmd_fb (i : Nat) (f : RunCmd → RunCmd) (e : Eng) : (setCmd i f e).fb = e.fb := rfl
@[simp] theorem setCmd_ls (i : Nat) (f : RunCmd → RunCmd) (e : Eng) : (setCmd i f e).ls = e.ls := rfl
@[simp] theorem setCmd_rg (i : Nat) (f : RunCmd → RunCmd) (e : Eng) : (setCmd i f e).rg = e.rg := rfl
@[simp] theorem setCmd_build (i : Nat) (f : RunCmd → RunCmd) (e : Eng) : (setCmd i f e).build = e.build := rfl
@[simp] theorem setCmd_nextBuild (i : Nat) (f : RunCmd → RunCmd) (e : Eng) : (setCmd i f e).nextBuild = e.nextBuild := rfl
@[simp] theorem setCmd_coreUp (i : Nat) (f : RunCmd → RunCmd) (e : Eng) : (setCmd i f e).coreUp = e.coreUp := rfl
@[simp] theorem setCmd_stopped (i : Nat) (f : RunCmd → RunCmd) (e : Eng) : (setCmd i f e).stopped = e.stopped := rfl

@[simp] theorem setSel_variant (p : Path) (o v : Nat) (e : Eng) : (setSel p o v e).variant = e.variant := rfl
@[simp] theorem setSel_shut (p : Path) (o v : Nat) (e : Eng) : (setSel p o v e).shut = e.shut := rfl
@[simp] theorem setSel_tick (p : Path) (o v : Nat) (e : Eng) : (setSel p o v e).tick = e.tick := rfl
@[simp] theorem setSel_tickLatchHost (p : Path) (o v : Nat) (e : Eng) : (setSel p o v e).tickLatchHost = e.tickLatchHost := rfl
@[simp] theorem setSel_tickLatchNw (p : Path) (o v : Nat) (e : Eng) : (setSel p o v e).tickLatchNw = e.tickLatchNw := rfl
@[simp] theorem setSel_free (p : Path) (o v : Nat) (e : Eng) : (setSel p o v e).free = e.free := rfl
@[simp] theorem setSel_host (p : Path) (o v : Nat) (e : Eng) : (setSel p o v e).host = e.host := rfl
@[simp] theorem setSel_sels (p : Path) (o v : Nat) (e : Eng) : (setSel p o v e).sels = Tab.set e.sels (2 * o + (match p with | .host => 0 | .nightwatch => 1)) v := rfl
@[simp] theorem setSel_ctr (p : Path) (o v : Nat) (e : Eng) : (setSel p o v e).ctr = e.ctr := rfl
@[simp] theorem setSel_nwEvents (p : Path) (o v : Nat) (e : Eng) : (setSel p o v e).nwEvents = e.nwEvents := rfl
@[simp] theorem setSel_hl (p : Path) (o v : Nat) (e : Eng) : (setSel p o v e).hl = e.hl := rfl
@[simp] theorem setSel_mt (p : Path) (o v : Nat) (e : Eng) : (setSel p o v e).mt = e.mt := rfl
@[simp] theorem setSel_store (p : Path) (o v : Nat) (e : Eng) : (setSel p o v e).store = e.store := rfl
@[simp] theorem setSel_steps (p : Path) (o v : Nat) (e : Eng) : (setSel p o v e).steps = e.steps := rfl
@[simp] theorem setSel_setup (p : Path) (o v : Nat) (e : Eng) : (setSel p o v e).setup = e.setup := rfl
@[simp] theorem setSel_qu (p : Path) (o v : Nat) (e : Eng) : (setSel p o v e).qu = e.qu := rfl
@[simp] theorem setSel_quDefault (p : Path) (o v : Nat) (e : Eng) : (setSel p o v e).quDefault = e.quDefault := rfl
@[simp] theorem setSel_st (p : Path) (o v : Nat) (e : Eng) : (setSel p o v e).st = e.st := rfl
@[simp] theorem setSel_ix (p : Path) (o v : Nat) (e : Eng) : (setSel p o v e).ix = e.ix := rfl
@[simp] theorem setSel_fb (p : Path) (o v : Nat) (e : Eng) : (setSel p o v e).fb = e.fb := rfl
@[simp] theorem setSel_ls (p : Path) (o v : Nat) (e : Eng) : (setSel p o v e).ls = e.ls := rfl
@[simp] theorem setSel_rg (p : Path) (o v : Nat) (e : Eng) : (setSel p o v e).rg = e.rg := rfl
@[simp] theorem setSel_build (p : Path) (o v : Nat) (e : Eng) : (setSel p o v e).build = e.build := rfl
@[simp] theorem setSel_nextBuild (p : Path) (o v : Nat) (e : Eng) : (setSel p o v e).nextBuild = e.nextBuild := rfl
@[simp] theorem setSel_coreUp (p : Path) (o v : Nat) (e : Eng) : (setSel p o v e).coreUp = e.coreUp := rfl
@[simp] theorem setSel_stopped (p : Path) (o v : Nat) (e : Eng) : (setSel p o v e).stopped = e.stopped := rfl

@[simp] theorem setFault_variant (i : Nat) (f : FaultEntry) (e : Eng) : (setFault i f e).variant = e.variant := rfl
@[simp] theorem setFault_shut (i : Nat) (f : FaultEntry) (e : Eng) : (setFault i f e).shut = e.shut := rfl
@[simp] theorem setFault_tick (i : Nat) (f : FaultEntry) (e : Eng) : (setFault i f e).tick = e.tick := rfl
@[simp] theorem setFault_tickLatchHost (i : Nat) (f : FaultEntry) (e : Eng) : (setFault i f e).tickLatchHost = e.tickLatchHost := rfl
@[simp] theorem setFault_tickLatchNw (i : Nat) (f : FaultEntry) (e : Eng) : (setFault i f e).tickLatchNw = e.tickLatchNw := rfl
@[simp] theorem setFault_free (i : Nat) (f : FaultEntry) (e : Eng) : (setFault i f e).free = e.free := rfl
@[simp] theorem setFault_host (i : Nat) (f : FaultEntry) (e : Eng) : (setFault i f e).host = e.host := rfl
@[simp] theorem setFault_sels (i : Nat) (f : FaultEntry) (e : Eng) : (setFault i f e).sels = e.sels := rfl
@[simp] theorem setFault_ctr (i : Nat) (f : FaultEntry) (e : Eng) : (setFault i f e).ctr = e.ctr := rfl
@[simp] theorem setFault_nwEvents (i : Nat) (f : FaultEntry) (e : Eng) : (setFault i f e).nwEvents = e.nwEvents := rfl
@[simp] theorem setFault_hl (i : Nat) (f : FaultEntry) (e : Eng) : (setFault i f e).hl = e.hl := rfl
@[simp] theorem setFault_mt (i : Nat) (f : FaultEntry) (e : Eng) : (setFault i f e).mt = { e.mt with faults := Tab.set e.mt.faults i f } := rfl
@[simp] theorem setFault_store (i : Nat) (f : FaultEntry) (e : Eng) : (setFault i f e).store = e.store := rfl
@[simp] theorem setFault_steps (i : Nat) (f : FaultEntry) (e : Eng) : (setFault i f e).steps = e.steps := rfl
@[simp] theorem setFault_setup (i : Nat) (f : FaultEntry) (e : Eng) : (setFault i f e).setup = e.setup := rfl
@[simp] theorem setFault_qu (i : Nat) (f : FaultEntry) (e : Eng) : (setFault i f e).qu = e.qu := rfl
@[simp] theorem setFault_quDefault (i : Nat) (f : FaultEntry) (e : Eng) : (setFault i f e).quDefault = e.quDefault := rfl
@[simp] theorem setFault_st (i : Nat) (f : FaultEntry) (e : Eng) : (setFault i f e).st = e.st := rfl
@[simp] theorem setFault_ix (i : Nat) (f : FaultEntry) (e : Eng) : (setFault i f e).ix = e.ix := rfl
@[simp] theorem setFault_fb (i : Nat) (f : FaultEntry) (e : Eng) : (setFault i f e).fb = e.fb := rfl
@[simp] theorem setFault_ls (i : Nat) (f : FaultEntry) (e : Eng) : (setFault i f e).ls = e.ls := rfl
@[simp] theorem setFault_rg (i : Nat) (f : FaultEntry) (e : Eng) : (setFault i f e).rg = e.rg := rfl
@[simp] theorem setFault_build (i : Nat) (f : FaultEntry) (e : Eng) : (setFault i f e).build = e.build := rfl
@[simp] theorem setFault_nextBuild (i : Nat) (f : FaultEntry) (e : Eng) : (setFault i f e).nextBuild = e.nextBuild := rfl
@[simp] theorem setFault_coreUp (i : Nat) (f : FaultEntry) (e : Eng) : (setFault i f e).coreUp = e.coreUp := rfl
@[simp] theorem setFault_stopped (i : Nat) (f : FaultEntry) (e : Eng) : (setFault i f e).stopped = e.stopped := rfl

@[simp] theorem setRoot_variant (t : Nat) (f : Root → Root) (e : Eng) : (setRoot t f e).variant = e.variant := rfl
@[simp] theorem setRoot_shut (t : Nat) (f : Root → Root) (e : Eng) : (setRoot t f e).shut = e.shut := rfl
@[simp] theorem setRoot_tick (t : Nat) (f : Root → Root) (e : Eng) : (setRoot t f e).tick = e.tick := rfl
@[simp] theorem setRoot_tickLatchHost (t : Nat) (f : Root → Root) (e : Eng) : (setRoot t f e).tickLatchHost = e.tickLatchHost := rfl
@[simp] theorem setRoot_tickLatchNw (t : Nat) (f : Root → Root) (e : Eng) : (setRoot t f e).tickLatchNw = e.tickLatchNw := rfl
@[simp] theorem setRoot_free (t : Nat) (f : Root → Root) (e : Eng) : (setRoot t f e).free = e.free := rfl
@[simp] theorem setRoot_host (t : Nat) (f : Root → Root) (e : Eng) : (setRoot t f e).host = e.host := rfl
@[simp] theorem setRoot_sels (t : Nat) (f : Root → Root) (e : Eng) : (setRoot t f e).sels = e.sels := rfl
@[simp] theorem setRoot_ctr (t : Nat) (f : Root → Root) (e : Eng) : (setRoot t f e).ctr = e.ctr := rfl
@[simp] theorem setRoot_nwEvents (t : Nat) (f : Root → Root) (e : Eng) : (setRoot t f e).nwEvents = e.nwEvents := rfl
@[simp] theorem setRoot_hl (t : Nat) (f : Root → Root) (e : Eng) : (setRoot t f e).hl = e.hl := rfl
@[simp] theorem setRoot_mt (t : Nat) (f : Root → Root) (e : Eng) : (setRoot t f e).mt = { e.mt with roots := Tab.set e.mt.roots t (f (root e t)) } := rfl
@[simp] theorem setRoot_store (t : Nat) (f : Root → Root) (e : Eng) : (setRoot t f e).store = e.store := rfl
@[simp] theorem setRoot_steps (t : Nat) (f : Root → Root) (e : Eng) : (setRoot t f e).steps = e.steps := rfl
@[simp] theorem setRoot_setup (t : Nat) (f : Root → Root) (e : Eng) : (setRoot t f e).setup = e.setup := rfl
@[simp] theorem setRoot_qu (t : Nat) (f : Root → Root) (e : Eng) : (setRoot t f e).qu = e.qu := rfl
@[simp] theorem setRoot_quDefault (t : Nat) (f : Root → Root) (e : Eng) : (setRoot t f e).quDefault = e.quDefault := rfl
@[simp] theorem setRoot_st (t : Nat) (f : Root → Root) (e : Eng) : (setRoot t f e).st = e.st := rfl
@[simp] theorem setRoot_ix (t : Nat) (f : Root → Root) (e : Eng) : (setRoot t f e).ix = e.ix := rfl
@[simp] theorem setRoot_fb (t : Nat) (f : Root → Root) (e : Eng) : (setRoot t f e).fb = e.fb := rfl
@[simp] theorem setRoot_ls (t : Nat) (f : Root → Root) (e : Eng) : (setRoot t f e).ls = e.ls := rfl
@[simp] theorem setRoot_rg (t : Nat) (f : Root → Root) (e : Eng) : (setRoot t f e).rg = e.rg := rfl
@[simp] theorem setRoot_build (t : Nat) (f : Root → Root) (e : Eng) : (setRoot t f e).build = e.build := rfl
@[simp] theorem setRoot_nextBuild (t : Nat) (f : Root → Root) (e : Eng) : (setRoot t f e).nextBuild = e.nextBuild := rfl
@[simp] theorem setRoot_coreUp (t : Nat) (f : Root → Root) (e : Eng) : (setRoot t f e).coreUp = e.coreUp := rfl
@[simp] theorem setRoot_stopped (t : Nat) (f : Root → Root) (e : Eng) : (setRoot t f e).stopped = e.stopped := rfl

@[simp] theorem wake_variant (ws : List Waiter) (e : Eng) : (wake ws e).variant = e.variant := rfl
@[simp] theorem wake_shut (ws : List Waiter) (e : Eng) : (wake ws e).shut = e.shut := rfl
@[simp] theorem wake_tick (ws : List Waiter) (e : Eng) : (wake ws e).tick = e.tick := rfl
@[simp] theorem wake_tickLatchHost (ws : List Waiter) (e : Eng) : (wake ws e).tickLatchHost = e.tickLatchHost := rfl
@[simp] theorem wake_tickLatchNw (ws : List Waiter) (e : Eng) : (wake ws e).tickLatchNw = e.tickLatchNw := rfl
@[simp] theorem wake_free (ws : List Waiter) (e : Eng) : (wake ws e).free = e.free := rfl
@[simp] theorem wake_host (ws : List Waiter) (e : Eng) : (wake ws e).host = e.host := rfl
@[simp] theorem wake_sels (ws : List Waiter) (e : Eng) : (wake ws e).sels = e.sels := rfl
@[simp] theorem wake_ctr (ws : List Waiter) (e : Eng) : (wake ws e).ctr = e.ctr := rfl
@[simp] theorem wake_nwEvents (ws : List Waiter) (e : Eng) : (wake ws e).nwEvents = e.nwEvents := rfl
@[simp] theorem wake_hl (ws : List Waiter) (e : Eng) : (wake ws e).hl = e.hl := rfl
@[simp] theorem wake_mt (ws : List Waiter) (e : Eng) : (wake ws e).mt = { e.mt with resume := e.mt.resume ++ ws } := rfl
@[simp] theorem wake_store (ws : List Waiter) (e : Eng) : (wake ws e).store = e.store := rfl
@[simp] theorem wake_steps (ws : List Waiter) (e : Eng) : (wake ws e).steps = e.steps := rfl
@[simp] theorem wake_setup (ws : List Waiter) (e : Eng) : (wake ws e).setup = e.setup := rfl
@[simp] theorem wake_qu (ws : List Waiter) (e : Eng) : (wake ws e).qu = e.qu := rfl
@[simp] theorem wake_quDefault (ws : List Waiter) (e : Eng) : (wake ws e).quDefault = e.quDefault := rfl
@[simp] theorem wake_st (ws : List Waiter) (e : Eng) : (wake ws e).st = e.st := rfl
@[simp] theorem wake_ix (ws : List Waiter) (e : Eng) : (wake ws e).ix = e.ix := rfl
@[simp] theorem wake_fb (ws : List Waiter) (e : Eng) : (wake ws e).fb = e.fb := rfl
@[simp] theorem wake_ls (ws : List Waiter) (e : Eng) : (wake ws e).ls = e.ls := rfl
@[simp] theorem wake_rg (ws : List Waiter) (e : Eng) : (wake ws e).rg = e.rg := rfl
@[simp] theorem wake_build (ws : List Waiter) (e : Eng) : (wake ws e).build = e.build := rfl
@[simp] theorem wake_nextBuild (ws : List Waiter) (e : Eng) : (wake ws e).nextBuild = e.nextBuild := rfl
@[simp] theorem wake_coreUp (ws : List Waiter) (e : Eng) : (wake ws e).coreUp = e.coreUp := rfl
@[simp] theorem wake_stopped (ws : List Waiter) (e : Eng) : (wake ws e).stopped = e.stopped := rfl

@[simp] theorem setRidge_variant (f : Ridge → Ridge) (e : Eng) : (setRidge f e).variant = e.variant := rfl
@[simp] theorem setRidge_shut (f : Ridge → Ridge) (e : Eng) : (setRidge f e).shut = e.shut := rfl
@[simp] theorem setRidge_tick (f : Ridge → Ridge) (e : Eng) : (setRidge f e).tick = e.tick := rfl
@[simp] theorem setRidge_tickLatchHost (f : Ridge → Ridge) (e : Eng) : (setRidge f e).tickLatchHost = e.tickLatchHost := rfl
@[simp] theorem setRidge_tickLatchNw (f : Ridge → Ridge) (e : Eng) : (setRidge f e).tickLatchNw = e.tickLatchNw := rfl
@[simp] theorem setRidge_free (f : Ridge → Ridge) (e : Eng) : (setRidge f e).free = e.free := rfl
@[simp] theorem setRidge_host (f : Ridge → Ridge) (e : Eng) : (setRidge f e).host = e.host := rfl
@[simp] theorem setRidge_sels (f : Ridge → Ridge) (e : Eng) : (setRidge f e).sels = e.sels := rfl
@[simp] theorem setRidge_ctr (f : Ridge → Ridge) (e : Eng) : (setRidge f e).ctr = e.ctr := rfl
@[simp] theorem setRidge_nwEvents (f : Ridge → Ridge) (e : Eng) : (setRidge f e).nwEvents = e.nwEvents := rfl
@[simp] theorem setRidge_hl (f : Ridge → Ridge) (e : Eng) : (setRidge f e).hl = e.hl := rfl
@[simp] theorem setRidge_mt (f : Ridge → Ridge) (e : Eng) : (setRidge f e).mt = e.mt := rfl
@[simp] theorem setRidge_store (f : Ridge → Ridge) (e : Eng) : (setRidge f e).store = e.store := rfl
@[simp] theorem setRidge_steps (f : Ridge → Ridge) (e : Eng) : (setRidge f e).steps = e.steps := rfl
@[simp] theorem setRidge_setup (f : Ridge → Ridge) (e : Eng) : (setRidge f e).setup = e.setup := rfl
@[simp] theorem setRidge_qu (f : Ridge → Ridge) (e : Eng) : (setRidge f e).qu = e.qu := rfl
@[simp] theorem setRidge_quDefault (f : Ridge → Ridge) (e : Eng) : (setRidge f e).quDefault = e.quDefault := rfl
@[simp] theorem setRidge_st (f : Ridge → Ridge) (e : Eng) : (setRidge f e).st = e.st := rfl
@[simp] theorem setRidge_ix (f : Ridge → Ridge) (e : Eng) : (setRidge f e).ix = e.ix := rfl
@[simp] theorem setRidge_fb (f : Ridge → Ridge) (e : Eng) : (setRidge f e).fb = e.fb := rfl
@[simp] theorem setRidge_ls (f : Ridge → Ridge) (e : Eng) : (setRidge f e).ls = e.ls := rfl
@[simp] theorem setRidge_rg (f : Ridge → Ridge) (e : Eng) : (setRidge f e).rg = f e.rg := rfl
@[simp] theorem setRidge_build (f : Ridge → Ridge) (e : Eng) : (setRidge f e).build = e.build := rfl
@[simp] theorem setRidge_nextBuild (f : Ridge → Ridge) (e : Eng) : (setRidge f e).nextBuild = e.nextBuild := rfl
@[simp] theorem setRidge_coreUp (f : Ridge → Ridge) (e : Eng) : (setRidge f e).coreUp = e.coreUp := rfl
@[simp] theorem setRidge_stopped (f : Ridge → Ridge) (e : Eng) : (setRidge f e).stopped = e.stopped := rfl

@[simp] theorem setSession_variant (p : Nat) (f : Session → Session) (e : Eng) : (setSession p f e).variant = e.variant := rfl
@[simp] theorem setSession_shut (p : Nat) (f : Session → Session) (e : Eng) : (setSession p f e).shut = e.shut := rfl
@[simp] theorem setSession_tick (p : Nat) (f : Session → Session) (e : Eng) : (setSession p f e).tick = e.tick := rfl
@[simp] theorem setSession_tickLatchHost (p : Nat) (f : Session → Session) (e : Eng) : (setSession p f e).tickLatchHost = e.tickLatchHost := rfl
@[simp] theorem setSession_tickLatchNw (p : Nat) (f : Session → Session) (e : Eng) : (setSession p f e).tickLatchNw = e.tickLatchNw := rfl
@[simp] theorem setSession_free (p : Nat) (f : Session → Session) (e : Eng) : (setSession p f e).free = e.free := rfl
@[simp] theorem setSession_host (p : Nat) (f : Session → Session) (e : Eng) : (setSession p f e).host = e.host := rfl
@[simp] theorem setSession_sels (p : Nat) (f : Session → Session) (e : Eng) : (setSession p f e).sels = e.sels := rfl
@[simp] theorem setSession_ctr (p : Nat) (f : Session → Session) (e : Eng) : (setSession p f e).ctr = e.ctr := rfl
@[simp] theorem setSession_nwEvents (p : Nat) (f : Session → Session) (e : Eng) : (setSession p f e).nwEvents = e.nwEvents := rfl
@[simp] theorem setSession_hl (p : Nat) (f : Session → Session) (e : Eng) : (setSession p f e).hl = e.hl := rfl
@[simp] theorem setSession_mt (p : Nat) (f : Session → Session) (e : Eng) : (setSession p f e).mt = e.mt := rfl
@[simp] theorem setSession_store (p : Nat) (f : Session → Session) (e : Eng) : (setSession p f e).store = e.store := rfl
@[simp] theorem setSession_steps (p : Nat) (f : Session → Session) (e : Eng) : (setSession p f e).steps = e.steps := rfl
@[simp] theorem setSession_setup (p : Nat) (f : Session → Session) (e : Eng) : (setSession p f e).setup = e.setup := rfl
@[simp] theorem setSession_qu (p : Nat) (f : Session → Session) (e : Eng) : (setSession p f e).qu = e.qu := rfl
@[simp] theorem setSession_quDefault (p : Nat) (f : Session → Session) (e : Eng) : (setSession p f e).quDefault = e.quDefault := rfl
@[simp] theorem setSession_st (p : Nat) (f : Session → Session) (e : Eng) : (setSession p f e).st = e.st := rfl
@[simp] theorem setSession_ix (p : Nat) (f : Session → Session) (e : Eng) : (setSession p f e).ix = e.ix := rfl
@[simp] theorem setSession_fb (p : Nat) (f : Session → Session) (e : Eng) : (setSession p f e).fb = { e.fb with sessions := Tab.modify {} e.fb.sessions p f } := rfl
@[simp] theorem setSession_ls (p : Nat) (f : Session → Session) (e : Eng) : (setSession p f e).ls = e.ls := rfl
@[simp] theorem setSession_rg (p : Nat) (f : Session → Session) (e : Eng) : (setSession p f e).rg = e.rg := rfl
@[simp] theorem setSession_build (p : Nat) (f : Session → Session) (e : Eng) : (setSession p f e).build = e.build := rfl
@[simp] theorem setSession_nextBuild (p : Nat) (f : Session → Session) (e : Eng) : (setSession p f e).nextBuild = e.nextBuild := rfl
@[simp] theorem setSession_coreUp (p : Nat) (f : Session → Session) (e : Eng) : (setSession p f e).coreUp = e.coreUp := rfl
@[simp] theorem setSession_stopped (p : Nat) (f : Session → Session) (e : Eng) : (setSession p f e).stopped = e.stopped := rfl

@[simp] theorem setSlot_variant (n : Nat) (f : StSlot → StSlot) (e : Eng) : (setSlot n f e).variant = e.variant := rfl
@[simp] theorem setSlot_shut (n : Nat) (f : StSlot → StSlot) (e : Eng) : (setSlot n f e).shut = e.shut := rfl
@[simp] theorem setSlot_tick (n : Nat) (f : StSlot → StSlot) (e : Eng) : (setSlot n f e).tick = e.tick := rfl
@[simp] theorem setSlot_tickLatchHost (n : Nat) (f : StSlot → StSlot) (e : Eng) : (setSlot n f e).tickLatchHost = e.tickLatchHost := rfl
@[simp] theorem setSlot_tickLatchNw (n : Nat) (f : StSlot → StSlot) (e : Eng) : (setSlot n f e).tickLatchNw = e.tickLatchNw := rfl
@[simp] theorem setSlot_free (n : Nat) (f : StSlot → StSlot) (e : Eng) : (setSlot n f e).free = e.free := rfl
@[simp] theorem setSlot_host (n : Nat) (f : StSlot → StSlot) (e : Eng) : (setSlot n f e).host = e.host := rfl
@[simp] theorem setSlot_sels (n : Nat) (f : StSlot → StSlot) (e : Eng) : (setSlot n f e).sels = e.sels := rfl
@[simp] theorem setSlot_ctr (n : Nat) (f : StSlot → StSlot) (e : Eng) : (setSlot n f e).ctr = e.ctr := rfl
@[simp] theorem setSlot_nwEvents (n : Nat) (f : StSlot → StSlot) (e : Eng) : (setSlot n f e).nwEvents = e.nwEvents := rfl
@[simp] theorem setSlot_hl (n : Nat) (f : StSlot → StSlot) (e : Eng) : (setSlot n f e).hl = e.hl := rfl
@[simp] theorem setSlot_mt (n : Nat) (f : StSlot → StSlot) (e : Eng) : (setSlot n f e).mt = e.mt := rfl
@[simp] theorem setSlot_store (n : Nat) (f : StSlot → StSlot) (e : Eng) : (setSlot n f e).store = e.store := rfl
@[simp] theorem setSlot_steps (n : Nat) (f : StSlot → StSlot) (e : Eng) : (setSlot n f e).steps = e.steps := rfl
@[simp] theorem setSlot_setup (n : Nat) (f : StSlot → StSlot) (e : Eng) : (setSlot n f e).setup = e.setup := rfl
@[simp] theorem setSlot_qu (n : Nat) (f : StSlot → StSlot) (e : Eng) : (setSlot n f e).qu = e.qu := rfl
@[simp] theorem setSlot_quDefault (n : Nat) (f : StSlot → StSlot) (e : Eng) : (setSlot n f e).quDefault = e.quDefault := rfl
@[simp] theorem setSlot_st (n : Nat) (f : StSlot → StSlot) (e : Eng) : (setSlot n f e).st = { e.st with slots := Tab.modify {} e.st.slots n f } := rfl
@[simp] theorem setSlot_ix (n : Nat) (f : StSlot → StSlot) (e : Eng) : (setSlot n f e).ix = e.ix := rfl
@[simp] theorem setSlot_fb (n : Nat) (f : StSlot → StSlot) (e : Eng) : (setSlot n f e).fb = e.fb := rfl
@[simp] theorem setSlot_ls (n : Nat) (f : StSlot → StSlot) (e : Eng) : (setSlot n f e).ls = e.ls := rfl
@[simp] theorem setSlot_rg (n : Nat) (f : StSlot → StSlot) (e : Eng) : (setSlot n f e).rg = e.rg := rfl
@[simp] theorem setSlot_build (n : Nat) (f : StSlot → StSlot) (e : Eng) : (setSlot n f e).build = e.build := rfl
@[simp] theorem setSlot_nextBuild (n : Nat) (f : StSlot → StSlot) (e : Eng) : (setSlot n f e).nextBuild = e.nextBuild := rfl
@[simp] theorem setSlot_coreUp (n : Nat) (f : StSlot → StSlot) (e : Eng) : (setSlot n f e).coreUp = e.coreUp := rfl
@[simp] theorem setSlot_stopped (n : Nat) (f : StSlot → StSlot) (e : Eng) : (setSlot n f e).stopped = e.stopped := rfl

@[simp] theorem setQueue_variant (q : Nat) (f : HQueue → HQueue) (e : Eng) : (setQueue q f e).variant = e.variant := rfl
@[simp] theorem setQueue_shut (q : Nat) (f : HQueue → HQueue) (e : Eng) : (setQueue q f e).shut = e.shut := rfl
@[simp] theorem setQueue_tick (q : Nat) (f : HQueue → HQueue) (e : Eng) : (setQueue q f e).tick = e.tick := rfl
@[simp] theorem setQueue_tickLatchHost (q : Nat) (f : HQueue → HQueue) (e : Eng) : (setQueue q f e).tickLatchHost = e.tickLatchHost := rfl
@[simp] theorem setQueue_tickLatchNw (q : Nat) (f : HQueue → HQueue) (e : Eng) : (setQueue q f e).tickLatchNw = e.tickLatchNw := rfl
@[simp] theorem setQueue_free (q : Nat) (f : HQueue → HQueue) (e : Eng) : (setQueue q f e).free = e.free := rfl
@[simp] theorem setQueue_host (q : Nat) (f : HQueue → HQueue) (e : Eng) : (setQueue q f e).host = e.host := rfl
@[simp] theorem setQueue_sels (q : Nat) (f : HQueue → HQueue) (e : Eng) : (setQueue q f e).sels = e.sels := rfl
@[simp] theorem setQueue_ctr (q : Nat) (f : HQueue → HQueue) (e : Eng) : (setQueue q f e).ctr = e.ctr := rfl
@[simp] theorem setQueue_nwEvents (q : Nat) (f : HQueue → HQueue) (e : Eng) : (setQueue q f e).nwEvents = e.nwEvents := rfl
@[simp] theorem setQueue_hl (q : Nat) (f : HQueue → HQueue) (e : Eng) : (setQueue q f e).hl = e.hl := rfl
@[simp] theorem setQueue_mt (q : Nat) (f : HQueue → HQueue) (e : Eng) : (setQueue q f e).mt = e.mt := rfl
@[simp] theorem setQueue_store (q : Nat) (f : HQueue → HQueue) (e : Eng) : (setQueue q f e).store = e.store := rfl
@[simp] theorem setQueue_steps (q : Nat) (f : HQueue → HQueue) (e : Eng) : (setQueue q f e).steps = e.steps := rfl
@[simp] theorem setQueue_setup (q : Nat) (f : HQueue → HQueue) (e : Eng) : (setQueue q f e).setup = e.setup := rfl
@[simp] theorem setQueue_qu (q : Nat) (f : HQueue → HQueue) (e : Eng) : (setQueue q f e).qu = e.qu := rfl
@[simp] theorem setQueue_quDefault (q : Nat) (f : HQueue → HQueue) (e : Eng) : (setQueue q f e).quDefault = e.quDefault := rfl
@[simp] theorem setQueue_st (q : Nat) (f : HQueue → HQueue) (e : Eng) : (setQueue q f e).st = { e.st with queues := Tab.modify {} e.st.queues q f } := rfl
@[simp] theorem setQueue_ix (q : Nat) (f : HQueue → HQueue) (e : Eng) : (setQueue q f e).ix = e.ix := rfl
@[simp] theorem setQueue_fb (q : Nat) (f : HQueue → HQueue) (e : Eng) : (setQueue q f e).fb = e.fb := rfl
@[simp] theorem setQueue_ls (q : Nat) (f : HQueue → HQueue) (e : Eng) : (setQueue q f e).ls = e.ls := rfl
@[simp] theorem setQueue_rg (q : Nat) (f : HQueue → HQueue) (e : Eng) : (setQueue q f e).rg = e.rg := rfl
@[simp] theorem setQueue_build (q : Nat) (f : HQueue → HQueue) (e : Eng) : (setQueue q f e).build = e.build := rfl
@[simp] theorem setQueue_nextBuild (q : Nat) (f : HQueue → HQueue) (e : Eng) : (setQueue q f e).nextBuild = e.nextBuild := rfl
@[simp] theorem setQueue_coreUp (q : Nat) (f : HQueue → HQueue) (e : Eng) : (setQueue q f e).coreUp = e.coreUp := rfl
@[simp] theorem setQueue_stopped (q : Nat) (f : HQueue → HQueue) (e : Eng) : (setQueue q f e).stopped = e.stopped := rfl

@[simp] theorem setStaged_variant (f : Staged → Staged) (e : Eng) : (setStaged f e).variant = e.variant := rfl
@[simp] theorem setStaged_shut (f : Staged → Staged) (e : Eng) : (setStaged f e).shut = e.shut := rfl
@[simp] theorem setStaged_tick (f : Staged → Staged) (e : Eng) : (setStaged f e).tick = e.tick := rfl
@[simp] theorem setStaged_tickLatchHost (f : Staged → Staged) (e : Eng) : (setStaged f e).tickLatchHost = e.tickLatchHost := rfl
@[simp] theorem setStaged_tickLatchNw (f : Staged → Staged) (e : Eng) : (setStaged f e).tickLatchNw = e.tickLatchNw := rfl
@[simp] theorem setStaged_free (f : Staged → Staged) (e : Eng) : (setStaged f e).free = e.free := rfl
@[simp] theorem setStaged_host (f : Staged → Staged) (e : Eng) : (setStaged f e).host = e.host := rfl
@[simp] theorem setStaged_sels (f : Staged → Staged) (e : Eng) : (setStaged f e).sels = e.sels := rfl
@[simp] theorem setStaged_ctr (f : Staged → Staged) (e : Eng) : (setStaged f e).ctr = e.ctr := rfl
@[simp] theorem setStaged_nwEvents (f : Staged → Staged) (e : Eng) : (setStaged f e).nwEvents = e.nwEvents := rfl
@[simp] theorem setStaged_hl (f : Staged → Staged) (e : Eng) : (setStaged f e).hl = e.hl := rfl
@[simp] theorem setStaged_mt (f : Staged → Staged) (e : Eng) : (setStaged f e).mt = e.mt := rfl
@[simp] theorem setStaged_store (f : Staged → Staged) (e : Eng) : (setStaged f e).store = e.store := rfl
@[simp] theorem setStaged_steps (f : Staged → Staged) (e : Eng) : (setStaged f e).steps = e.steps := rfl
@[simp] theorem setStaged_setup (f : Staged → Staged) (e : Eng) : (setStaged f e).setup = e.setup := rfl
@[simp] theorem setStaged_qu (f : Staged → Staged) (e : Eng) : (setStaged f e).qu = e.qu := rfl
@[simp] theorem setStaged_quDefault (f : Staged → Staged) (e : Eng) : (setStaged f e).quDefault = e.quDefault := rfl
@[simp] theorem setStaged_st (f : Staged → Staged) (e : Eng) : (setStaged f e).st = e.st := rfl
@[simp] theorem setStaged_ix (f : Staged → Staged) (e : Eng) : (setStaged f e).ix = e.ix := rfl
@[simp] theorem setStaged_fb (f : Staged → Staged) (e : Eng) : (setStaged f e).fb = e.fb := rfl
@[simp] theorem setStaged_ls (f : Staged → Staged) (e : Eng) : (setStaged f e).ls = { e.ls with staged := f e.ls.staged } := rfl
@[simp] theorem setStaged_rg (f : Staged → Staged) (e : Eng) : (setStaged f e).rg = e.rg := rfl
@[simp] theorem setStaged_build (f : Staged → Staged) (e : Eng) : (setStaged f e).build = e.build := rfl
@[simp] theorem setStaged_nextBuild (f : Staged → Staged) (e : Eng) : (setStaged f e).nextBuild = e.nextBuild := rfl
@[simp] theorem setStaged_coreUp (f : Staged → Staged) (e : Eng) : (setStaged f e).coreUp = e.coreUp := rfl
@[simp] theorem setStaged_stopped (f : Staged → Staged) (e : Eng) : (setStaged f e).stopped = e.stopped := rfl

@[simp] theorem setAttach_variant (a : AttachState) (c : Nat) (e : Eng) : (setAttach a c e).variant = e.variant := rfl
@[simp] theorem setAttach_shut (a : AttachState) (c : Nat) (e : Eng) : (setAttach a c e).shut = e.shut := rfl
@[simp] theorem setAttach_tick (a : AttachState) (c : Nat) (e : Eng) : (setAttach a c e).tick = e.tick := rfl
@[simp] theorem setAttach_tickLatchHost (a : AttachState) (c : Nat) (e : Eng) : (setAttach a c e).tickLatchHost = e.tickLatchHost := rfl
@[simp] theorem setAttach_tickLatchNw (a : AttachState) (c : Nat) (e : Eng) : (setAttach a c e).tickLatchNw = e.tickLatchNw := rfl
@[simp] theorem setAttach_free (a : AttachState) (c : Nat) (e : Eng) : (setAttach a c e).free = e.free := rfl
@[simp] theorem setAttach_host (a : AttachState) (c : Nat) (e : Eng) : (setAttach a c e).host = e.host := rfl
@[simp] theorem setAttach_sels (a : AttachState) (c : Nat) (e : Eng) : (setAttach a c e).sels = e.sels := rfl
@[simp] theorem setAttach_ctr (a : AttachState) (c : Nat) (e : Eng) : (setAttach a c e).ctr = e.ctr := rfl
@[simp] theorem setAttach_nwEvents (a : AttachState) (c : Nat) (e : Eng) : (setAttach a c e).nwEvents = e.nwEvents := rfl
@[simp] theorem setAttach_hl (a : AttachState) (c : Nat) (e : Eng) : (setAttach a c e).hl = { e.hl with attach := a, cause := c, helloSeen := false } := rfl
@[simp] theorem setAttach_mt (a : AttachState) (c : Nat) (e : Eng) : (setAttach a c e).mt = e.mt := rfl
@[simp] theorem setAttach_store (a : AttachState) (c : Nat) (e : Eng) : (setAttach a c e).store = e.store := rfl
@[simp] theorem setAttach_steps (a : AttachState) (c : Nat) (e : Eng) : (setAttach a c e).steps = e.steps := rfl
@[simp] theorem setAttach_setup (a : AttachState) (c : Nat) (e : Eng) : (setAttach a c e).setup = e.setup := rfl
@[simp] theorem setAttach_qu (a : AttachState) (c : Nat) (e : Eng) : (setAttach a c e).qu = e.qu := rfl
@[simp] theorem setAttach_quDefault (a : AttachState) (c : Nat) (e : Eng) : (setAttach a c e).quDefault = e.quDefault := rfl
@[simp] theorem setAttach_st (a : AttachState) (c : Nat) (e : Eng) : (setAttach a c e).st = e.st := rfl
@[simp] theorem setAttach_ix (a : AttachState) (c : Nat) (e : Eng) : (setAttach a c e).ix = e.ix := rfl
@[simp] theorem setAttach_fb (a : AttachState) (c : Nat) (e : Eng) : (setAttach a c e).fb = e.fb := rfl
@[simp] theorem setAttach_ls (a : AttachState) (c : Nat) (e : Eng) : (setAttach a c e).ls = e.ls := rfl
@[simp] theorem setAttach_rg (a : AttachState) (c : Nat) (e : Eng) : (setAttach a c e).rg = e.rg := rfl
@[simp] theorem setAttach_build (a : AttachState) (c : Nat) (e : Eng) : (setAttach a c e).build = e.build := rfl
@[simp] theorem setAttach_nextBuild (a : AttachState) (c : Nat) (e : Eng) : (setAttach a c e).nextBuild = e.nextBuild := rfl
@[simp] theorem setAttach_coreUp (a : AttachState) (c : Nat) (e : Eng) : (setAttach a c e).coreUp = e.coreUp := rfl
@[simp] theorem setAttach_stopped (a : AttachState) (c : Nat) (e : Eng) : (setAttach a c e).stopped = e.stopped := rfl

@[simp] theorem setIrq_variant (v : Nat) (f : Irq → Irq) (e : Eng) : (setIrq v f e).variant = e.variant := rfl
@[simp] theorem setIrq_shut (v : Nat) (f : Irq → Irq) (e : Eng) : (setIrq v f e).shut = e.shut := rfl
@[simp] theorem setIrq_tick (v : Nat) (f : Irq → Irq) (e : Eng) : (setIrq v f e).tick = e.tick := rfl
@[simp] theorem setIrq_tickLatchHost (v : Nat) (f : Irq → Irq) (e : Eng) : (setIrq v f e).tickLatchHost = e.tickLatchHost := rfl
@[simp] theorem setIrq_tickLatchNw (v : Nat) (f : Irq → Irq) (e : Eng) : (setIrq v f e).tickLatchNw = e.tickLatchNw := rfl
@[simp] theorem setIrq_free (v : Nat) (f : Irq → Irq) (e : Eng) : (setIrq v f e).free = e.free := rfl
@[simp] theorem setIrq_host (v : Nat) (f : Irq → Irq) (e : Eng) : (setIrq v f e).host = e.host := rfl
@[simp] theorem setIrq_sels (v : Nat) (f : Irq → Irq) (e : Eng) : (setIrq v f e).sels = e.sels := rfl
@[simp] theorem setIrq_ctr (v : Nat) (f : Irq → Irq) (e : Eng) : (setIrq v f e).ctr = e.ctr := rfl
@[simp] theorem setIrq_nwEvents (v : Nat) (f : Irq → Irq) (e : Eng) : (setIrq v f e).nwEvents = e.nwEvents := rfl
@[simp] theorem setIrq_hl (v : Nat) (f : Irq → Irq) (e : Eng) : (setIrq v f e).hl = { e.hl with irqs := Tab.modify {} e.hl.irqs v f } := rfl
@[simp] theorem setIrq_mt (v : Nat) (f : Irq → Irq) (e : Eng) : (setIrq v f e).mt = e.mt := rfl
@[simp] theorem setIrq_store (v : Nat) (f : Irq → Irq) (e : Eng) : (setIrq v f e).store = e.store := rfl
@[simp] theorem setIrq_steps (v : Nat) (f : Irq → Irq) (e : Eng) : (setIrq v f e).steps = e.steps := rfl
@[simp] theorem setIrq_setup (v : Nat) (f : Irq → Irq) (e : Eng) : (setIrq v f e).setup = e.setup := rfl
@[simp] theorem setIrq_qu (v : Nat) (f : Irq → Irq) (e : Eng) : (setIrq v f e).qu = e.qu := rfl
@[simp] theorem setIrq_quDefault (v : Nat) (f : Irq → Irq) (e : Eng) : (setIrq v f e).quDefault = e.quDefault := rfl
@[simp] theorem setIrq_st (v : Nat) (f : Irq → Irq) (e : Eng) : (setIrq v f e).st = e.st := rfl
@[simp] theorem setIrq_ix (v : Nat) (f : Irq → Irq) (e : Eng) : (setIrq v f e).ix = e.ix := rfl
@[simp] theorem setIrq_fb (v : Nat) (f : Irq → Irq) (e : Eng) : (setIrq v f e).fb = e.fb := rfl
@[simp] theorem setIrq_ls (v : Nat) (f : Irq → Irq) (e : Eng) : (setIrq v f e).ls = e.ls := rfl
@[simp] theorem setIrq_rg (v : Nat) (f : Irq → Irq) (e : Eng) : (setIrq v f e).rg = e.rg := rfl
@[simp] theorem setIrq_build (v : Nat) (f : Irq → Irq) (e : Eng) : (setIrq v f e).build = e.build := rfl
@[simp] theorem setIrq_nextBuild (v : Nat) (f : Irq → Irq) (e : Eng) : (setIrq v f e).nextBuild = e.nextBuild := rfl
@[simp] theorem setIrq_coreUp (v : Nat) (f : Irq → Irq) (e : Eng) : (setIrq v f e).coreUp = e.coreUp := rfl
@[simp] theorem setIrq_stopped (v : Nat) (f : Irq → Irq) (e : Eng) : (setIrq v f e).stopped = e.stopped := rfl

@[simp] theorem setHead_variant (r : Nat) (h : Head) (e : Eng) : (setHead r h e).variant = e.variant := rfl
@[simp] theorem setHead_shut (r : Nat) (h : Head) (e : Eng) : (setHead r h e).shut = e.shut := rfl
@[simp] theorem setHead_tick (r : Nat) (h : Head) (e : Eng) : (setHead r h e).tick = e.tick := rfl
@[simp] theorem setHead_tickLatchHost (r : Nat) (h : Head) (e : Eng) : (setHead r h e).tickLatchHost = e.tickLatchHost := rfl
@[simp] theorem setHead_tickLatchNw (r : Nat) (h : Head) (e : Eng) : (setHead r h e).tickLatchNw = e.tickLatchNw := rfl
@[simp] theorem setHead_free (r : Nat) (h : Head) (e : Eng) : (setHead r h e).free = e.free := rfl
@[simp] theorem setHead_host (r : Nat) (h : Head) (e : Eng) : (setHead r h e).host = e.host := rfl
@[simp] theorem setHead_sels (r : Nat) (h : Head) (e : Eng) : (setHead r h e).sels = e.sels := rfl
@[simp] theorem setHead_ctr (r : Nat) (h : Head) (e : Eng) : (setHead r h e).ctr = e.ctr := rfl
@[simp] theorem setHead_nwEvents (r : Nat) (h : Head) (e : Eng) : (setHead r h e).nwEvents = e.nwEvents := rfl
@[simp] theorem setHead_hl (r : Nat) (h : Head) (e : Eng) : (setHead r h e).hl = { e.hl with rings := Tab.modify {} e.hl.rings r (fun q => { q with head := some h }) } := rfl
@[simp] theorem setHead_mt (r : Nat) (h : Head) (e : Eng) : (setHead r h e).mt = e.mt := rfl
@[simp] theorem setHead_store (r : Nat) (h : Head) (e : Eng) : (setHead r h e).store = e.store := rfl
@[simp] theorem setHead_steps (r : Nat) (h : Head) (e : Eng) : (setHead r h e).steps = e.steps := rfl
@[simp] theorem setHead_setup (r : Nat) (h : Head) (e : Eng) : (setHead r h e).setup = e.setup := rfl
@[simp] theorem setHead_qu (r : Nat) (h : Head) (e : Eng) : (setHead r h e).qu = e.qu := rfl
@[simp] theorem setHead_quDefault (r : Nat) (h : Head) (e : Eng) : (setHead r h e).quDefault = e.quDefault := rfl
@[simp] theorem setHead_st (r : Nat) (h : Head) (e : Eng) : (setHead r h e).st = e.st := rfl
@[simp] theorem setHead_ix (r : Nat) (h : Head) (e : Eng) : (setHead r h e).ix = e.ix := rfl
@[simp] theorem setHead_fb (r : Nat) (h : Head) (e : Eng) : (setHead r h e).fb = e.fb := rfl
@[simp] theorem setHead_ls (r : Nat) (h : Head) (e : Eng) : (setHead r h e).ls = e.ls := rfl
@[simp] theorem setHead_rg (r : Nat) (h : Head) (e : Eng) : (setHead r h e).rg = e.rg := rfl
@[simp] theorem setHead_build (r : Nat) (h : Head) (e : Eng) : (setHead r h e).build = e.build := rfl
@[simp] theorem setHead_nextBuild (r : Nat) (h : Head) (e : Eng) : (setHead r h e).nextBuild = e.nextBuild := rfl
@[simp] theorem setHead_coreUp (r : Nat) (h : Head) (e : Eng) : (setHead r h e).coreUp = e.coreUp := rfl
@[simp] theorem setHead_stopped (r : Nat) (h : Head) (e : Eng) : (setHead r h e).stopped = e.stopped := rfl

@[simp] theorem setClosing_variant (f : Closing → Closing) (e : Eng) : (setClosing f e).variant = e.variant := rfl
@[simp] theorem setClosing_shut (f : Closing → Closing) (e : Eng) : (setClosing f e).shut = e.shut := rfl
@[simp] theorem setClosing_tick (f : Closing → Closing) (e : Eng) : (setClosing f e).tick = e.tick := rfl
@[simp] theorem setClosing_tickLatchHost (f : Closing → Closing) (e : Eng) : (setClosing f e).tickLatchHost = e.tickLatchHost := rfl
@[simp] theorem setClosing_tickLatchNw (f : Closing → Closing) (e : Eng) : (setClosing f e).tickLatchNw = e.tickLatchNw := rfl
@[simp] theorem setClosing_free (f : Closing → Closing) (e : Eng) : (setClosing f e).free = e.free := rfl
@[simp] theorem setClosing_host (f : Closing → Closing) (e : Eng) : (setClosing f e).host = e.host := rfl
@[simp] theorem setClosing_sels (f : Closing → Closing) (e : Eng) : (setClosing f e).sels = e.sels := rfl
@[simp] theorem setClosing_ctr (f : Closing → Closing) (e : Eng) : (setClosing f e).ctr = e.ctr := rfl
@[simp] theorem setClosing_nwEvents (f : Closing → Closing) (e : Eng) : (setClosing f e).nwEvents = e.nwEvents := rfl
@[simp] theorem setClosing_hl (f : Closing → Closing) (e : Eng) : (setClosing f e).hl = e.hl := rfl
@[simp] theorem setClosing_mt (f : Closing → Closing) (e : Eng) : (setClosing f e).mt = e.mt := rfl
@[simp] theorem setClosing_store (f : Closing → Closing) (e : Eng) : (setClosing f e).store = e.store := rfl
@[simp] theorem setClosing_steps (f : Closing → Closing) (e : Eng) : (setClosing f e).steps = { e.steps with closing := e.steps.closing.map f } := rfl
@[simp] theorem setClosing_setup (f : Closing → Closing) (e : Eng) : (setClosing f e).setup = e.setup := rfl
@[simp] theorem setClosing_qu (f : Closing → Closing) (e : Eng) : (setClosing f e).qu = e.qu := rfl
@[simp] theorem setClosing_quDefault (f : Closing → Closing) (e : Eng) : (setClosing f e).quDefault = e.quDefault := rfl
@[simp] theorem setClosing_st (f : Closing → Closing) (e : Eng) : (setClosing f e).st = e.st := rfl
@[simp] theorem setClosing_ix (f : Closing → Closing) (e : Eng) : (setClosing f e).ix = e.ix := rfl
@[simp] theorem setClosing_fb (f : Closing → Closing) (e : Eng) : (setClosing f e).fb = e.fb := rfl
@[simp] theorem setClosing_ls (f : Closing → Closing) (e : Eng) : (setClosing f e).ls = e.ls := rfl
@[simp] theorem setClosing_rg (f : Closing → Closing) (e : Eng) : (setClosing f e).rg = e.rg := rfl
@[simp] theorem setClosing_build (f : Closing → Closing) (e : Eng) : (setClosing f e).build = e.build := rfl
@[simp] theorem setClosing_nextBuild (f : Closing → Closing) (e : Eng) : (setClosing f e).nextBuild = e.nextBuild := rfl
@[simp] theorem setClosing_coreUp (f : Closing → Closing) (e : Eng) : (setClosing f e).coreUp = e.coreUp := rfl
@[simp] theorem setClosing_stopped (f : Closing → Closing) (e : Eng) : (setClosing f e).stopped = e.stopped := rfl

@[simp] theorem setStagedRow_variant (t i : Nat) (f : StagedRow → StagedRow) (e : Eng) : (setStagedRow t i f e).variant = e.variant := rfl
@[simp] theorem setStagedRow_shut (t i : Nat) (f : StagedRow → StagedRow) (e : Eng) : (setStagedRow t i f e).shut = e.shut := rfl
@[simp] theorem setStagedRow_tick (t i : Nat) (f : StagedRow → StagedRow) (e : Eng) : (setStagedRow t i f e).tick = e.tick := rfl
@[simp] theorem setStagedRow_tickLatchHost (t i : Nat) (f : StagedRow → StagedRow) (e : Eng) : (setStagedRow t i f e).tickLatchHost = e.tickLatchHost := rfl
@[simp] theorem setStagedRow_tickLatchNw (t i : Nat) (f : StagedRow → StagedRow) (e : Eng) : (setStagedRow t i f e).tickLatchNw = e.tickLatchNw := rfl
@[simp] theorem setStagedRow_free (t i : Nat) (f : StagedRow → StagedRow) (e : Eng) : (setStagedRow t i f e).free = e.free := rfl
@[simp] theorem setStagedRow_host (t i : Nat) (f : StagedRow → StagedRow) (e : Eng) : (setStagedRow t i f e).host = e.host := rfl
@[simp] theorem setStagedRow_sels (t i : Nat) (f : StagedRow → StagedRow) (e : Eng) : (setStagedRow t i f e).sels = e.sels := rfl
@[simp] theorem setStagedRow_ctr (t i : Nat) (f : StagedRow → StagedRow) (e : Eng) : (setStagedRow t i f e).ctr = e.ctr := rfl
@[simp] theorem setStagedRow_nwEvents (t i : Nat) (f : StagedRow → StagedRow) (e : Eng) : (setStagedRow t i f e).nwEvents = e.nwEvents := rfl
@[simp] theorem setStagedRow_hl (t i : Nat) (f : StagedRow → StagedRow) (e : Eng) : (setStagedRow t i f e).hl = e.hl := rfl
@[simp] theorem setStagedRow_mt (t i : Nat) (f : StagedRow → StagedRow) (e : Eng) : (setStagedRow t i f e).mt = e.mt := rfl
@[simp] theorem setStagedRow_store (t i : Nat) (f : StagedRow → StagedRow) (e : Eng) : (setStagedRow t i f e).store = e.store := rfl
@[simp] theorem setStagedRow_steps (t i : Nat) (f : StagedRow → StagedRow) (e : Eng) : (setStagedRow t i f e).steps = { e.steps with staging := e.steps.staging.map (fun r => if r.table = t ∧ r.row = i then f r else r) } := rfl
@[simp] theorem setStagedRow_setup (t i : Nat) (f : StagedRow → StagedRow) (e : Eng) : (setStagedRow t i f e).setup = e.setup := rfl
@[simp] theorem setStagedRow_qu (t i : Nat) (f : StagedRow → StagedRow) (e : Eng) : (setStagedRow t i f e).qu = e.qu := rfl
@[simp] theorem setStagedRow_quDefault (t i : Nat) (f : StagedRow → StagedRow) (e : Eng) : (setStagedRow t i f e).quDefault = e.quDefault := rfl
@[simp] theorem setStagedRow_st (t i : Nat) (f : StagedRow → StagedRow) (e : Eng) : (setStagedRow t i f e).st = e.st := rfl
@[simp] theorem setStagedRow_ix (t i : Nat) (f : StagedRow → StagedRow) (e : Eng) : (setStagedRow t i f e).ix = e.ix := rfl
@[simp] theorem setStagedRow_fb (t i : Nat) (f : StagedRow → StagedRow) (e : Eng) : (setStagedRow t i f e).fb = e.fb := rfl
@[simp] theorem setStagedRow_ls (t i : Nat) (f : StagedRow → StagedRow) (e : Eng) : (setStagedRow t i f e).ls = e.ls := rfl
@[simp] theorem setStagedRow_rg (t i : Nat) (f : StagedRow → StagedRow) (e : Eng) : (setStagedRow t i f e).rg = e.rg := rfl
@[simp] theorem setStagedRow_build (t i : Nat) (f : StagedRow → StagedRow) (e : Eng) : (setStagedRow t i f e).build = e.build := rfl
@[simp] theorem setStagedRow_nextBuild (t i : Nat) (f : StagedRow → StagedRow) (e : Eng) : (setStagedRow t i f e).nextBuild = e.nextBuild := rfl
@[simp] theorem setStagedRow_coreUp (t i : Nat) (f : StagedRow → StagedRow) (e : Eng) : (setStagedRow t i f e).coreUp = e.coreUp := rfl
@[simp] theorem setStagedRow_stopped (t i : Nat) (f : StagedRow → StagedRow) (e : Eng) : (setStagedRow t i f e).stopped = e.stopped := rfl

@[simp] theorem setRead_variant (k : Nat) (r : GRead) (e : Eng) : (setRead k r e).variant = e.variant := rfl
@[simp] theorem setRead_shut (k : Nat) (r : GRead) (e : Eng) : (setRead k r e).shut = e.shut := rfl
@[simp] theorem setRead_tick (k : Nat) (r : GRead) (e : Eng) : (setRead k r e).tick = e.tick := rfl
@[simp] theorem setRead_tickLatchHost (k : Nat) (r : GRead) (e : Eng) : (setRead k r e).tickLatchHost = e.tickLatchHost := rfl
@[simp] theorem setRead_tickLatchNw (k : Nat) (r : GRead) (e : Eng) : (setRead k r e).tickLatchNw = e.tickLatchNw := rfl
@[simp] theorem setRead_free (k : Nat) (r : GRead) (e : Eng) : (setRead k r e).free = e.free := rfl
@[simp] theorem setRead_host (k : Nat) (r : GRead) (e : Eng) : (setRead k r e).host = e.host := rfl
@[simp] theorem setRead_sels (k : Nat) (r : GRead) (e : Eng) : (setRead k r e).sels = e.sels := rfl
@[simp] theorem setRead_ctr (k : Nat) (r : GRead) (e : Eng) : (setRead k r e).ctr = e.ctr := rfl
@[simp] theorem setRead_nwEvents (k : Nat) (r : GRead) (e : Eng) : (setRead k r e).nwEvents = e.nwEvents := rfl
@[simp] theorem setRead_hl (k : Nat) (r : GRead) (e : Eng) : (setRead k r e).hl = e.hl := rfl
@[simp] theorem setRead_mt (k : Nat) (r : GRead) (e : Eng) : (setRead k r e).mt = e.mt := rfl
@[simp] theorem setRead_store (k : Nat) (r : GRead) (e : Eng) : (setRead k r e).store = { e.store with reads := e.store.reads.set k r } := rfl
@[simp] theorem setRead_steps (k : Nat) (r : GRead) (e : Eng) : (setRead k r e).steps = e.steps := rfl
@[simp] theorem setRead_setup (k : Nat) (r : GRead) (e : Eng) : (setRead k r e).setup = e.setup := rfl
@[simp] theorem setRead_qu (k : Nat) (r : GRead) (e : Eng) : (setRead k r e).qu = e.qu := rfl
@[simp] theorem setRead_quDefault (k : Nat) (r : GRead) (e : Eng) : (setRead k r e).quDefault = e.quDefault := rfl
@[simp] theorem setRead_st (k : Nat) (r : GRead) (e : Eng) : (setRead k r e).st = e.st := rfl
@[simp] theorem setRead_ix (k : Nat) (r : GRead) (e : Eng) : (setRead k r e).ix = e.ix := rfl
@[simp] theorem setRead_fb (k : Nat) (r : GRead) (e : Eng) : (setRead k r e).fb = e.fb := rfl
@[simp] theorem setRead_ls (k : Nat) (r : GRead) (e : Eng) : (setRead k r e).ls = e.ls := rfl
@[simp] theorem setRead_rg (k : Nat) (r : GRead) (e : Eng) : (setRead k r e).rg = e.rg := rfl
@[simp] theorem setRead_build (k : Nat) (r : GRead) (e : Eng) : (setRead k r e).build = e.build := rfl
@[simp] theorem setRead_nextBuild (k : Nat) (r : GRead) (e : Eng) : (setRead k r e).nextBuild = e.nextBuild := rfl
@[simp] theorem setRead_coreUp (k : Nat) (r : GRead) (e : Eng) : (setRead k r e).coreUp = e.coreUp := rfl
@[simp] theorem setRead_stopped (k : Nat) (r : GRead) (e : Eng) : (setRead k r e).stopped = e.stopped := rfl

@[simp] theorem setJob_variant (i : Nat) (f : Job → Job) (e : Eng) : (setJob i f e).variant = e.variant := rfl
@[simp] theorem setJob_shut (i : Nat) (f : Job → Job) (e : Eng) : (setJob i f e).shut = e.shut := rfl
@[simp] theorem setJob_tick (i : Nat) (f : Job → Job) (e : Eng) : (setJob i f e).tick = e.tick := rfl
@[simp] theorem setJob_tickLatchHost (i : Nat) (f : Job → Job) (e : Eng) : (setJob i f e).tickLatchHost = e.tickLatchHost := rfl
@[simp] theorem setJob_tickLatchNw (i : Nat) (f : Job → Job) (e : Eng) : (setJob i f e).tickLatchNw = e.tickLatchNw := rfl
@[simp] theorem setJob_free (i : Nat) (f : Job → Job) (e : Eng) : (setJob i f e).free = e.free := rfl
@[simp] theorem setJob_host (i : Nat) (f : Job → Job) (e : Eng) : (setJob i f e).host = e.host := rfl
@[simp] theorem setJob_sels (i : Nat) (f : Job → Job) (e : Eng) : (setJob i f e).sels = e.sels := rfl
@[simp] theorem setJob_ctr (i : Nat) (f : Job → Job) (e : Eng) : (setJob i f e).ctr = e.ctr := rfl
@[simp] theorem setJob_nwEvents (i : Nat) (f : Job → Job) (e : Eng) : (setJob i f e).nwEvents = e.nwEvents := rfl
@[simp] theorem setJob_hl (i : Nat) (f : Job → Job) (e : Eng) : (setJob i f e).hl = e.hl := rfl
@[simp] theorem setJob_mt (i : Nat) (f : Job → Job) (e : Eng) : (setJob i f e).mt = e.mt := rfl
@[simp] theorem setJob_store (i : Nat) (f : Job → Job) (e : Eng) : (setJob i f e).store = { e.store with jobs := e.store.jobs.map (fun j => if j.id = i then f j else j) } := rfl
@[simp] theorem setJob_steps (i : Nat) (f : Job → Job) (e : Eng) : (setJob i f e).steps = e.steps := rfl
@[simp] theorem setJob_setup (i : Nat) (f : Job → Job) (e : Eng) : (setJob i f e).setup = e.setup := rfl
@[simp] theorem setJob_qu (i : Nat) (f : Job → Job) (e : Eng) : (setJob i f e).qu = e.qu := rfl
@[simp] theorem setJob_quDefault (i : Nat) (f : Job → Job) (e : Eng) : (setJob i f e).quDefault = e.quDefault := rfl
@[simp] theorem setJob_st (i : Nat) (f : Job → Job) (e : Eng) : (setJob i f e).st = e.st := rfl
@[simp] theorem setJob_ix (i : Nat) (f : Job → Job) (e : Eng) : (setJob i f e).ix = e.ix := rfl
@[simp] theorem setJob_fb (i : Nat) (f : Job → Job) (e : Eng) : (setJob i f e).fb = e.fb := rfl
@[simp] theorem setJob_ls (i : Nat) (f : Job → Job) (e : Eng) : (setJob i f e).ls = e.ls := rfl
@[simp] theorem setJob_rg (i : Nat) (f : Job → Job) (e : Eng) : (setJob i f e).rg = e.rg := rfl
@[simp] theorem setJob_build (i : Nat) (f : Job → Job) (e : Eng) : (setJob i f e).build = e.build := rfl
@[simp] theorem setJob_nextBuild (i : Nat) (f : Job → Job) (e : Eng) : (setJob i f e).nextBuild = e.nextBuild := rfl
@[simp] theorem setJob_coreUp (i : Nat) (f : Job → Job) (e : Eng) : (setJob i f e).coreUp = e.coreUp := rfl
@[simp] theorem setJob_stopped (i : Nat) (f : Job → Job) (e : Eng) : (setJob i f e).stopped = e.stopped := rfl

@[simp] theorem setSite_variant (k : Nat) (f : Site → Site) (e : Eng) : (setSite k f e).variant = e.variant := rfl
@[simp] theorem setSite_shut (k : Nat) (f : Site → Site) (e : Eng) : (setSite k f e).shut = e.shut := rfl
@[simp] theorem setSite_tick (k : Nat) (f : Site → Site) (e : Eng) : (setSite k f e).tick = e.tick := rfl
@[simp] theorem setSite_tickLatchHost (k : Nat) (f : Site → Site) (e : Eng) : (setSite k f e).tickLatchHost = e.tickLatchHost := rfl
@[simp] theorem setSite_tickLatchNw (k : Nat) (f : Site → Site) (e : Eng) : (setSite k f e).tickLatchNw = e.tickLatchNw := rfl
@[simp] theorem setSite_free (k : Nat) (f : Site → Site) (e : Eng) : (setSite k f e).free = e.free := rfl
@[simp] theorem setSite_host (k : Nat) (f : Site → Site) (e : Eng) : (setSite k f e).host = e.host := rfl
@[simp] theorem setSite_sels (k : Nat) (f : Site → Site) (e : Eng) : (setSite k f e).sels = e.sels := rfl
@[simp] theorem setSite_ctr (k : Nat) (f : Site → Site) (e : Eng) : (setSite k f e).ctr = e.ctr := rfl
@[simp] theorem setSite_nwEvents (k : Nat) (f : Site → Site) (e : Eng) : (setSite k f e).nwEvents = e.nwEvents := rfl
@[simp] theorem setSite_hl (k : Nat) (f : Site → Site) (e : Eng) : (setSite k f e).hl = e.hl := rfl
@[simp] theorem setSite_mt (k : Nat) (f : Site → Site) (e : Eng) : (setSite k f e).mt = e.mt := rfl
@[simp] theorem setSite_store (k : Nat) (f : Site → Site) (e : Eng) : (setSite k f e).store = { e.store with sites := Tab.modify {} e.store.sites k f } := rfl
@[simp] theorem setSite_steps (k : Nat) (f : Site → Site) (e : Eng) : (setSite k f e).steps = e.steps := rfl
@[simp] theorem setSite_setup (k : Nat) (f : Site → Site) (e : Eng) : (setSite k f e).setup = e.setup := rfl
@[simp] theorem setSite_qu (k : Nat) (f : Site → Site) (e : Eng) : (setSite k f e).qu = e.qu := rfl
@[simp] theorem setSite_quDefault (k : Nat) (f : Site → Site) (e : Eng) : (setSite k f e).quDefault = e.quDefault := rfl
@[simp] theorem setSite_st (k : Nat) (f : Site → Site) (e : Eng) : (setSite k f e).st = e.st := rfl
@[simp] theorem setSite_ix (k : Nat) (f : Site → Site) (e : Eng) : (setSite k f e).ix = e.ix := rfl
@[simp] theorem setSite_fb (k : Nat) (f : Site → Site) (e : Eng) : (setSite k f e).fb = e.fb := rfl
@[simp] theorem setSite_ls (k : Nat) (f : Site → Site) (e : Eng) : (setSite k f e).ls = e.ls := rfl
@[simp] theorem setSite_rg (k : Nat) (f : Site → Site) (e : Eng) : (setSite k f e).rg = e.rg := rfl
@[simp] theorem setSite_build (k : Nat) (f : Site → Site) (e : Eng) : (setSite k f e).build = e.build := rfl
@[simp] theorem setSite_nextBuild (k : Nat) (f : Site → Site) (e : Eng) : (setSite k f e).nextBuild = e.nextBuild := rfl
@[simp] theorem setSite_coreUp (k : Nat) (f : Site → Site) (e : Eng) : (setSite k f e).coreUp = e.coreUp := rfl
@[simp] theorem setSite_stopped (k : Nat) (f : Site → Site) (e : Eng) : (setSite k f e).stopped = e.stopped := rfl

@[simp] theorem setQslot_variant (n : Nat) (f : QSlot → QSlot) (e : Eng) : (setQslot n f e).variant = e.variant := rfl
@[simp] theorem setQslot_shut (n : Nat) (f : QSlot → QSlot) (e : Eng) : (setQslot n f e).shut = e.shut := rfl
@[simp] theorem setQslot_tick (n : Nat) (f : QSlot → QSlot) (e : Eng) : (setQslot n f e).tick = e.tick := rfl
@[simp] theorem setQslot_tickLatchHost (n : Nat) (f : QSlot → QSlot) (e : Eng) : (setQslot n f e).tickLatchHost = e.tickLatchHost := rfl
@[simp] theorem setQslot_tickLatchNw (n : Nat) (f : QSlot → QSlot) (e : Eng) : (setQslot n f e).tickLatchNw = e.tickLatchNw := rfl
@[simp] theorem setQslot_free (n : Nat) (f : QSlot → QSlot) (e : Eng) : (setQslot n f e).free = e.free := rfl
@[simp] theorem setQslot_host (n : Nat) (f : QSlot → QSlot) (e : Eng) : (setQslot n f e).host = e.host := rfl
@[simp] theorem setQslot_sels (n : Nat) (f : QSlot → QSlot) (e : Eng) : (setQslot n f e).sels = e.sels := rfl
@[simp] theorem setQslot_ctr (n : Nat) (f : QSlot → QSlot) (e : Eng) : (setQslot n f e).ctr = e.ctr := rfl
@[simp] theorem setQslot_nwEvents (n : Nat) (f : QSlot → QSlot) (e : Eng) : (setQslot n f e).nwEvents = e.nwEvents := rfl
@[simp] theorem setQslot_hl (n : Nat) (f : QSlot → QSlot) (e : Eng) : (setQslot n f e).hl = e.hl := rfl
@[simp] theorem setQslot_mt (n : Nat) (f : QSlot → QSlot) (e : Eng) : (setQslot n f e).mt = e.mt := rfl
@[simp] theorem setQslot_store (n : Nat) (f : QSlot → QSlot) (e : Eng) : (setQslot n f e).store = e.store := rfl
@[simp] theorem setQslot_steps (n : Nat) (f : QSlot → QSlot) (e : Eng) : (setQslot n f e).steps = e.steps := rfl
@[simp] theorem setQslot_setup (n : Nat) (f : QSlot → QSlot) (e : Eng) : (setQslot n f e).setup = e.setup := rfl
@[simp] theorem setQslot_qu (n : Nat) (f : QSlot → QSlot) (e : Eng) : (setQslot n f e).qu = Tab.modify {} e.qu n f := rfl
@[simp] theorem setQslot_quDefault (n : Nat) (f : QSlot → QSlot) (e : Eng) : (setQslot n f e).quDefault = e.quDefault := rfl
@[simp] theorem setQslot_st (n : Nat) (f : QSlot → QSlot) (e : Eng) : (setQslot n f e).st = e.st := rfl
@[simp] theorem setQslot_ix (n : Nat) (f : QSlot → QSlot) (e : Eng) : (setQslot n f e).ix = e.ix := rfl
@[simp] theorem setQslot_fb (n : Nat) (f : QSlot → QSlot) (e : Eng) : (setQslot n f e).fb = e.fb := rfl
@[simp] theorem setQslot_ls (n : Nat) (f : QSlot → QSlot) (e : Eng) : (setQslot n f e).ls = e.ls := rfl
@[simp] theorem setQslot_rg (n : Nat) (f : QSlot → QSlot) (e : Eng) : (setQslot n f e).rg = e.rg := rfl
@[simp] theorem setQslot_build (n : Nat) (f : QSlot → QSlot) (e : Eng) : (setQslot n f e).build = e.build := rfl
@[simp] theorem setQslot_nextBuild (n : Nat) (f : QSlot → QSlot) (e : Eng) : (setQslot n f e).nextBuild = e.nextBuild := rfl
@[simp] theorem setQslot_coreUp (n : Nat) (f : QSlot → QSlot) (e : Eng) : (setQslot n f e).coreUp = e.coreUp := rfl
@[simp] theorem setQslot_stopped (n : Nat) (f : QSlot → QSlot) (e : Eng) : (setQslot n f e).stopped = e.stopped := rfl

@[simp] theorem setAcc_variant (d n : Nat) (a : AccSlot) (e : Eng) : (setAcc d n a e).variant = e.variant := rfl
@[simp] theorem setAcc_shut (d n : Nat) (a : AccSlot) (e : Eng) : (setAcc d n a e).shut = e.shut := rfl
@[simp] theorem setAcc_tick (d n : Nat) (a : AccSlot) (e : Eng) : (setAcc d n a e).tick = e.tick := rfl
@[simp] theorem setAcc_tickLatchHost (d n : Nat) (a : AccSlot) (e : Eng) : (setAcc d n a e).tickLatchHost = e.tickLatchHost := rfl
@[simp] theorem setAcc_tickLatchNw (d n : Nat) (a : AccSlot) (e : Eng) : (setAcc d n a e).tickLatchNw = e.tickLatchNw := rfl
@[simp] theorem setAcc_free (d n : Nat) (a : AccSlot) (e : Eng) : (setAcc d n a e).free = e.free := rfl
@[simp] theorem setAcc_host (d n : Nat) (a : AccSlot) (e : Eng) : (setAcc d n a e).host = e.host := rfl
@[simp] theorem setAcc_sels (d n : Nat) (a : AccSlot) (e : Eng) : (setAcc d n a e).sels = e.sels := rfl
@[simp] theorem setAcc_ctr (d n : Nat) (a : AccSlot) (e : Eng) : (setAcc d n a e).ctr = e.ctr := rfl
@[simp] theorem setAcc_nwEvents (d n : Nat) (a : AccSlot) (e : Eng) : (setAcc d n a e).nwEvents = e.nwEvents := rfl
@[simp] theorem setAcc_hl (d n : Nat) (a : AccSlot) (e : Eng) : (setAcc d n a e).hl = e.hl := rfl
@[simp] theorem setAcc_mt (d n : Nat) (a : AccSlot) (e : Eng) : (setAcc d n a e).mt = e.mt := rfl
@[simp] theorem setAcc_store (d n : Nat) (a : AccSlot) (e : Eng) : (setAcc d n a e).store = e.store := rfl
@[simp] theorem setAcc_steps (d n : Nat) (a : AccSlot) (e : Eng) : (setAcc d n a e).steps = e.steps := rfl
@[simp] theorem setAcc_setup (d n : Nat) (a : AccSlot) (e : Eng) : (setAcc d n a e).setup = e.setup := rfl
@[simp] theorem setAcc_qu (d n : Nat) (a : AccSlot) (e : Eng) : (setAcc d n a e).qu = e.qu := rfl
@[simp] theorem setAcc_quDefault (d n : Nat) (a : AccSlot) (e : Eng) : (setAcc d n a e).quDefault = e.quDefault := rfl
@[simp] theorem setAcc_st (d n : Nat) (a : AccSlot) (e : Eng) : (setAcc d n a e).st = e.st := rfl
@[simp] theorem setAcc_ix (d n : Nat) (a : AccSlot) (e : Eng) : (setAcc d n a e).ix = { e.ix with slots := Tab.set e.ix.slots (512 * d + n) a } := rfl
@[simp] theorem setAcc_fb (d n : Nat) (a : AccSlot) (e : Eng) : (setAcc d n a e).fb = e.fb := rfl
@[simp] theorem setAcc_ls (d n : Nat) (a : AccSlot) (e : Eng) : (setAcc d n a e).ls = e.ls := rfl
@[simp] theorem setAcc_rg (d n : Nat) (a : AccSlot) (e : Eng) : (setAcc d n a e).rg = e.rg := rfl
@[simp] theorem setAcc_build (d n : Nat) (a : AccSlot) (e : Eng) : (setAcc d n a e).build = e.build := rfl
@[simp] theorem setAcc_nextBuild (d n : Nat) (a : AccSlot) (e : Eng) : (setAcc d n a e).nextBuild = e.nextBuild := rfl
@[simp] theorem setAcc_coreUp (d n : Nat) (a : AccSlot) (e : Eng) : (setAcc d n a e).coreUp = e.coreUp := rfl
@[simp] theorem setAcc_stopped (d n : Nat) (a : AccSlot) (e : Eng) : (setAcc d n a e).stopped = e.stopped := rfl

@[simp] theorem setLink_variant (l : Nat) (f : DirectLink → DirectLink) (e : Eng) : (setLink l f e).variant = e.variant := rfl
@[simp] theorem setLink_shut (l : Nat) (f : DirectLink → DirectLink) (e : Eng) : (setLink l f e).shut = e.shut := rfl
@[simp] theorem setLink_tick (l : Nat) (f : DirectLink → DirectLink) (e : Eng) : (setLink l f e).tick = e.tick := rfl
@[simp] theorem setLink_tickLatchHost (l : Nat) (f : DirectLink → DirectLink) (e : Eng) : (setLink l f e).tickLatchHost = e.tickLatchHost := rfl
@[simp] theorem setLink_tickLatchNw (l : Nat) (f : DirectLink → DirectLink) (e : Eng) : (setLink l f e).tickLatchNw = e.tickLatchNw := rfl
@[simp] theorem setLink_free (l : Nat) (f : DirectLink → DirectLink) (e : Eng) : (setLink l f e).free = e.free := rfl
@[simp] theorem setLink_host (l : Nat) (f : DirectLink → DirectLink) (e : Eng) : (setLink l f e).host = e.host := rfl
@[simp] theorem setLink_sels (l : Nat) (f : DirectLink → DirectLink) (e : Eng) : (setLink l f e).sels = e.sels := rfl
@[simp] theorem setLink_ctr (l : Nat) (f : DirectLink → DirectLink) (e : Eng) : (setLink l f e).ctr = e.ctr := rfl
@[simp] theorem setLink_nwEvents (l : Nat) (f : DirectLink → DirectLink) (e : Eng) : (setLink l f e).nwEvents = e.nwEvents := rfl
@[simp] theorem setLink_hl (l : Nat) (f : DirectLink → DirectLink) (e : Eng) : (setLink l f e).hl = e.hl := rfl
@[simp] theorem setLink_mt (l : Nat) (f : DirectLink → DirectLink) (e : Eng) : (setLink l f e).mt = e.mt := rfl
@[simp] theorem setLink_store (l : Nat) (f : DirectLink → DirectLink) (e : Eng) : (setLink l f e).store = e.store := rfl
@[simp] theorem setLink_steps (l : Nat) (f : DirectLink → DirectLink) (e : Eng) : (setLink l f e).steps = e.steps := rfl
@[simp] theorem setLink_setup (l : Nat) (f : DirectLink → DirectLink) (e : Eng) : (setLink l f e).setup = e.setup := rfl
@[simp] theorem setLink_qu (l : Nat) (f : DirectLink → DirectLink) (e : Eng) : (setLink l f e).qu = e.qu := rfl
@[simp] theorem setLink_quDefault (l : Nat) (f : DirectLink → DirectLink) (e : Eng) : (setLink l f e).quDefault = e.quDefault := rfl
@[simp] theorem setLink_st (l : Nat) (f : DirectLink → DirectLink) (e : Eng) : (setLink l f e).st = e.st := rfl
@[simp] theorem setLink_ix (l : Nat) (f : DirectLink → DirectLink) (e : Eng) : (setLink l f e).ix = e.ix := rfl
@[simp] theorem setLink_fb (l : Nat) (f : DirectLink → DirectLink) (e : Eng) : (setLink l f e).fb = { e.fb with links := Tab.modify {} e.fb.links l f } := rfl
@[simp] theorem setLink_ls (l : Nat) (f : DirectLink → DirectLink) (e : Eng) : (setLink l f e).ls = e.ls := rfl
@[simp] theorem setLink_rg (l : Nat) (f : DirectLink → DirectLink) (e : Eng) : (setLink l f e).rg = e.rg := rfl
@[simp] theorem setLink_build (l : Nat) (f : DirectLink → DirectLink) (e : Eng) : (setLink l f e).build = e.build := rfl
@[simp] theorem setLink_nextBuild (l : Nat) (f : DirectLink → DirectLink) (e : Eng) : (setLink l f e).nextBuild = e.nextBuild := rfl
@[simp] theorem setLink_coreUp (l : Nat) (f : DirectLink → DirectLink) (e : Eng) : (setLink l f e).coreUp = e.coreUp := rfl
@[simp] theorem setLink_stopped (l : Nat) (f : DirectLink → DirectLink) (e : Eng) : (setLink l f e).stopped = e.stopped := rfl

@[simp] theorem holdRange_variant (w : Waiter) (n : Nat) (r : Range) (e : Eng) : (holdRange w n r e).variant = e.variant := rfl
@[simp] theorem holdRange_shut (w : Waiter) (n : Nat) (r : Range) (e : Eng) : (holdRange w n r e).shut = e.shut := rfl
@[simp] theorem holdRange_tick (w : Waiter) (n : Nat) (r : Range) (e : Eng) : (holdRange w n r e).tick = e.tick := rfl
@[simp] theorem holdRange_tickLatchHost (w : Waiter) (n : Nat) (r : Range) (e : Eng) : (holdRange w n r e).tickLatchHost = e.tickLatchHost := rfl
@[simp] theorem holdRange_tickLatchNw (w : Waiter) (n : Nat) (r : Range) (e : Eng) : (holdRange w n r e).tickLatchNw = e.tickLatchNw := rfl
@[simp] theorem holdRange_free (w : Waiter) (n : Nat) (r : Range) (e : Eng) : (holdRange w n r e).free = e.free := rfl
@[simp] theorem holdRange_host (w : Waiter) (n : Nat) (r : Range) (e : Eng) : (holdRange w n r e).host = e.host := rfl
@[simp] theorem holdRange_sels (w : Waiter) (n : Nat) (r : Range) (e : Eng) : (holdRange w n r e).sels = e.sels := rfl
@[simp] theorem holdRange_ctr (w : Waiter) (n : Nat) (r : Range) (e : Eng) : (holdRange w n r e).ctr = e.ctr := rfl
@[simp] theorem holdRange_nwEvents (w : Waiter) (n : Nat) (r : Range) (e : Eng) : (holdRange w n r e).nwEvents = e.nwEvents := rfl
@[simp] theorem holdRange_hl (w : Waiter) (n : Nat) (r : Range) (e : Eng) : (holdRange w n r e).hl = e.hl := rfl
@[simp] theorem holdRange_mt (w : Waiter) (n : Nat) (r : Range) (e : Eng) : (holdRange w n r e).mt = { e.mt with holds := (w, n, r) :: e.mt.holds.filter (fun h => liveWaiter e h.1 && !(h.1 == w && h.2.1 == n)) } := rfl
@[simp] theorem holdRange_store (w : Waiter) (n : Nat) (r : Range) (e : Eng) : (holdRange w n r e).store = e.store := rfl
@[simp] theorem holdRange_steps (w : Waiter) (n : Nat) (r : Range) (e : Eng) : (holdRange w n r e).steps = e.steps := rfl
@[simp] theorem holdRange_setup (w : Waiter) (n : Nat) (r : Range) (e : Eng) : (holdRange w n r e).setup = e.setup := rfl
@[simp] theorem holdRange_qu (w : Waiter) (n : Nat) (r : Range) (e : Eng) : (holdRange w n r e).qu = e.qu := rfl
@[simp] theorem holdRange_quDefault (w : Waiter) (n : Nat) (r : Range) (e : Eng) : (holdRange w n r e).quDefault = e.quDefault := rfl
@[simp] theorem holdRange_st (w : Waiter) (n : Nat) (r : Range) (e : Eng) : (holdRange w n r e).st = e.st := rfl
@[simp] theorem holdRange_ix (w : Waiter) (n : Nat) (r : Range) (e : Eng) : (holdRange w n r e).ix = e.ix := rfl
@[simp] theorem holdRange_fb (w : Waiter) (n : Nat) (r : Range) (e : Eng) : (holdRange w n r e).fb = e.fb := rfl
@[simp] theorem holdRange_ls (w : Waiter) (n : Nat) (r : Range) (e : Eng) : (holdRange w n r e).ls = e.ls := rfl
@[simp] theorem holdRange_rg (w : Waiter) (n : Nat) (r : Range) (e : Eng) : (holdRange w n r e).rg = e.rg := rfl
@[simp] theorem holdRange_build (w : Waiter) (n : Nat) (r : Range) (e : Eng) : (holdRange w n r e).build = e.build := rfl
@[simp] theorem holdRange_nextBuild (w : Waiter) (n : Nat) (r : Range) (e : Eng) : (holdRange w n r e).nextBuild = e.nextBuild := rfl
@[simp] theorem holdRange_coreUp (w : Waiter) (n : Nat) (r : Range) (e : Eng) : (holdRange w n r e).coreUp = e.coreUp := rfl
@[simp] theorem holdRange_stopped (w : Waiter) (n : Nat) (r : Range) (e : Eng) : (holdRange w n r e).stopped = e.stopped := rfl


/-! ## Settling -/

theorem tellFaults_none {e : Eng} (h : e.mt.notices = []) : tellFaults e = e := by
  have hm : ∀ m : Meridian, m.notices = [] → { m with notices := [] } = m := by
    rintro ⟨⟩ k; cases k; rfl
  unfold tellFaults
  simp only [h, List.foldl_nil, hm _ h]

theorem resumeAll_none {e : Eng} (h : e.mt.resume = []) : resumeAll e = e := by
  have hm : ∀ m : Meridian, m.resume = [] → { m with resume := [] } = m := by
    rintro ⟨⟩ k; cases k; rfl
  unfold resumeAll
  simp only [h, List.filter_nil, List.foldl_nil, hm _ h]

theorem retryBlocked_none {e : Eng} (h : e.hl.cmds.any (fun c => c.work == .blocked) = false) : retryBlocked e = e := by
  have hf : e.hl.cmds.filter (fun c => c.work == .blocked && mayResume e (.cmd c.id)) = [] := by
    rw [List.filter_eq_nil_iff]
    intro c hc
    have := List.any_eq_false.1 h c hc
    simp_all
  unfold retryBlocked
  rw [hf]
  split <;> rfl

theorem mayRetry_none {e : Eng} (h : e.hl.cmds.any (·.retry) = false) : ∀ c ∈ e.hl.cmds, mayRetry e c = false := by
  intro c hc
  have := List.any_eq_false.1 h c hc
  simp_all [mayRetry]

theorem retryWaiting_none {e : Eng} (h : e.hl.cmds.any (·.retry) = false) : retryWaiting e = e := by
  have hf : e.hl.cmds.filter (mayRetry e) = [] := by
    rw [List.filter_eq_nil_iff]
    exact fun c hc => by simp [mayRetry_none h c hc]
  unfold retryWaiting
  rw [hf]
  rfl

/-- Nothing goes on by itself on a calm data path. -/
theorem settleEng_calm {e : Eng} (h : calmEng e = true) : settleEng e = e := by
  unfold settleEng
  split
  · rfl
  · next hs =>
    have hs : e.stopped = false := by simpa using hs
    simp only [calmEng, hs, Bool.false_or, Bool.and_eq_true, List.isEmpty_iff, Bool.not_eq_true', Option.isNone_iff_eq_none] at h
    obtain ⟨⟨⟨⟨⟨⟨⟨⟨⟨hn, hr⟩, hb⟩, hy⟩, hc⟩, hf⟩, hg⟩, hd⟩, hsl⟩, hsw⟩ := h
    have hone : settleRound e = e := by
      unfold settleRound
      rw [tellFaults_none hn, resumeAll_none hr, retryBlocked_none hb, retryWaiting_none hy]
      have h1 : goOnFences e = e := by
        unfold goOnFences
        have hx : trySendFences e = e := by unfold trySendFences; simp [hf]
        rw [hx]
        unfold tryRoundFences
        simp [hg]
      have h2 : goOnClose e = e := by unfold goOnClose; simp [hc]
      have h3 : tryStandDown e = e := by unfold tryStandDown; simp [hd]
      rw [h1, h2, h3]
      unfold pumpStreams
      simp [hsl, hsw]
    have hu : unsettled e = false := by simpa [unsettled, hn, hr] using mayRetry_none hy
    unfold settleRounds
    simp [hone, hu]

/-- Nothing goes on by itself in a calm engine. -/
theorem settle_calm {s : State} (h : calm s = true) : settle s = s := by
  simp only [calm, Bool.and_eq_true, Option.isNone_iff_eq_none, Bool.not_eq_true', List.isEmpty_iff] at h
  obtain ⟨⟨⟨⟨⟨⟨h1, h2⟩, h3⟩, h4⟩, h5⟩, h6⟩, h7⟩ := h
  have e1 : onEng settleEng s = s := by unfold onEng; rw [settleEng_calm h1]
  have e2 : reachGoal s = s := by unfold reachGoal; rw [h2]
  have e3 : raiseDue s = s := by unfold raiseDue; rw [h3]
  have e4 : activateIfDue s = s := by unfold activateIfDue mayActivate; simp [h4]
  have e5 : nwDrain 4 s = s := by unfold nwDrain; rw [h5]
  have e6 : serveMailbox s = s := by unfold serveMailbox; simp [h6]
  have e7 : noteBuild s = s := by
    unfold noteBuild
    rw [if_pos]
    simpa [or_assoc] using h7
  unfold settle
  rw [e1, e2, e3, e4, e5, e6, e7]

/-- Counting, events and host writes leave a data path as calm as it was. -/
theorem Noted.calm {a b : Eng} (h : Noted a b) : calmEng b = calmEng a := by
  obtain ⟨_, _, _, _, _, _, _, _, rfl⟩ := h
  rfl

/-- A calm engine stays calm under a change of the data path that keeps it calm and touches neither the mailbox's turn nor the build. -/
theorem calm_onEng {s : State} {f : Eng → Eng} (h : calm s = true) (hc : calmEng (f s.eng) = true)
    (hm : (f s.eng).hl.mbHeld = s.eng.hl.mbHeld) (hs : (f s.eng).stopped = s.eng.stopped) (hb : (f s.eng).build = s.eng.build) :
    calm (onEng f s) = true := by
  simp only [calm, Bool.and_eq_true] at h ⊢
  simp only [onEng_eng, onEng_pw, onEng_fw, onEng_nw, hc, hm, hs, hb]
  exact ⟨⟨⟨⟨⟨⟨trivial, h.1.1.1.1.1.2⟩, h.1.1.1.1.2⟩, h.1.1.1.2⟩, h.1.1.2⟩, h.1.2⟩, h.2⟩

/-- A calm engine settles to itself after a change that only notes. -/
theorem settle_noted {s : State} {f : Eng → Eng} (h : calm s = true) (hn : Noted s.eng (f s.eng)) :
    settle (onEng f s) = onEng f s := by
  have hc : calmEng s.eng = true := by simp only [calm, Bool.and_eq_true] at h; exact h.1.1.1.1.1.1
  exact settle_calm (calm_onEng h (hn.calm.trans hc) hn.hl_mbHeld hn.stopped hn.build)

end Sys2Proof.Machine
end

