-- ==== Sys2Proof/Tests/Slice0.lean ====
section
/-! SUPPORT. Tests: ill-formed commands, values the spec states, and, for each statement with hypotheses, a state and operands that
meet them all. -/

namespace Sys2Proof.Tests
open Sys2Proof Sys2Proof.Machine

-- One theorem after another: many kernel evaluations that wait for each other would each hold a thread.
set_option Elab.async false

/-! ## Small states and operands -/

/-- A descriptor of an opcode and seq: version 1, tag 0xC0FFEE, and its bytes from 16 on. -/
def desc (op seq : Nat) (body : List Byte) : Desc :=
  let h := [BitVec.ofNat 8 op, 1, 0, 0] ++ leBytes 4 seq ++ leBytes 8 0xC0FFEE ++ body
  h ++ zeros (64 - h.length)

/-- A booted engine in SOLO with a host attached, two submission rings, their completion rings and the event ring. -/
def up : State :=
  { State.reset with
    eng := { State.reset.eng with
      stopped := false
      hl := { attach := .attached, statusBase := 0x1000
              rings := [(0, { enable := true, base := 0x10000 }), (1, { enable := true, base := 0x18000, cq := 1, priority := 1 }),
                (64, { enable := true, base := 0x20000 }), (65, { enable := true, base := 0x28000 }), (128, { enable := true, base := 0x30000 })] }
      rg := { state := .solo, portsUp := [64], linkLost := false } }
    fw := { State.reset.fw with resetRung := 0 } }

/-- Change the data path. -/
def upE (f : Eng → Eng) : State := { up with eng := f up.eng }

/-- Change the host link. -/
def upH (f : HostLink → HostLink) : State := upE (fun e => { e with hl := f e.hl })

/-- Change Meridian. -/
def upM (f : Meridian → Meridian) : State := upE (fun e => { e with mt := f e.mt })

/-- No host attached. -/
def alone : State := upH (fun h => { h with attach := .detached })

/-- The member is DOWN. -/
def down : State := upE (fun e => { e with rg := { e.rg with state := .down } })

/-- A step is open. -/
def inStep : State := upE (fun e => { e with steps := { e.steps with openStep := some 4, lastOpened := some 4 } })

/-- A command waiting for a translation. -/
def waiting (id ring op : Nat) : RunCmd :=
  { id, ring, seq := 0, desc := desc op 0 [], step := 0, carried := false, partner := false, work := .parked, done := none, recIdx := none,
    skyHalt := [] }

/-- Commands accepted before. -/
def busyWith (cs : List RunCmd) : State := upH (fun h => { h with cmds := cs, nextId := 5 })

/-- A descriptor at the head of ring 0. -/
def withHead (d : Desc) : State := { up with eng := setRing 0 (fun q => { q with prod := 1 }) (hostStore 0x10000 d up.eng) }

/-- A packet header from node 5. -/
def hdr : PktHdr :=
  { src := 5, dst := 0x100, srcGen := 0, dstGen := 0, epoch := 0, seq := 0, ack := 0, step := 0, credit := 2, hops := 0, unseq := false,
    retransmit := false, reissued := false }

/-- A pending fault a command waits on. -/
def faulted : State :=
  { busyWith [waiting 1 0 0x18] with
    eng := { (busyWith [waiting 1 0 0x18]).eng with
      mt := { faults := [(2, { pending := true, table := 1, gen := 1, start := 0, fin := 4096, kind := 2, waiters := [.cmd 1] })] } } }

/-- The configuration in use has members: this node and node 5. -/
def inJob (e : Eng) : Eng := { e with ls := { e.ls with active := { emptyConf with members := [0x100, 5] } } }

/-- The dormer window, open on its first bytes. -/
def window (wr : Bool) : State := upM (fun m => { m with dwEnable := true, dwWriteEn := wr })

/-- The state a command answers. -/
def after (i : Instr) (s : State) : State := match exec i s with | .next t => t | _ => s

/-! ## Ill-formed commands: one for each check of WellFormed -/

theorem test_well_formed_nop : (Instr.nop 63 (desc 0 0 [])).wf = true := by decide

theorem test_ill_formed_host_commands :
    [Instr.nop 64 (desc 0 0 []), .nop 0 [0], .lookupPool 0 (zeros 65), .combine 64 (zeros 64), .acceptCommand 64, .journalDone 64,
      .commandComplete 64 0, .journalAck 64 0, .tileClose 64 0 0, .submissionDoorbell 64 0, .completionDoorbell 64 0,
      .irqModerationTimeout 63, .irqModerationTimeout 129, .hello 65536, .attach 65536 0, .attach 0 65536, .detachDrain 65536 0,
      .detachDrain 0 (2 ^ 32), .detachAbandon 65536, .hostLinkModuleFail 9, .hostReadData (2 ^ 52) [0], .registerWrite 2 0,
      .registerWrite (2 ^ 29) 0, .counterReadLo .host 1, .counterReadLo .host (2 ^ 29), .counterReadLo .nightwatch (2 ^ 24), .counterClear .nightwatch 3].all
      (fun i => !i.wf) = true := by decide +kernel

theorem test_ill_formed_packets :
    [Instr.ack { hdr with src := 2 ^ 20 }, .ack { hdr with dst := 2 ^ 20 }, .ack { hdr with step := 2 ^ 48 },
      .index hdr ⟨65536, 0, 0, 0, false, [], []⟩, .index hdr ⟨0, 65536, 0, 0, false, [], []⟩, .index hdr ⟨0, 0, 0, 4, false, [], []⟩,
      .index hdr ⟨0, 0, 0, 0, false, [⟨2 ^ 40, 0, 0, none⟩], []⟩, .index hdr ⟨0, 0, 0, 0, false, [⟨0, 2 ^ 32, 0, none⟩], []⟩,
      .index hdr ⟨0, 0, 0, 0, false, [⟨0, 0, 2 ^ 32, none⟩], []⟩, .result hdr ⟨65536, 0, 0, 0, []⟩, .result hdr ⟨0, 65536, 0, 0, []⟩,
      .result hdr ⟨0, 0, 0, 3, []⟩, .result hdr ⟨0, 0, 0, 0, [⟨2 ^ 32, false, false, []⟩]⟩, .record hdr [⟨65536, 0, 0, 0, 0, 0, 0, [], none⟩],
      .record hdr [⟨0, 256, 0, 0, 0, 0, 0, [], none⟩], .record hdr [⟨0, 0, 256, 0, 0, 0, 0, [], none⟩], .record hdr [⟨0, 0, 0, 2 ^ 32, 0, 0, 0, [], none⟩],
      .record hdr [⟨0, 0, 0, 0, 2 ^ 40, 0, 0, [], none⟩], .record hdr [⟨0, 0, 0, 0, 0, 0, 2 ^ 24, [], none⟩], .recordAck hdr ⟨2 ^ 48, 0, false, [], none⟩,
      .recordAck hdr ⟨0, 256, false, [], none⟩, .recordAck hdr ⟨0, 0, false, [(2, 1)], none⟩, .fencePacket hdr ⟨0, 256, true, []⟩,
      .fencePacket hdr ⟨0, 0, true, List.replicate 1021 (0, 0)⟩, .fencePacket hdr ⟨0, 0, true, [(65536, 0)]⟩, .restep hdr 65536 0,
      .restep hdr 0 256, .skyWrite hdr ⟨0, 2 ^ 64, 0, [0]⟩, .skyRead hdr ⟨0, 2 ^ 64, 1, 0, none⟩, .skyData hdr ⟨0, 2 ^ 64, [0]⟩,
      .skyWriteAck hdr (2 ^ 32), .skyResume hdr (2 ^ 32), .aborted hdr (2 ^ 32), .faultPending hdr (2 ^ 32) 0, .faultPending hdr 0 32,
      .denied hdr (2 ^ 32) 0, .denied hdr 0 256, .epochReject hdr 0 256 0, .beacon hdr ⟨2 ^ 20, 0, 0, 0, 0, 0⟩,
      .beacon hdr ⟨0, 0, 0, 0, 0, 2 ^ 48⟩].all (fun i => !i.wf) = true := by decide +kernel

theorem test_ill_formed_fabric_and_ridge :
    [Instr.ethernetFrameRx 64 [], .linkFrameRx 64 [], .linkNak 64 0, .linkNak 0 4096, .linkChange 68 true, .retransmitTimeout (2 ^ 20),
      .ackDelayTimeout (2 ^ 20), .recordResend (2 ^ 20), .holdTimer (2 ^ 20) 0, .holdTimer 0 (2 ^ 48),
      .journal ⟨2 ^ 20, 0, 0, zeros 64, [], 0, 0, false, false⟩, .journal ⟨0, 64, 0, zeros 64, [], 0, 0, false, false⟩,
      .journal ⟨0, 0, 0, [], [], 0, 0, false, false⟩, .journal ⟨0, 0, 0, zeros 64, [], 2 ^ 48, 0, false, false⟩,
      .forward [.entry (2 ^ 48) ⟨0, 0, 0, 0, 0, 0, 0, [], none⟩], .forward [.replace 0 ⟨65536, 0, 0, 0, 0, 0, 0, [], none⟩],
      .forward [.atomic 64 0 0 0 0 0 []], .repair ⟨.row, 65536, 0, 0, 0⟩, .repair ⟨.row, 0, 2 ^ 40, 0, 0⟩, .repair ⟨.row, 0, 0, 2 ^ 48, 0⟩,
      .repairReply ⟨.row, 0, 0, 0, 257⟩ .unavailable, .join ⟨2 ^ 20, .e8, 0, 0, none, false, false, false⟩].all (fun i => !i.wf) = true := by
  decide +kernel

theorem test_ill_formed_engine_and_board :
    [Instr.streamRunStart 256, .streamRequestDone 256 0, .queueReset 256, .faultRetry 32 0, .faultAbort 32 0, .skyFaultLimit 32,
      .dormerRead 0 3, .dormerRead 2 4, .dormerRead (2 ^ 28) 1, .dormerWrite 0 [0, 0, 0], .dormerWrite 1 [0, 0], .dormerWrite (2 ^ 28) [0],
      .shadowDrainDone 3 0, .shadowDrainDone 0 8, .burstParityError 24 0 false .lane, .burstParityError 0 64 false .site,
      .burstParityError 0 0 false (.burst 0 none), .burstParityError 0 0 false (.staged 65536 0), .burstParityError 0 0 false (.token 64 0 0), .currentClamp .memory 6, .currentClampRelease .io 1, .powerCapTick 0 0, .powerCapTick 0 17,
      .duskIdleTimeout 3, .duskWake 3, .coreWatchdogExpiry 6, .coreProtectionFault 6, .coreRestart 6 true, .controlParity ⟨.stack, 0, 0⟩,
      .hang ⟨.compute, 3, 0⟩, .quarantineEnd ⟨.io, 1, 0⟩, .catastrophicTemperature 24, .refreshManagementRequest 24].all
      (fun i => !i.wf) = true := by decide +kernel

theorem test_ill_formed_nightwatch :
    [Instr.nwHello ⟨0, 2 ^ 79, false⟩, .nwHello ⟨65536, 0, false⟩, .jobCounters ⟨65536, 0, false⟩, .lodestar ⟨65536, 0, false⟩, .nwStatus ⟨65536, 0, false⟩, .returnToService ⟨65536, 0, false⟩, .activate ⟨65536, 0, false⟩, .commit ⟨65536, 0, false⟩,
      .oosRecord ⟨65536, 0, false⟩, .regRead ⟨65536, 0, false⟩ 0 0, .regRead ⟨0, 0, false⟩ (2 ^ 32) 0, .regRead ⟨0, 0, false⟩ 0 65536, .regWrite ⟨65536, 0, false⟩ 0 0, .regWrite ⟨0, 0, false⟩ (2 ^ 32) 0,
      .countersClear ⟨0, 0, false⟩ 256, .eventRead ⟨65536, 0, false⟩ 0, .nwReset ⟨0, 0, false⟩ 256, .stackFail ⟨0, 0, false⟩ 256, .imageVerify ⟨0, 0, false⟩ 256, .setPowerCap ⟨65536, 0, false⟩ 0 0,
      .setPowerCap ⟨0, 0, false⟩ 65536 0, .setPowerCap ⟨0, 0, false⟩ 0 65536, .setPowerStateA2 ⟨65536, 0, false⟩ false, .setPowerStateA3 ⟨65536, 0, false⟩ false, .debugMode ⟨65536, 0, false⟩ true,
      .jobClear ⟨65536, 0, false⟩ true, .setPowerStateA0 ⟨65536, 0, false⟩, .flashWrite ⟨65536, 0, false⟩ 0 0 [], .flashWrite ⟨0, 0, false⟩ 256 0 [], .flashWrite ⟨0, 0, false⟩ 0 (2 ^ 32) [],
      .flashRead ⟨0, 0, false⟩ 256 0 0, .flashRead ⟨0, 0, false⟩ 0 (2 ^ 32) 0, .flashRead ⟨0, 0, false⟩ 0 0 65536].all (fun i => !i.wf) = true := by decide +kernel

/-! ## Values the spec states -/

/-- The check value of the CRC-32C (R39). -/
theorem test_crc_check : crc32c [0x31, 0x32, 0x33, 0x34, 0x35, 0x36, 0x37, 0x38, 0x39] = 0xE3069283 := by decide +kernel

/-- The worked example of the interleave (R256). -/
theorem test_stack_address : stackAddr { up.eng with variant := .e24 } 1491 0x100000 = 0xC0005D300 := by decide +kernel

/-- Channel 1491 is stack 23, HBM4 channel 9, the odd half; unit 0x100000 lies in row 512, in bank 0, and one row of the offset space
further in bank 1 (R254, R255). -/
theorem test_bank_place : (bankPlace 1491 0x100000, (bankPlace 1491 0x100020).bank) = (⟨23, 9, 1, 0, 512, 0, 0, 0, 0⟩, 1) := by
  decide +kernel

/-- The worked example of the half and the lead (R430). -/
theorem test_lead : halfOf 0x0031 0x000051C6 = 0 ∧ leadOf (0x02C40 / 2) 0 = 0x02C40 := by decide +kernel

/-- An Almanac entry at the ends of its fields reads back (R53). -/
theorem test_almanac_entry :
    let a : AlEntry := { valid := true, epoch := true, version := 255, fmt := 15, units := 128, channel := 1535, offset := 2 ^ 25 - 1 }
    parseEntry (a.word 49 77) = a ∧ entryGood (a.word 49 77) 49 77 = true := by decide +kernel

/-- NOP completes with OK, and with RESERVED_FIELD where a byte after its header is not zero (R367). -/
theorem test_nop : (after (.nop 0 (desc 0 0 [])) up).eng.hl.cmds.map (·.done) = [some { status := 0x00, count := 0 }] ∧
    (after (.nop 0 (desc 0 0 [1])) up).eng.hl.cmds.map (·.done) = [some { status := 0x06 }] := by decide +kernel

/-- STEP_OPEN opens step 7 as the first of a job; 0 is no step, and 2⁴⁸ − 1 is the end of them (R137). -/
theorem test_step_open : (after (.stepOpen 0 (desc 1 0 (leBytes 6 7))) up).eng.steps.openStep = some 7 ∧
    (after (.stepOpen 0 (desc 1 0 (leBytes 6 0))) up).eng.hl.cmds.map (fun c => c.done.map (·.status)) = [some 0x1B] ∧
    (after (.stepOpen 0 (desc 1 0 (leBytes 6 (2 ^ 48 - 1)))) up).eng.hl.cmds.map (fun c => c.done.map (·.status)) = [some 0x1C] := by
  decide +kernel

/-- The head of ring 0 is accepted, and the ring's consumer index passes it (R360). -/
theorem test_accept : (ring (after (.acceptCommand 0) (withHead (desc 0 0 []))).eng 0).cons = 1 ∧
    (after (.acceptCommand 0) (withHead (desc 0 5 []))).eng.hl.cmds.map (fun c => c.done.map (·.status)) = [some 0x03] := by decide +kernel

/-- Entry 65 of a ring of 64 is an error (R353). -/
theorem test_doorbell_error : (ring (after (.submissionDoorbell 0 64) up).eng 0).error = false ∧
    (ring (after (.submissionDoorbell 0 65) up).eng 0).error = true := by decide +kernel

/-- A window read with the window off is all ones (R339). -/
theorem test_window_off : (after (.dormerRead 0 4) up).eng.hl.readData = [0xFF, 0xFF, 0xFF, 0xFF] := by decide +kernel

/-- A window write and read of the same bytes. -/
theorem test_window_write : memRead 0 (after (.dormerWrite 64 [1, 2, 3, 4]) (window true)).eng.store.mem 64 4 = [1, 2, 3, 4] := by
  decide +kernel

/-- A reserved bit refuses a Nightwatch request (R11). -/
theorem test_nightwatch_reserved : let t := after (.debugMode ⟨7, 1, false⟩ true) up
    (t.nw.replies.map (·.status), t.fw.debug) = ([4], false) := by decide +kernel

/-- A cap of 400 W is in E8's range, and 4 W becomes its floor (R507). -/
theorem test_power_cap : (after (.setPowerCap ⟨1, 0, false⟩ 400 20) up).pw.newCap = some (400, 20) ∧
    (after (.setPowerCap ⟨1, 0, false⟩ 4 0) up).pw.newCap = some (280, 10) := by decide +kernel

/-- A catastrophic temperature trips the engine (R502, R503). -/
theorem test_trip : (after (.catastrophicTemperature 7) up).pw.thermtrip = true ∧ ioUp (after (.catastrophicTemperature 7) up) = false := by
  decide +kernel

/-- A request to a member that is DOWN is answered by a REDIRECT (R434): its session is not open yet, so the packet waits. -/
theorem test_redirect : ((session (after (.index hdr ⟨1, 0, 1, 0, false, [], []⟩) down).eng 5).waiting.map (·.body)) = [.redirect] := by
  decide +kernel

/-- Loss of the host (R386): a look-up that waits ends with HOST_LOST. -/
theorem test_host_loss : (after .hostLinkReset (busyWith [waiting 1 0 0x10])).eng.hl.cmds.map (fun c => (c.carried, c.done.map (·.status))) =
    [(true, some 0x01)] := by decide +kernel

/-! ## Witnesses: the hypotheses of the statements can be met -/

theorem test_meets_StepRunsTheFrontCommand : { up with pending := [.heartbeat] }.pending = .heartbeat :: [] := rfl

theorem test_meets_EmptyQueueWaitsOneTick : State.reset.pending = [] := rfl

theorem test_meets_SafeCommandsComplete : Safe (.registerWrite 0x7000 3) up ∧ Safe (.dormerRead 64 64) up ∧ Safe .powerOn State.reset := by
  unfold Safe; decide +kernel

theorem test_meets_UndefinedAccessesStop :
    undefinedAccess (.registerWrite 3 0) up = some .registerAccessUndefined ∧
      undefinedAccess (.counterReadLo .nightwatch 0x3006) up = some .registerAccessUndefined ∧
      undefinedAccess (.counterClear .host 1) up = some .registerAccessUndefined ∧
      undefinedAccess (.dormerRead (2 ^ 28 - 1) 2) up = some .windowAccessUndefined ∧
      undefinedAccess (.dormerWrite 32 (zeros 4))
        { window true with eng := { (window true).eng with store := { allocs := [⟨0, 1, 1⟩] } } } = some .indirectSlotWriteUndefined := by
  decide +kernel

theorem test_legal_reset : Legal State.reset :=
  ⟨by decide, by intro g h; simp [State.reset] at h, by decide, by decide, by decide, by decide, by intro p h; simp [State.reset] at h,
    by decide, by decide, by decide, by decide +kernel⟩

theorem test_meets_EveryStepKeepsTheBounds : Legal State.reset ∧ ∃ t, step State.reset = .next t := ⟨test_legal_reset, _, rfl⟩

theorem test_meets_HostCommandsRunTheirOpcode : hostCommand (.configActivate 0 (desc 0x51 0 [])) = some (0, desc 0x51 0 [], 0x51) ∧
    opcode (desc 0x51 0 []) = 0x51 ∧ canAccept up 0 = true ∧ canAccept up 2 = false ∧ canAccept State.reset 0 = false := by decide +kernel

theorem test_meets_ReadyCommandsTakeEffect :
    let d := desc 1 0 (leBytes 6 7)
    let e := postHead 0 d up.eng
    hostCommand (.stepOpen 0 d) = some (0, d, 1) ∧ opcode d = 1 ∧ canAccept up 0 = true ∧ seqFollows up.eng 0 d = true ∧
      headerFail d = none ∧ changeOf d = some stepOpenChange ∧ stepOpenChange.needsStep = false ∧
      prepStepOpen (.head 0) (stepNow up.eng) d e = (e, .ready []) ∧ behindEarly e (waiting 1 0 1) = false :=
  ⟨rfl, by decide +kernel, by decide +kernel, by decide +kernel, by decide +kernel, rfl, rfl, by
    unfold prepStepOpen
    have h1 : (postHead 0 (desc 1 0 (leBytes 6 7)) up.eng).steps.openStep = none := by decide +kernel
    have h2 : (postHead 0 (desc 1 0 (leBytes 6 7)) up.eng).steps.lastOpened = none := by decide +kernel
    have h3 : coreRuns (postHead 0 (desc 1 0 (leBytes 6 7)) up.eng) 2 = true := by decide +kernel
    have h4 : num (desc 1 0 (leBytes 6 7)) 16 6 = 7 := by decide +kernel
    simp [h1, h2, h3, h4], by decide +kernel⟩

theorem test_meets_CommandsTurnedAwayChangeNothing : ioUp State.reset = false ∧ Safe .heartbeat State.reset ∧ boardRow .heartbeat = none ∧
    nightwatchRow .heartbeat = false := ⟨by decide, rfl, rfl, rfl⟩

theorem test_meets_PacketsAreDelivered : packetOf (.sync hdr) = some (hdr, .sync) ∧ packetOf (.redirect hdr) = some (hdr, .redirect) ∧
    ioUp up = true ∧ up.fw.resetRung = 0 ∧ up.fw.noImage = false ∧ ioUp { up with fw := { up.fw with resetRung := 2 } } = true ∧
    ioUp { up with fw := { up.fw with noImage := true } } = true ∧ packetServed hdr .ack (received hdr .ack up.eng) = true ∧
    packetServed hdr (.skyRead ⟨0, 0, 4, 1, none⟩) (received hdr (.skyRead ⟨0, 0, 4, 1, none⟩) (inJob up.eng)) = true ∧
    packetServed hdr (.fence ⟨0, 0, true, []⟩) (received hdr (.fence ⟨0, 0, true, []⟩) (inJob up.eng)) = true := by decide +kernel

theorem test_meets_LogicCommandsComplete : logicRowOf .stepCloseBegin = some opStepCloseBegin ∧ ioUp up = true ∧ up.eng.stopped = false ∧
    State.reset.eng.stopped = true := ⟨rfl, by decide, rfl, rfl⟩

theorem test_meets_RidgePacketsComplete : ridgeOf (.forwardAck []) = some (true, opForwardAck []) ∧ ioUp up = true ∧
    up.eng.rg.portsUp ≠ [] ∧ (ridgeHeard up.eng).stopped = false ∧ (upE (fun e => { e with rg := {} })).eng.rg.portsUp = [] :=
  ⟨rfl, by decide, by decide, by decide +kernel, rfl⟩

theorem test_meets_FramesAndLinksComplete : ioUp up = true := by decide

theorem test_meets_IoDieCommandsComplete : ioOf .beaconTimer = some sendBeacons ∧ ioUp up = true := ⟨rfl, by decide⟩

theorem test_meets_BoardCommandsComplete : boardRow .powerOn = some opPowerOn := rfl

theorem test_meets_NightwatchRequestsComplete : nightwatchRow (.nwHello ⟨1, 4, false⟩) = true ∧ nwHeader (.nwHello ⟨1, 4, false⟩) = some (1, ⟨1, 4, false⟩) ∧
    nwServed up = true ∧ up.nw.held = [] ∧ up.pw.goal = none ∧
    nwServed { up with fw := { up.fw with resetRung := 2 } } = false ∧ State.reset.fw.resetRung = 4 := by decide +kernel

theorem test_meets_RegisterRowsAreWrites : registerRow .standDown = some (0x11004, 1) ∧ ioUp up = true ∧ (31 : Nat) < 32 := by decide +kernel

theorem test_meets_RegisterAccessesComplete : 0x0FFFFFFC % 4 = 0 ∧ 0x0FFFFFFC < 0x10000000 ∧ alignedOnly 0x0FFFFFFF = false ∧
    0xFFFFFC % 4 = 0 ∧ 0xFFFFFC < 0x1000000 ∧ 0x10000000 ≤ 0x1FFFFFFC ∧ windowOk (0x1FFFFFFC - 0x10000000) 4 = true ∧ ioUp up = true := by decide +kernel

theorem test_meets_MailboxRowsAreTheirMessages : Memory.wf 0 up.eng.hl.mailbox = true ∧ ioUp up = true ∧ mailboxServed up = true ∧
    mailboxServed { up with fw := { up.fw with resetRung := 2 } } = false ∧ ioUp { up with fw := { up.fw with resetRung := 2 } } = true := by
  decide +kernel

theorem test_meets_MemoriesKeepTheirForm : Memory.wf 0 [(3, 1), (4, 2)] = true ∧ Memory.wf 0xFF factoryFlash = true := by decide +kernel

theorem test_meets_HostReadDataIsWhatReadsReturn : Memory.wf 0 up.eng.host = true ∧
    hostRead (after (.hostReadData 64 [1, 2]) up).eng 63 4 = [0, 1, 2, 0] := by decide +kernel

theorem test_meets_SelectorsAreHeldTwice : Path.host ≠ Path.nightwatch ∧
    (regRead .host 0x5050 (regWrite .host 0x5050 3 up)).1 = 3 ∧ (regRead .nightwatch 0x5050 (regWrite .host 0x5050 3 up)).1 = 0 := by
  decide +kernel

theorem test_meets_ReadsHaveNoSideEffect : 0x3004 ≠ 0xE030 ∧ 0x1800 ∈ counterSlots ∧ 0x1000 ∉ counterSlots := by decide +kernel

theorem test_meets_CountersSaturate : 0x1800 ∉ noteSlots ∧
    (Tab.get {} (upE (fun e => { e with ctr := [(0x1800, { value := 2 ^ 64 - 2 })] })).eng.ctr 0x1800).value < 2 ^ 64 ∧
    (Tab.get {} (count 0x1800 1 (upE (fun e => { e with ctr := [(0x1800, { value := 2 ^ 64 - 2 })] })).eng).ctr 0x1800).sat = true := by
  decide +kernel

theorem test_meets_CounterWritesClear : 0x1800 ∈ counterSlots ∧ 0x1800 ∉ gauges ∧ 0x1800 ∉ jobCounters ∧ (∃ x ∈ gauges, x ∈ counterSlots) ∧
    (∃ x ∈ jobCounters, x ∈ counterSlots) ∧ ioUp up = true ∧ calm up = true :=
  ⟨by decide +kernel, by decide +kernel, by decide +kernel, by decide +kernel, by decide +kernel, by decide, by decide +kernel⟩

theorem test_meets_CounterReadsLatch : 0x1800 ∈ counterSlots ∧ slotValue 0x1800 up.eng < 2 ^ 64 := by decide +kernel

theorem test_meets_SetupWritesAreChecked : ioUp up = true ∧ calm up = true ∧ (regRead .host 0x7000 (after (.registerWrite 0x7000 4) up)).1 = 0x01000004 ∧
    (regRead .host 0x7000 (after (.registerWrite 0x7000 7) up)).1 = 0x01000003 := by decide +kernel

theorem test_meets_NopOnlyCompletes : opcode (desc 0 0 []) = 0 ∧ num (desc 0 0 []) 1 1 = 1 ∧ num (desc 0 0 []) 2 2 / 2 = 0 ∧
    canAccept up 0 = true ∧ seqFollows up.eng 0 (desc 0 0 []) = true ∧ calm up = true ∧ allZero (desc 0 0 []) 16 48 = true ∧ allZero (desc 0 0 [1]) 16 48 = false := by decide +kernel

theorem test_meets_FencesNameTheirRings : opcode (desc 3 0 [2]) = 3 ∧ num (desc 3 0 [2]) 1 1 = 1 ∧ num (desc 3 0 [2]) 2 2 / 2 = 0 ∧
    allZero (desc 3 0 [2]) 24 40 = true ∧ (num (desc 3 0 [2]) 16 8).testBit 1 = true ∧ canAccept (busyWith [waiting 1 1 0]) 0 = true ∧
    calm (busyWith [waiting 1 1 0]) = true ∧ allZero (desc 3 0 [0, 0, 0, 0, 0, 0, 0, 0, 1]) 24 40 = false := by decide +kernel

theorem test_meets_HeaderChecksComeInOrder :
    let s := withHead (desc 0 5 [])
    ioUp s = true ∧ calm s = true ∧ hasHead s.eng 0 = true ∧ ringHeld s.eng 0 = false ∧ headWaits s.eng 0 = false ∧ hasTurn s.eng 0 = true ∧
      (ring s.eng 0).head = none ∧ headLen (headDesc s.eng 0) ≤ ((ring s.eng 0).prod - (ring s.eng 0).cons).toNat ∧
      2 ≤ (BitVec.ofNat 32 (num (headDesc s.eng 0) 4 4) - (ring s.eng 0).lastSeq).toNat := by decide +kernel

theorem test_meets_DoorbellsLatchTheirIndex : ioUp up = true ∧ calm up = true ∧ up.eng.hl.evHeld = [] ∧ up.eng.hl.evLost = 0 ∧
    (ring up.eng 128).enable = true ∧ (ring up.eng 128).error = false ∧ (ring up.eng 5).enable = false ∧
    serialAfter (doorbellIndex 0 (ring up.eng 0)) 64 = false ∧ serialAfter (doorbellIndex 0 (ring up.eng 0)) 0xFFFFFFFF = true ∧
    (64 : Nat) ≤ 2 ^ (ring up.eng 0).sizeLog2 ∧ 2 ^ (ring up.eng 0).sizeLog2 < (65 : Nat) ∧ up.eng.nwEvents.length < 63 := by decide +kernel

theorem test_meets_AttachIsChecked : ioUp alone = true ∧ mailboxServed alone = true ∧ calm alone = true ∧
    Memory.wf 0 alone.eng.hl.mailbox = true ∧
    (after (.attach 7 10000) { alone with eng := { alone.eng with hl := { alone.eng.hl with helloSeen := true } } }).eng.hl.attach = .attached ∧
    (after (.attach 7 10001) { alone with eng := { alone.eng with hl := { alone.eng.hl with helloSeen := true } } }).eng.hl.attach = .detached := by
  decide +kernel

theorem test_meets_HostLossCarriesCommands : ioUp up = true ∧ mailboxServed up = true ∧ calm up = true ∧ up.eng.hl.attach ≠ .detached ∧
    up.eng.hl.unacked = [] ∧ up.eng.mt.faults = [] ∧ alone.eng.hl.attach = .detached ∧
    (upH (fun h => { h with heartbeatMs := 5 })).eng.hl.heartbeatMs ≠ 0 ∧ calm (upH (fun h => { h with attach := .detaching })) = true := by
  decide +kernel

theorem test_meets_farFromFull : farFromFull up.eng := by
  intro slot
  show (Tab.get {} [] slot : Counter).value + 2 ^ 32 < 2 ^ 64
  simp [Tab.get]

theorem test_meets_VectorsHoldWhatIsMasked :
    let s := upH (fun h => { h with irqs := [(0, { pending := true })] })
    ioUp s = true ∧ calm s = true ∧ (Tab.get {} s.eng.hl.irqs (sel s.eng .host 0x1044 0)).pending = true ∧ s.eng.hl.attach = .attached ∧
      (0 : Word).toNat.testBit 0 = false := by decide +kernel

theorem test_meets_EventsAreHeldInOrder :
    let e := (upH (fun h => { h with evHeld := [List.replicate 32 1], evLost := 3 })).eng
    eventRoom up.eng = true ∧ up.eng.hl.evHeld = [] ∧ Memory.wf 0 e.host = true ∧ attached e = true ∧ (ring e 128).runs = true ∧
      (ring e 128).sizeLog2 ≤ 16 ∧ e.hl.evHeld.length ≤ 256 ∧ (∀ b ∈ e.hl.evHeld, b.length = 32) ∧ e.hl.evLost ≠ 0 ∧
      e.hl.evHeld.length < (ring e 128).free := by decide +kernel

theorem test_meets_EventRecordsAreLaidOut :
    let v : Event := { kind := 0xFFFF, step := some (2 ^ 48 - 1), arg0 := 2 ^ 64 - 1, arg1 := 2 ^ 32 - 1 }
    v.kind < 2 ^ 16 ∧ v.step.getD 0 < 2 ^ 48 ∧ v.table < 2 ^ 16 ∧ v.row < 2 ^ 40 ∧ v.node.getD up.eng.fb.node < 2 ^ 20 ∧ v.arg0 < 2 ^ 64 ∧
      v.arg1 < 2 ^ 32 := by decide +kernel

theorem test_meets_CompletionRecordsAreLaidOut : 64 ≤ (waiting 1 0 0).desc.length ∧ ({ status := 0x38, detail := 3 } : Rec).errRow < 2 ^ 40 ∧
    ({ status := 0x38, detail := 3 } : Rec).errTable < 2 ^ 16 := by decide +kernel

theorem test_meets_InvalidationsRemoveRanges :
    let s := upM (fun m => { m with
      busy := true, cache := [⟨1, 0, 4096, 0, 0⟩] })
    calm up = true ∧ up.eng.mt.busy = false ∧ calm s = true ∧ s.eng.mt.busy = true ∧ s.eng.mt.queued = [] ∧ s.eng.mt.deferred = [] ∧
      (after (.mtInvalCmd 0x80000001) (upM (fun m => { m with cache := [⟨1, 0, 4096, 0, 0⟩, ⟨2, 0, 4096, 0, 0⟩] }))).eng.mt.cache =
        [⟨2, 0, 4096, 0, 0⟩] := by decide +kernel

theorem test_meets_FaultsAreResolvedByName :
    ioUp faulted = true ∧ calm faulted = true ∧ (faultEntry faulted.eng 2).pending = true ∧ (faultEntry faulted.eng 2).gen = 1 ∧
      faulted.eng.mt.starved = [] ∧ (faultEntry faulted.eng 2).waiters = [.cmd 1] ∧ findCmd faulted.eng 1 = some (waiting 1 0 0x18) ∧
      faulted.eng.mt.busy = false ∧ faulted.eng.mt.queued = [] ∧ faulted.eng.mt.walks = [] ∧ faulted.eng.mt.deferred = [] ∧
      (faultEntry faulted.eng 31).pending = false := by decide +kernel

theorem test_meets_WindowAccessesFollowTheirCase : windowOk 64 4 = true ∧ windowOk (2 ^ 28 - 64) 64 = true ∧ ioUp (window true) = true ∧
    calm (window true) = true ∧ Memory.wf 0 (window true).eng.store.mem = true ∧ (window true).eng.mt.dwEnable = true ∧
    (unitOf (window true).eng 64).1 / 64 ∉ (window true).eng.store.failedStacks ∧
    ¬(2 ^ 25 - (window true).eng.store.reserved ≤ (unitOf (window true).eng 64).2) ∧ windowForbidden (window true).eng 64 4 = false ∧
    (window false).eng.mt.dwWriteEn = false ∧ up.eng.mt.dwEnable = false := by decide +kernel

theorem test_meets_SlotsCarryTheirCrc : 8 + ([1, 2] : List Nat).length + (zeros 22).length ≤ (parseTD (zeros 64)).slotSize 0 ∧
    (mkSlot (parseTD (zeros 64)) 0 1 2 [1, 2] (zeros 22)).length = 32 := by decide +kernel

theorem test_meets_AlmanacEntriesReadBack : 255 < 2 ^ 8 ∧ 15 < 2 ^ 4 ∧ 128 ≤ 2 ^ 7 ∧ 1535 < 2 ^ 11 ∧ 2 ^ 25 - 1 < 2 ^ 25 := by decide

theorem test_meets_StackAddressesNameUnits : 1491 < ({ up.eng with variant := .e24 } : Eng).variant.channels := by decide

theorem test_meets_HalvesHaveALead :
    up.eng.fb.node / 2 = (upE (fun e => { e with fb := { e.fb with node := 0x101 } })).eng.fb.node / 2 ∧
      up.eng.fb.node ≠ (upE (fun e => { e with fb := { e.fb with node := 0x101 } })).eng.fb.node := by decide

theorem test_meets_SettlingQueuesSort : List.Pairwise (fun a b : Item => a.key ≤ b.key) [⟨1, 7⟩, ⟨1, 8⟩, ⟨3, 0⟩] := by decide +kernel

theorem test_meets_HandlesArePushedAndPopped :
    let s := upE (fun e => { e with st := { e.st with queues := [(0, { enable := true, items := [⟨3, 7⟩] })] } })
    calm s = true ∧ ioUp s = true ∧ (hqueue s.eng 0).enable = true ∧ (hqueue s.eng 0).consumer = none ∧
      (after .handlePop s).eng.hl.readData = leBytes 4 7 ∧ (hqueue up.eng 0).items = [] ∧
      calm (upE (fun e => { e with st := { e.st with queues := [(0, { enable := true, consumer := some 1 })] } })) = true := by decide +kernel

theorem test_meets_StepCommandsAreChecked : canAccept inStep 0 = true ∧ calm inStep = true ∧ headerFail (desc 1 0 (leBytes 6 5)) = none ∧
    opcode (desc 1 0 (leBytes 6 5)) = 1 ∧ inStep.eng.steps.openStep ≠ none ∧ headerFail (desc 1 0 (leBytes 6 (2 ^ 48 - 1))) = none ∧
    num (desc 1 0 (leBytes 6 (2 ^ 48 - 1))) 16 6 = 2 ^ 48 - 1 ∧ coreRuns up.eng 2 = true ∧ num (desc 1 0 (leBytes 6 0)) 16 6 = 0 ∧
    headerFail (desc 2 0 (leBytes 8 4 ++ leBytes 4 0x7F800000)) = none ∧ num (desc 2 0 (leBytes 8 4 ++ leBytes 4 0x7F800000)) 24 4 = 0x7F800000 ∧
    num (desc 2 0 (leBytes 8 4 ++ leBytes 4 0x80000001)) 24 4 = 2 ^ 31 + 1 := by decide +kernel

theorem test_meets_RouteEntriesAreSelected :
    let e := (upE (fun e => { e with fb := { e.fb with groupMode := true, shift := 14 } })).eng
    e.fb.groupMode = true ∧ 6 ≤ e.fb.shift ∧ e.fb.shift ≤ 14 ∧ up.eng.fb.groupMode = false ∧ routeIndex e 0x200 = some 0x200 ∧
      routeIndex e 0xFFFFF = some (16384 + 63) ∧ routeIndex up.eng 0x8000 = none := by decide +kernel

theorem test_meets_MembersDownRedirect : packetOf (.skyRead hdr ⟨0, 0, 4, 1, none⟩) = some (hdr, .skyRead ⟨0, 0, 4, 1, none⟩) ∧
    needsCredit (.skyRead ⟨0, 0, 4, 1, none⟩) = true ∧ ioUp down = true ∧ calm down = true ∧ down.eng.rg.state = .down ∧
    hdr.src ≠ down.eng.fb.node := by decide +kernel

theorem test_meets_ThermalLevelsAreReached : up.pw.lowered = [] ∧ (3 : Nat) ≤ 3 := by decide

theorem test_meets_TripsHoldTheEngine : (7 : Nat) < up.eng.variant.stackCount ∧ up.pw.state ≠ 3 ∧ up.pw.thermtrip = false ∧ up.eng.mt.faults = [] := by
  decide

theorem test_meets_ThermtripHoldsUntilPowerFalls : (after (.catastrophicTemperature 0) up).pw.thermtrip = true ∧
    (after .coldReset (after (.catastrophicTemperature 0) up)).pw.thermtrip = true := by decide +kernel

theorem test_meets_DebugModeIsSetOverNightwatch : up.fw.debug = false ∧ (after (.debugMode ⟨1, 0, false⟩ true) up).fw.debug = true := by decide +kernel

theorem test_meets_OutOfServiceIsKeptUntilReturn :
    let s := { up with fw := { up.fw with oosRecord := some (0x5, 1), oos := true, oosReset := true } }
    s.fw.oosRecord ≠ none ∧ (after (.returnToService ⟨1, 0, false⟩) s).fw.oosRecord = none := by decide +kernel

theorem test_meets_PowerCapsAreClamped : nwServed up = true ∧ calm up = true := by decide +kernel

theorem test_meets_NightwatchWritesArePermitted : nwServed up = true ∧ calm up = true ∧ 0x7000 % 4 = 0 ∧ 0x7000 / 16 * 16 ∉ counterSlots ∧
    0x1800 / 16 * 16 ∈ counterSlots ∧ 0xFFFFFC < 0x1000000 := by decide +kernel

theorem test_meets_PowerStateRequestsAreChecked : up.fw.oos = false ∧ up.fw.recovery = false ∧ up.pw.state = 0 ∧
    up.eng.hl.attach ≠ .detached ∧ nwServed alone = true ∧ calm alone = true ∧ alone.eng.rg.partner = none ∧
    calm { alone with fw := { alone.fw with actRunning := true } } = true := by decide +kernel

theorem test_meets_JobClearEndsTheJob : nwServed alone = true ∧ calm alone = true ∧ alone.eng.hl.attach = .detached ∧
    alone.eng.steps.openStep = none ∧ alone.eng.steps.closing = none ∧ alone.eng.hl.cmds = [] ∧ alone.eng.rg.state ≠ .paired ∧
    inStep.eng.steps.openStep ≠ none ∧ calm inStep = true := by decide +kernel

end Sys2Proof.Tests
end

/-! SUPPORT. The set-up registers of tables, thatch, updates and the management port: what a write of one changes, that the host's
write has no other effect, and what a read returns. -/

namespace Sys2Proof.Machine

/-! ## A change of the tables' storage or of the set-up registers -/

/-- Nothing but the tables' storage and the set-up registers differs. -/
def Retuned (e e' : Eng) : Prop := ∃ st su, e' = { e with store := st, setup := su }

theorem Retuned.rfl (e : Eng) : Retuned e e := ⟨e.store, e.setup, by rfl⟩

theorem retuned_store (st : Store) (e : Eng) : Retuned e { e with store := st } := ⟨st, e.setup, by rfl⟩

theorem retuned_setup (su : Setup) (e : Eng) : Retuned e { e with setup := su } := ⟨e.store, su, by rfl⟩

theorem Retuned.ite {c : Prop} [Decidable c] {e a b : Eng} (ha : Retuned e a) (hb : Retuned e b) : Retuned e (if c then a else b) := by
  split
  · exact ha
  · exact hb

/-- A calm engine settles to itself after such a change. -/
theorem settle_retuned {s : State} {f : Eng → Eng} (h : calm s = true) (hf : Retuned s.eng (f s.eng)) :
    settle (onEng f s) = onEng f s := by
  have hs : calm (onEng f s) = calm s := by
    obtain ⟨st, su, hfs⟩ := hf
    unfold onEng
    rw [hfs]
    rfl
  exact settle_calm (hs.trans h)

theorem sameBoard_onEng (f : Eng → Eng) (s : State) : SameBoard s (onEng f s) := ⟨rfl, rfl, rfl, rfl⟩

/-! ## Fields -/

/-- A field at bit 0 is a remainder. -/
theorem fld_zero (x w : Nat) : fld x 0 w = x % 2 ^ w := by unfold fld; rw [Nat.pow_zero, Nat.div_one]

theorem fld_lt (x lo w : Nat) : fld x lo w < 2 ^ w := Nat.mod_lt _ (Nat.two_pow_pos w)

/-! ## Writes -/

/-- The host's write of an aligned register offset is the register's write, then what follows from it (R346, R533). -/
theorem exec_registerWrite {off : Nat} {s : State} (v : Word) (ha : off % 4 = 0) (ho : off < 0x1000000) (hio : ioUp s = true) :
    exec (.registerWrite off v) s = .next (settle (regWrite .host off v.toNat s)) := by
  have haperture : apertureWrite off v s = regWrite .host off v.toNat s := if_pos ho
  change execRegisterWrite off v s = _
  unfold execRegisterWrite ioRow
  rw [if_neg (by omega), if_neg (by omega), if_pos hio, haperture]

/-- A register write that only retunes a calm engine completes with that change. -/
theorem exec_registerWrite_retuned {off : Nat} {v : Word} {s : State} {f : Eng → Eng} (ha : off % 4 = 0) (ho : off < 0x1000000)
    (hio : ioUp s = true) (hc : calm s = true) (hw : regWrite .host off v.toNat s = onEng f s) (hf : Retuned s.eng (f s.eng)) :
    exec (.registerWrite off v) s = .next (onEng f s) := by
  rw [exec_registerWrite v ha ho hio, hw, settle_retuned hc hf]

theorem retuned_alWrite_bandTop (v : Nat) (e : Eng) : Retuned e (alWrite 0x004 v e) := .ite (.rfl e) (retuned_store _ e)

theorem retuned_thWrite (r v : Nat) (e : Eng) : Retuned e (thWrite r v e) := .ite (.rfl e) (retuned_setup _ e)

theorem retuned_upWrite_config (p : Path) (v : Nat) (e : Eng) : Retuned e (upWrite p 0x000 v e) := .ite (.rfl e) (retuned_setup _ e)

/-- A write that a check refuses unless it is permitted changes a field exactly where it is permitted. -/
theorem field_of_checked {α β : Type} {refused : Bool} {permitted : Prop} [Decidable permitted] (f : α → β) {old new : α}
    (h : refused = false ↔ permitted) : f (if refused then old else new) = if permitted then f new else f old := by
  by_cases hp : permitted
  · rw [h.2 hp, if_pos hp, if_neg Bool.false_ne_true]
  · rw [eq_true_of_ne_false (mt h.1 hp), if_neg hp, if_pos rfl]

/-- AL_BAND_TOP moves only while no configuration places a table, and not into the reserved top (R63). -/
theorem alWrite_bandTop (v : Nat) (e : Eng) : (alWrite 0x004 v e).store.bandTop =
    if e.ls.active.tables = [] ∧ e.ls.staged.tables = [] ∧ (∀ q, e.ls.pend = some q → q.2.tables = []) ∧
      v % 2 ^ 25 ≤ 2 ^ 25 - e.store.reserved then v % 2 ^ 25 else e.store.bandTop := by
  rw [← fld_zero v 25]
  refine field_of_checked (fun x : Eng => x.store.bandTop) ?_
  simp only [Bool.or_eq_false_iff, Bool.not_eq_false', List.isEmpty_iff, decide_eq_false_iff_not, Nat.not_lt, and_assoc]
  cases e.ls.pend with
  | none => simp only [reduceCtorEq, false_implies, implies_true, true_and]
  | some q => simp only [Bool.not_eq_false', List.isEmpty_iff, Option.some.injEq, forall_eq']

/-- TH_CONFIG takes 3 to 6 units that fit the scratchpad, while no table has a hot set (R132, R265). -/
theorem thWrite_thatchSize (v : Nat) (e : Eng) : (thWrite 0x000 v e).setup.thatchSize =
    if anyHotSet e = false ∧ 3 ≤ v % 8 ∧ v % 8 ≤ 6 ∧ e.setup.buffers + e.setup.staging + v % 8 ≤ 7 then v % 8
    else e.setup.thatchSize := by
  have hfld : fld v 0 3 = v % 8 := fld_zero v 3
  rw [← hfld]
  refine field_of_checked (fun x : Eng => x.setup.thatchSize) ?_
  simp only [bne_self_eq_false, padSum, Bool.or_eq_false_iff, Bool.not_eq_false', decide_eq_false_iff_not, decide_eq_true_eq, not_or,
    Nat.not_lt, and_assoc, true_and]

/-- UP_CONFIG takes 1 to 4 units that fit the scratchpad, while no row is staged (R182, R265). -/
theorem upWrite_staging (p : Path) (v : Nat) (e : Eng) : (upWrite p 0x000 v e).setup.staging =
    if e.steps.staging = [] ∧ 1 ≤ v % 8 ∧ v % 8 ≤ 4 ∧ e.setup.buffers + v % 8 + e.setup.thatchSize ≤ 7 then v % 8
    else e.setup.staging := by
  have hfld : fld v 0 3 = v % 8 := fld_zero v 3
  rw [← hfld]
  refine field_of_checked (fun x : Eng => x.setup.staging) ?_
  simp only [padSum, Bool.or_eq_false_iff, Bool.not_eq_false', List.isEmpty_iff, decide_eq_false_iff_not, decide_eq_true_eq, not_or,
    Nat.not_lt, and_assoc]

/-! ## Reads -/

@[simp] theorem regRead_bandTop (p : Path) (s : State) : regRead p 0x6004 s = (s.eng.store.bandTop, s) := rfl

@[simp] theorem regRead_thConfig (p : Path) (s : State) : regRead p 0x7000 s = (version + s.eng.setup.thatchSize, s) := rfl

@[simp] theorem regRead_upConfig (p : Path) (s : State) : regRead p 0xA000 s = (version + s.eng.setup.staging, s) := rfl

@[simp] theorem regRead_layout (p : Path) (s : State) :
    regRead p 0x6000 s = (version + at_ s.eng.variant.msDies 16 + s.eng.variant.channels, s) := rfl

@[simp] theorem regRead_reserved (p : Path) (s : State) : regRead p 0x6008 s = (s.eng.store.reserved, s) := rfl

@[simp] theorem regRead_drain (p : Path) (s : State) :
    regRead p 0x6010 s = (flag (!(s.eng.store.free0 ++ s.eng.store.free1).isEmpty) 1 + flag s.eng.store.epoch 0, s) := by
  have hboth : (s.eng.store.free0 ++ s.eng.store.free1).isEmpty = (s.eng.store.free0.isEmpty && s.eng.store.free1.isEmpty) := by
    rw [Bool.eq_iff_iff, List.isEmpty_iff, Bool.and_eq_true, List.isEmpty_iff, List.isEmpty_iff, List.append_eq_nil_iff]
  rw [hboth, Bool.not_and]
  rfl

@[simp] theorem regRead_nwCfg (p : Path) (s : State) : regRead p 0x14000 s =
    (version + flag s.nw.smbus 23 + at_ (fld s.nw.staticAddr 0 7) 16 + at_ s.nw.eid.toNat 8 + s.nw.dynAddr.toNat, s) := rfl

/-- The fields of AL_DRAIN: CUR_EPOCH at bit 0, PENDING at bit 1, and nothing above (R134). -/
theorem drain_fields (pending epoch : Bool) :
    (flag pending 1 + flag epoch 0).testBit 0 = epoch ∧ (flag pending 1 + flag epoch 0).testBit 1 = pending ∧ flag pending 1 + flag epoch 0 < 4 := by
  cases pending <;> cases epoch <;> decide

/-- The fields of NW_CFG: a 7-bit dynamic address, an 8-bit EID at bit 8, a 7-bit static address at bit 16, the SMBus flag at bit 23,
and VERSION (R528). -/
theorem nwCfg_fields (smbus : Bool) {addr eid dyn : Nat} (ha : addr < 2 ^ 7) (he : eid < 2 ^ 8) (hd : dyn < 2 ^ 7) :
    let w := version + flag smbus 23 + at_ addr 16 + at_ eid 8 + dyn
    w / 2 ^ 24 = 1 ∧ w.testBit 23 = smbus ∧ w / 2 ^ 16 % 2 ^ 7 = addr ∧ w / 2 ^ 8 % 2 ^ 8 = eid ∧ w % 2 ^ 8 = dyn := by
  have hbit : ∀ w : Nat, w / 2 ^ 23 = 2 + smbus.toNat → w.testBit 23 = smbus := by
    intro w hw
    rw [Nat.testBit_eq_decide_div_mod_eq, hw]
    cases smbus <;> rfl
  have hflag : flag smbus 23 = smbus.toNat * 2 ^ 23 := by cases smbus <;> rfl
  have hle : smbus.toNat ≤ 1 := Bool.toNat_le smbus
  simp only [version, at_, hflag]
  refine ⟨?_, hbit _ ?_, ?_, ?_, ?_⟩ <;> omega

/-! ## The two statements -/

/-- Settles O28: each of the three writes leaves a calm engine calm, so it completes with its register's own change and no other,
and the register reads back what its checks let in (R63, R132, R182, R265). -/
theorem setupWritesAreChecked : Obligations.SetupWritesAreChecked := by
  unfold Obligations.SetupWritesAreChecked
  refine ⟨fun v s hio hc => ⟨?bandTop, ?thatch, ?staging⟩, rfl, rfl, rfl⟩
  case bandTop =>
    refine ⟨_, exec_registerWrite_retuned rfl (by decide) hio hc rfl (retuned_alWrite_bandTop v.toNat s.eng), sameBoard_onEng _ s, ?_⟩
    rw [regRead_bandTop, onEng_eng, alWrite_bandTop]
  case thatch =>
    refine ⟨_, exec_registerWrite_retuned rfl (by decide) hio hc rfl (retuned_thWrite 0x000 v.toNat s.eng), sameBoard_onEng _ s, ?_⟩
    rw [regRead_thConfig, onEng_eng, thWrite_thatchSize, version]
  case staging =>
    refine ⟨_, exec_registerWrite_retuned rfl (by decide) hio hc rfl (retuned_upWrite_config .host v.toNat s.eng), sameBoard_onEng _ s, ?_⟩
    rw [regRead_upConfig, onEng_eng, upWrite_staging, version]

/-- Settles O29: the value each read returns, taken apart into its fields (R62, R64, R134, R528). -/
theorem layoutRegistersReport : Obligations.LayoutRegistersReport := by
  intro p s
  obtain ⟨hepoch, hpending, hlt⟩ := drain_fields (!(s.eng.store.free0 ++ s.eng.store.free1).isEmpty) s.eng.store.epoch
  obtain ⟨hver, hsmbus, hstatic, heid, hdyn⟩ :=
    nwCfg_fields s.nw.smbus (fld_lt s.nw.staticAddr 0 7) s.nw.eid.isLt s.nw.dynAddr.isLt
  simp only [regRead_layout, regRead_reserved, regRead_drain, regRead_nwCfg, true_and]
  exact ⟨rfl, hepoch, hpending, hlt, hver, hsmbus, hstatic.trans (fld_zero s.nw.staticAddr 7), heid, hdyn, rfl⟩

end Sys2Proof.Machine

/-! SUPPORT. Records of bytes: where a field stands in a record written as a row of fields, and what is read back there. -/

namespace Sys2Proof.Machine

/-! ## Fields of a record -/

@[simp] theorem length_leBytes (n v : Nat) : (leBytes n v).length = n := by
  induction n generalizing v with
  | zero => rfl
  | succ n ih => simp [leBytes, ih]

/-- A number written in `n` bytes reads back modulo what `n` bytes hold (R9). -/
theorem leNat_leBytes (n v : Nat) : leNat (leBytes n v) = v % 256 ^ n := by
  induction n generalizing v with
  | zero => exact (Nat.mod_one v).symm
  | succ n ih =>
    have hbyte : (BitVec.ofNat 8 v).toNat = v % 256 := BitVec.toNat_ofNat v 8
    rw [leBytes, leNat, ih, hbyte, Nat.pow_succ', Nat.mod_mul]

/-- A field that fits its bytes reads back. -/
theorem num_leBytes {n v : Nat} (h : v < 2 ^ (8 * n)) : num (leBytes n v) 0 n = v := by
  have hwhole : slice (leBytes n v) 0 n = leBytes n v := List.take_of_length_le (Nat.le_of_eq (length_leBytes n v))
  rw [num, hwhole, leNat_leBytes, Nat.mod_eq_of_lt (by rwa [Nat.pow_mul] at h)]

/-- A field that ends within the front of a record is a field of the front. -/
theorem num_append_left {a : List Byte} (b : List Byte) {o n : Nat} (h : o + n ≤ a.length) : num (a ++ b) o n = num a o n := by
  have hslice : slice (a ++ b) o n = slice a o n := by
    unfold slice
    rw [List.drop_append_of_le_length (by omega), List.take_append_of_le_length (by rw [List.length_drop]; omega)]
  rw [num, hslice, num]

/-- A field that begins behind the front of a record is a field of the rest. -/
theorem num_append_right {a : List Byte} (b : List Byte) {o n : Nat} (h : a.length ≤ o) : num (a ++ b) o n = num b (o - a.length) n := by
  have hslice : slice (a ++ b) o n = slice b (o - a.length) n := by
    unfold slice
    rw [List.drop_append, List.drop_eq_nil_of_le h, List.nil_append]
  rw [num, hslice, num]

/-- Settles O37: an event record is its fields in a row, so each is read back from behind those before it (R373). -/
theorem eventRecordsAreLaidOut : Obligations.EventRecordsAreLaidOut := by
  intro v e hkind hstep htable hrow hnode harg0 harg1
  have hversion : num [1, 0] 0 1 = 1 := rfl
  have hreserved : num [1, 0] 1 1 = 0 := rfl
  have hk := num_leBytes (n := 2) hkind
  have hs := num_leBytes (n := 6) hstep
  have ht := num_leBytes (n := 2) htable
  have hr := num_leBytes (n := 5) hrow
  have hn := num_leBytes (n := 3) (Nat.lt_trans hnode (by decide))
  have h0 := num_leBytes (n := 8) harg0
  have h1 := num_leBytes (n := 4) harg1
  simp (disch := simp) only [eventBytes, num_append_left, num_append_right, hk, hversion, hreserved, hs, ht, hr, hn, h0, h1,
    List.length_append, length_leBytes, List.length_cons, List.length_nil, Nat.reduceAdd, Nat.reduceSub, and_self]

end Sys2Proof.Machine

/-! SUPPORT. Acceptance of a command from a submission ring: what counting and host writes leave of the rings, what taking the head
of a ring and completing the command change, and the statements about NOP and the checks of a header. -/

namespace Sys2Proof.Machine

/-! ## Rings under notes

An event is written to ring 128, so counting and writing to the host leave every other ring as it is. -/

theorem ring_setRing (r k : Nat) (f : Ring → Ring) (e : Eng) : ring (setRing r f e) k = if k = r then f (ring e k) else ring e k := by
  unfold ring setRing Tab.modify
  rw [tabGet_set]
  split
  · next h => rw [h]
  · rfl

theorem ring_bump (slot n k : Nat) (e : Eng) : ring (bump slot n e).1 k = ring e k := by
  unfold bump
  dsimp only
  split <;> rfl

theorem ring_bumps (l : List (Nat × Nat)) (k : Nat) (e : Eng) : ring (bumps l e).1 k = ring e k := by
  induction l generalizing e with
  | nil => rfl
  | cons p t ih => exact (ih _).trans (ring_bump p.1 p.2 k e)

theorem ring_putNwEvent (bs : List Byte) (k : Nat) (e : Eng) : ring (putNwEvent bs e).1 k = ring e k := by
  unfold putNwEvent
  split
  · rfl
  · exact ring_bumps _ k e

section
variable {k : Nat} (hk : k ≠ 128)
include hk

theorem ring_putEventEntry (bs : List Byte) (e : Eng) : ring (putEventEntry bs e).1 k = ring e k := by
  unfold putEventEntry
  rw [ring_bumps, ring_setRing, if_neg hk]
  rfl

theorem ring_putHostEvent (bs : List Byte) (e : Eng) : ring (putHostEvent bs e).1 k = ring e k := by
  unfold putHostEvent
  split
  · exact ring_putEventEntry hk bs e
  · split
    · rfl
    · exact ring_bumps _ k _

theorem ring_putEvents (vs : List Event) (e : Eng) : ring (putEvents vs e).1 k = ring e k := by
  induction vs generalizing e with
  | nil => rfl
  | cons v t ih => exact (ih _).trans ((ring_putHostEvent hk _ _).trans (ring_putNwEvent _ k e))

theorem ring_postEvents (n : Nat) (vs : List Event) (e : Eng) : ring (postEvents n vs e) k = ring e k := by
  induction n generalizing vs e with
  | zero => rfl
  | succ n ih =>
    unfold postEvents
    dsimp only
    split
    · exact ring_putEvents hk vs e
    · exact (ih _ _).trans (ring_putEvents hk vs e)

theorem ring_count (slot n : Nat) (e : Eng) : ring (count slot n e) k = ring e k := by
  unfold count
  dsimp only
  split
  · exact (ring_postEvents hk _ _ _).trans (ring_bump slot n k e)
  · exact ring_bump slot n k e

theorem ring_counts (l : List (Nat × Nat)) (e : Eng) : ring (counts l e) k = ring e k := by
  induction l generalizing e with
  | nil => rfl
  | cons p t ih => exact (ih _).trans (ring_count hk p.1 p.2 e)

theorem ring_publish (r n : Nat) (irq : Bool) (e : Eng) : ring (publish r n irq e) k = ring e k := ring_counts hk _ _

end

/-! ## A change of the commands on record -/

/-- `e'` has the commands `cs` on record, and else differs from `e` at most in what noting can change, the turns of the rings and the
next identifier. -/
def Recorded (cs : List RunCmd) (e e' : Eng) : Prop :=
  ∃ turns nextId, Noted { e with hl := { e.hl with cmds := cs, turns := turns, nextId := nextId } } e'

theorem Noted.recorded {a b : Eng} (h : Noted a b) : Recorded a.hl.cmds a b := ⟨a.hl.turns, a.hl.nextId, h⟩

theorem Recorded.trans {cs ds : List RunCmd} {a b c : Eng} (h : Recorded cs a b) (k : Recorded ds b c) : Recorded ds a c := by
  obtain ⟨_, _, _, _, _, _, _, _, _, _, rfl⟩ := h
  obtain ⟨turns, nextId, x1, x2, x3, x4, x5, x6, x7, x8, rfl⟩ := k
  exact ⟨turns, nextId, x1, x2, x3, x4, x5, x6, x7, x8, rfl⟩

theorem Recorded.cmds {cs : List RunCmd} {a b : Eng} (h : Recorded cs a b) : b.hl.cmds = cs := by
  obtain ⟨_, _, h⟩ := h
  exact h.hl_cmds

theorem Recorded.noted {cs : List RunCmd} {a b c : Eng} (h : Recorded cs a b) (k : Noted b c) : Recorded cs a c := by
  have hc := k.recorded
  rw [h.cmds] at hc
  exact h.trans hc

theorem Recorded.sameWork {cs : List RunCmd} {a b : Eng} (h : Recorded cs a b) : SameWork a b := by
  obtain ⟨_, _, h⟩ := h
  exact ⟨h.store, h.steps, h.setup, h.qu, h.st, h.ix, h.fb, h.ls, h.rg, h.mt⟩

theorem recorded_setCmd (id : Nat) (f : RunCmd → RunCmd) (e : Eng) :
    Recorded (e.hl.cmds.map (fun c => if c.id = id then f c else c)) e (setCmd id f e) :=
  ⟨e.hl.turns, e.hl.nextId, .rfl _⟩

/-- The command does not go on by itself: it waits neither for another command nor to try again. -/
def Idle (c : RunCmd) : Prop := c.work ≠ .blocked ∧ c.retry = false

/-- A calm data path stays calm when the commands on record change and none of them goes on by itself. -/
theorem Recorded.calmEng {cs : List RunCmd} {a b : Eng} (h : Recorded cs a b) (ha : calmEng a = true)
    (hi : (∀ c ∈ a.hl.cmds, Idle c) → ∀ c ∈ cs, Idle c) : calmEng b = true := by
  obtain ⟨_, _, h⟩ := h
  rw [h.calm]
  simp only [Machine.calmEng, Bool.or_eq_true, Bool.and_eq_true, Bool.not_eq_true', List.any_eq_false, beq_iff_eq, Bool.not_eq_true] at ha ⊢
  refine ha.imp_right fun ha => ?_
  obtain ⟨⟨⟨⟨⟨⟨⟨⟨⟨hn, hr⟩, hb⟩, hy⟩, hc⟩, hf⟩, hg⟩, hd⟩, hsl⟩, hsw⟩ := ha
  have hidle := hi fun c hc => ⟨hb c hc, hy c hc⟩
  exact ⟨⟨⟨⟨⟨⟨⟨⟨⟨hn, hr⟩, fun c hc => (hidle c hc).1⟩, fun c hc => (hidle c hc).2⟩, hc⟩, hf⟩, hg⟩, hd⟩, hsl⟩, hsw⟩

/-- A calm engine settles to itself when the commands on record change and none of them goes on by itself. -/
theorem settle_recorded {cs : List RunCmd} {s : State} {f : Eng → Eng} (hc : calm s = true) (h : Recorded cs s.eng (f s.eng))
    (hi : (∀ c ∈ s.eng.hl.cmds, Idle c) → ∀ c ∈ cs, Idle c) : settle (onEng f s) = onEng f s := by
  have he : Machine.calmEng s.eng = true := by
    simp only [calm, Bool.and_eq_true] at hc
    exact hc.1.1.1.1.1.1
  have hcalm := h.calmEng he hi
  obtain ⟨_, _, h⟩ := h
  exact settle_calm (calm_onEng hc hcalm h.hl_mbHeld h.stopped h.build)

/-! ## Identifiers -/

theorem foldl_max_le {α : Type} (f : α → Nat) (l : List α) (n : Nat) : n ≤ l.foldl (fun m x => max m (f x)) n := by
  induction l generalizing n with
  | nil => exact Nat.le_refl n
  | cons x t ih => exact Nat.le_trans (Nat.le_max_left n (f x)) (ih _)

theorem le_foldl_max {α : Type} (f : α → Nat) {l : List α} {x : α} (h : x ∈ l) (n : Nat) : f x ≤ l.foldl (fun m x => max m (f x)) n := by
  induction l generalizing n with
  | nil => cases h
  | cons y t ih =>
    rcases List.mem_cons.1 h with rfl | ht
    · exact Nat.le_trans (Nat.le_max_right n (f x)) (foldl_max_le f t _)
    · exact ih ht _

/-- No command holds a fresh identifier. -/
theorem id_ne_freshId {e : Eng} {c : RunCmd} (h : c ∈ e.hl.cmds) : c.id ≠ freshId e :=
  Nat.ne_of_lt (le_foldl_max (fun c => c.id + 1) h e.hl.nextId)

/-! ## Taking the head of a ring -/

/-- The command on record once the head of ring `r` is accepted (R360). -/
def takenCmd (r : Nat) (d : Desc) (e : Eng) : RunCmd :=
  { id := freshId e, ring := r, seq := BitVec.ofNat 32 (num d 4 4), desc := d, step := stepNow e, work := .none, carried := false,
    partner := false, done := none, recIdx := none, align := e.setup.outAlign }

/-- A ring whose head is taken: the consumer index passes it, and its seq is the last accepted one where that advances (R357, R360). -/
def Ring.taken (d : Desc) (advance : Bool) (q : Ring) : Ring :=
  { q with
    cons := q.cons + BitVec.ofNat 32 (headLen d), head := none
    lastSeq := if advance then BitVec.ofNat 32 (num d 4 4) else q.lastSeq }

/-- The head of ring `r` is taken, and the ring's new index is not published yet. -/
def unpublished (r : Nat) (d : Desc) (advance : Bool) (e : Eng) : Eng := setRing r (Ring.taken d advance) (addCmd r d (tookTurn r e)).1

/-- Taking a head publishes the ring's new index where a host is attached. -/
theorem takeHead_fst (r : Nat) (d : Desc) (adv : Bool) (e : Eng) : (takeHead r d adv e).1 =
    if attached (unpublished r d adv e) then publish r 0 false (unpublished r d adv e) else unpublished r d adv e := rfl

/-- Taking a head puts its command on record behind the others. -/
theorem recorded_takeHead (r : Nat) (d : Desc) (adv : Bool) (e : Eng) :
    Recorded (e.hl.cmds ++ [takenCmd r d e]) e (takeHead r d adv e).1 := by
  have hadd : Recorded (e.hl.cmds ++ [takenCmd r d e]) e (addCmd r d (tookTurn r e)).1 := ⟨_, _, noted_count _ _ _⟩
  have hring : Recorded (e.hl.cmds ++ [takenCmd r d e]) e (unpublished r d adv e) := hadd.noted (noted_setRing r _ _)
  rw [takeHead_fst]
  split
  · exact hring.noted (noted_publish r 0 false _)
  · exact hring

/-- Taking a head changes its ring and leaves every other ring but the event ring. -/
theorem ring_takeHead {k : Nat} (hk : k ≠ 128) (r : Nat) (d : Desc) (adv : Bool) (e : Eng) :
    ring (takeHead r d adv e).1 k = if k = r then (ring e k).taken d adv else ring e k := by
  have hadd : ring (addCmd r d (tookTurn r e)).1 k = ring e k := ring_count hk _ _ _
  have hring : ring (unpublished r d adv e) k = if k = r then (ring e k).taken d adv else ring e k := by
    rw [unpublished, ring_setRing, hadd]
  rw [takeHead_fst]
  split
  · rw [ring_publish hk, hring]
  · exact hring

/-- A change of the command just taken leaves the others on record as they are. -/
theorem recorded_setCmd_takeHead (r : Nat) (d : Desc) (adv : Bool) (f : RunCmd → RunCmd) (e : Eng) :
    Recorded (e.hl.cmds ++ [f (takenCmd r d e)]) e (setCmd (freshId e) f (takeHead r d adv e).1) := by
  have htaken := recorded_takeHead r d adv e
  have hset := htaken.trans (recorded_setCmd (freshId e) f _)
  have hold : e.hl.cmds.map (fun c => if c.id = freshId e then f c else c) = e.hl.cmds := by
    rw [List.map_congr_left fun c hc => if_neg (id_ne_freshId hc), List.map_id']
  have hnew : (takenCmd r d e).id = freshId e := rfl
  rwa [htaken.cmds, List.map_append, hold, List.map_singleton, if_pos hnew] at hset

/-! ## Completing the command taken -/

/-- The command of ring `r`, complete with its record; `n` says when, among those that are complete (R370). -/
def doneCmd (r : Nat) (d : Desc) (x : Rec) (n : Nat) (e : Eng) : RunCmd := { takenCmd r d e with done := some x, doneNo := n }

theorem idle_doneCmd (r : Nat) (d : Desc) (x : Rec) (n : Nat) (e : Eng) : Idle (doneCmd r d x n e) := ⟨Work.noConfusion, rfl⟩

/-- The command just taken completes. -/
theorem recorded_finish_takeHead (r : Nat) (d : Desc) (adv : Bool) (x : Rec) (e : Eng) :
    Recorded (e.hl.cmds ++ [doneCmd r d x (nextDone (takeHead r d adv e).1) e]) e (finish (freshId e) x (takeHead r d adv e).1) :=
  recorded_setCmd_takeHead r d adv _ e

/-- The record of a refusal. -/
def Refuse.toRec (x : Refuse) : Rec :=
  { status := x.status, detail := x.detail, count := x.count, errTable := x.errTable, errRow := x.errRow }

/-- The command just taken is refused. -/
theorem recorded_refuseWith_takeHead (r : Nat) (d : Desc) (adv : Bool) (x : Refuse) (e : Eng) :
    ∃ n, Recorded (e.hl.cmds ++ [doneCmd r d x.toRec n e]) e (refuseWith (freshId e) x (takeHead r d adv e).1) :=
  ⟨_, (recorded_finish_takeHead r d adv x.toRec e).noted (noted_count _ _ _)⟩

theorem ring_refuseWith {k : Nat} (hk : k ≠ 128) (id : Nat) (x : Refuse) (e : Eng) : ring (refuseWith id x e) k = ring e k :=
  ring_count hk _ _ _

/-- The commands on record stay idle when an idle one joins them. -/
theorem idle_append {cs : List RunCmd} {c : RunCmd} (hc : Idle c) (h : ∀ x ∈ cs, Idle x) : ∀ x ∈ cs ++ [c], Idle x :=
  List.forall_mem_append.2 ⟨h, List.forall_mem_singleton.2 hc⟩

/-! ## The checks of a header -/

/-- Only a stream command's record names a slot (R369). -/
theorem recSlot_of_no_slot {e : Eng} {r : Nat} {d : Desc} (h30 : opcode d ≠ 0x30) (h31 : opcode d ≠ 0x31) :
    recSlot e r d = (0xFFFF, 0xFFFFFFFFFF) := by
  unfold recSlot
  split
  · next h => exact absurd h h30
  · next h => exact absurd h h31
  · rfl

/-- A refusal's record holds the slot of a stream command, and the defaults of the record where no slot is named (R369). -/
theorem slotRefuse_toRec (e : Eng) (r : Nat) (d : Desc) (st : Nat) :
    (slotRefuse e r d { status := st }).toRec = { status := st, errTable := (recSlot e r d).1, errRow := (recSlot e r d).2 } := by
  unfold slotRefuse
  split
  · rfl
  · next h =>
    rw [not_or] at h
    rw [recSlot_of_no_slot h.1 h.2]
    rfl

theorem recSlot_congr {a b : Eng} (h : b.st = a.st) (r : Nat) (d : Desc) : recSlot b r d = recSlot a r d := by
  unfold recSlot slotGen stSlot
  rw [h]

/-- The status the checks of a header after its seq give, in their order; 0 where all of them pass (R359). -/
def headerStatus (d : Desc) : Nat :=
  if opcode d ∉ opcodes then 0x04 else if num d 1 1 ≠ 1 then 0x05 else if reservedOk d = false then 0x06 else 0x00

theorem headerFail_eq (d : Desc) : headerFail d = if headerStatus d = 0 then none else some { status := headerStatus d } := by
  unfold headerFail headerStatus
  by_cases ho : opcode d ∈ opcodes
  · by_cases hv : num d 1 1 = 1
    · cases hres : reservedOk d <;> simp [firstFail, ho, hv]
    · simp [firstFail, ho, hv]
  · simp [firstFail, ho]

/-- How far the seq of a descriptor lies behind the last one accepted from its ring (R357). -/
def seqGap (e : Eng) (r : Nat) (d : Desc) : Nat := (BitVec.ofNat 32 (num d 4 4) - (ring e r).lastSeq).toNat

/-- The status the checks of seq and header give, in their order; 0 where all of them pass (R359). -/
def headStatus (e : Eng) (r : Nat) (d : Desc) : Nat :=
  if seqGap e r d = 0 ∨ 2 ^ 31 ≤ seqGap e r d then 0x02 else if 2 ≤ seqGap e r d then 0x03 else headerStatus d

theorem headStatus_congr {a b : Eng} {r : Nat} (h : (ring b r).lastSeq = (ring a r).lastSeq) (d : Desc) :
    headStatus b r d = headStatus a r d := by
  unfold headStatus seqGap
  rw [h]

/-- The status of a head whose seq follows the last one is that of its header. -/
theorem headStatus_of_follows {e : Eng} {r : Nat} {d : Desc} (hk : seqGap e r d = 1) : headStatus e r d = headerStatus d := by
  unfold headStatus
  rw [hk]
  rfl

/-- The status of a head whose seq does not follow the last one is that of its seq. -/
theorem headStatus_of_astray {e : Eng} {r : Nat} {d : Desc} (hk : seqGap e r d ≠ 1) :
    headStatus e r d = if seqGap e r d = 0 ∨ 2 ^ 31 ≤ seqGap e r d then 0x02 else 0x03 := by
  unfold headStatus
  split
  · rfl
  · exact if_pos (by omega)

/-- A head whose seq and header pass their checks is accepted (R360). -/
theorem acceptLatched_good (now : Bool) (m : Meaning) {r : Nat} {h : Head} {e : Eng} (hst : headStatus e r h.desc = 0) :
    acceptLatched now r m h e = acceptGood now r m h e := by
  have hk : seqGap e r h.desc = 1 := by
    refine Decidable.byContradiction fun hk => ?_
    rw [headStatus_of_astray hk] at hst
    split at hst <;> cases hst
  rw [headStatus_of_follows hk] at hst
  unfold acceptLatched
  dsimp only
  rw [← seqGap, if_pos hk, headerFail_eq, if_pos hst]

/-- A head whose seq or header fails a check is taken and refused; only a seq that follows the last one becomes the last (R359, R360). -/
theorem acceptLatched_bad (now : Bool) (m : Meaning) {r : Nat} {h : Head} {e : Eng} (hst : headStatus e r h.desc ≠ 0) :
    acceptLatched now r m h e = refuseWith (freshId e) (slotRefuse e r h.desc { status := headStatus e r h.desc })
      (takeHead r h.desc (decide (seqGap e r h.desc = 1)) e).1 := by
  unfold acceptLatched
  dsimp only
  rw [← seqGap]
  by_cases hk : seqGap e r h.desc = 1
  · rw [headStatus_of_follows hk] at hst ⊢
    rw [if_pos hk, headerFail_eq, if_neg hst, decide_eq_true hk]
    rfl
  · rw [if_neg hk, decide_eq_false hk, headStatus_of_astray hk]
    rfl

/-- The record of a command that the checks of its seq and header refuse (R359, R369). -/
def badHeadRec (e : Eng) (r : Nat) (d : Desc) : Rec :=
  { status := headStatus e r d, errTable := (recSlot e r d).1, errRow := (recSlot e r d).2 }

theorem recorded_acceptLatched_bad (now : Bool) (m : Meaning) {r : Nat} {h : Head} {e : Eng} (hst : headStatus e r h.desc ≠ 0) :
    ∃ n, Recorded (e.hl.cmds ++ [doneCmd r h.desc (badHeadRec e r h.desc) n e]) e (acceptLatched now r m h e) := by
  rw [acceptLatched_bad now m hst, badHeadRec, ← slotRefuse_toRec]
  exact recorded_refuseWith_takeHead ..

theorem ring_acceptLatched_bad (now : Bool) (m : Meaning) {r : Nat} {h : Head} {e : Eng} (hr : r ≠ 128) (hst : headStatus e r h.desc ≠ 0) :
    ring (acceptLatched now r m h e) r = (ring e r).taken h.desc (decide (seqGap e r h.desc = 1)) := by
  rw [acceptLatched_bad now m hst, ring_refuseWith hr, ring_takeHead hr, if_pos rfl]

/-! ## ACCEPT_COMMAND -/

theorem exec_acceptCommand {r : Nat} {s : State} (hio : ioUp s = true) :
    exec (.acceptCommand r) s = .next (settle (onEng (opAccept r) s)) := by
  change execAcceptCommand r s = _
  unfold execAcceptCommand ioRow
  rw [if_pos hio]

section
variable {r : Nat} {e : Eng} (hr : r < 64) (hnone : (ring e r).head = none)
  (hlen : headLen (headDesc e r) ≤ ((ring e r).prod - (ring e r).cons).toNat)
include hnone hlen

/-- Reading a head that is not read yet latches its descriptor (R356). -/
theorem readHead_eq : readHead r e =
    setRing r (fun q => { q with head := some { desc := headDesc e r } }) (hostIn (headDesc e r).length e) := by
  unfold readHead
  rw [hnone]
  exact if_neg (Nat.not_lt.2 hlen)

theorem noted_readHead : Noted e (readHead r e) := by
  rw [readHead_eq hnone hlen]
  exact (noted_counts _ e).trans (noted_setRing ..)

include hr

theorem ring_readHead : ring (readHead r e) r = { ring e r with head := some { desc := headDesc e r } } := by
  have hin : ring (hostIn (headDesc e r).length e) r = ring e r := ring_counts (by omega) _ e
  rw [readHead_eq hnone hlen, ring_setRing, if_pos rfl, hin]

theorem headStatus_readHead (d : Desc) : headStatus (readHead r e) r d = headStatus e r d :=
  headStatus_congr (by rw [ring_readHead hr hnone hlen]) d

theorem badHeadRec_readHead (d : Desc) : badHeadRec (readHead r e) r d = badHeadRec e r d := by
  unfold badHeadRec
  rw [headStatus_readHead hr hnone hlen, recSlot_congr (noted_readHead hnone hlen).st]

variable (hhead : hasHead e r = true) (hheld : ringHeld e r = false) (hwait : headWaits e r = false) (hturn : hasTurn e r = true)
include hhead hheld hwait hturn

/-- A head that nothing holds and that has its turn is read, and accepted or refused (R360, R364, R368). -/
theorem opAccept_eq : opAccept r e = acceptLatched false r (meaningOf (headDesc e r)) { desc := headDesc e r } (readHead r e) := by
  have hfree : headHeld e r = false := by
    unfold headHeld
    rw [hheld, hwait, hnone, Bool.or_false, Bool.or_false, Bool.and_false]
  have hread : (ring (readHead r e) r).head = some { desc := headDesc e r } := by rw [ring_readHead hr hnone hlen]
  unfold opAccept
  rw [if_neg (by simp [hr, hhead]), if_neg (by simp [hfree, hturn])]
  dsimp only
  rw [hread]

variable (hbad : headStatus e r (headDesc e r) ≠ 0)
include hbad

/-- ACCEPT_COMMAND of a head that fails a check puts it on record with its refusal, and its ring passes it (R357, R359, R360). -/
theorem opAccept_bad :
    (∃ n, Recorded (e.hl.cmds ++ [doneCmd r (headDesc e r) (badHeadRec e r (headDesc e r)) n (readHead r e)]) e (opAccept r e)) ∧
      ring (opAccept r e) r = (ring e r).taken (headDesc e r) (decide (seqGap e r (headDesc e r) = 1)) := by
  have hrec := badHeadRec_readHead hr hnone hlen (headDesc e r)
  have hst : headStatus (readHead r e) r (headDesc e r) ≠ 0 := by rwa [headStatus_readHead hr hnone hlen]
  have hring := ring_readHead hr hnone hlen
  rw [opAccept_eq hr hnone hlen hhead hheld hwait hturn]
  constructor
  · obtain ⟨n, h⟩ := recorded_acceptLatched_bad false (meaningOf (headDesc e r)) (h := { desc := headDesc e r }) hst
    rw [hrec, (noted_readHead hnone hlen).hl_cmds] at h
    exact ⟨n, (noted_readHead hnone hlen).recorded.trans h⟩
  · rw [ring_acceptLatched_bad false _ (h := { desc := headDesc e r }) (by omega) hst, seqGap, hring]
    rfl

end

/-- Settles O32: the head is read, its checks find the first that fails, and it is taken and refused (R357, R359, R360). -/
theorem headerChecksComeInOrder : Obligations.HeaderChecksComeInOrder := by
  intro r st s hr hio hc hhead hheld hwait hturn hnone
  dsimp only
  intro hlen hst hbad
  subst hst
  obtain ⟨⟨n, hrec⟩, hring⟩ := opAccept_bad hr hnone hlen hhead hheld hwait hturn hbad
  refine ⟨onEng (opAccept r) s, _, ?_, hrec.cmds, rfl, rfl, rfl, congrArg Ring.cons hring, ?_, hrec.sameWork, sameBoard_onEng _ s⟩
  · rw [exec_acceptCommand hio, settle_recorded hc hrec (idle_append (idle_doneCmd ..))]
  · rw [onEng_eng, hring]
    exact ite_congr (propext decide_eq_true_iff) (fun _ => rfl) (fun _ => rfl)

/-! ## A host command's row -/

theorem noted_postHead (r : Nat) (d : Desc) (e : Eng) : Noted e (postHead r d e) := noted_setRing ..

theorem ring_postHead (r k : Nat) (d : Desc) (e : Eng) :
    (ring (postHead r d e) k).lastSeq = (ring e k).lastSeq ∧ (ring (postHead r d e) k).enable = (ring e k).enable := by
  unfold postHead
  dsimp only
  rw [ring_setRing]
  split
  · exact ⟨rfl, rfl⟩
  · exact ⟨rfl, rfl⟩

/-- A host command that can be accepted in a calm engine changes the engine by its own operation and no other. -/
theorem hostRow_recorded {m : Meaning} {r : Nat} {d : Desc} {s : State} {cs : List RunCmd} (hc : calm s = true) (ha : canAccept s r = true)
    (h : Recorded cs s.eng (opHostCommand m r d s.eng)) (hi : (∀ c ∈ s.eng.hl.cmds, Idle c) → ∀ c ∈ cs, Idle c) :
    hostRow m r d s = .next (onEng (opHostCommand m r d) s) := by
  unfold hostRow
  rw [if_pos ha, settle_recorded hc h hi]

/-- The status of a command whose seq follows, of a known opcode and version 1, is that of its reserved fields (R359). -/
theorem headStatus_of_reservedOk {e : Eng} {r : Nat} {d : Desc} (hs : seqFollows e r d = true) (ho : opcode d ∈ opcodes)
    (hv : num d 1 1 = 1) : headStatus e r d = if reservedOk d then 0x00 else 0x06 := by
  have hk : seqGap e r d = 1 := by
    rw [seqGap, beq_iff_eq.1 hs]
    bv_omega
  rw [headStatus_of_follows hk, headerStatus, if_neg (not_not_intro ho), if_neg (not_not_intro hv)]
  cases reservedOk d <;> rfl

/-- A host command whose header fails a check is put on record with its refusal (R359, R360). -/
theorem recorded_opHostCommand_bad (m : Meaning) {r : Nat} {d : Desc} {e : Eng} (hbad : headStatus e r d ≠ 0) :
    ∃ n, Recorded (e.hl.cmds ++ [doneCmd r d (badHeadRec e r d) n (postHead r d e)]) e (opHostCommand m r d e) := by
  have hn := noted_postHead r d e
  have hst : headStatus (postHead r d e) r d = headStatus e r d := headStatus_congr (ring_postHead r r d e).1 d
  have hrec : badHeadRec (postHead r d e) r d = badHeadRec e r d := by
    unfold badHeadRec
    rw [hst, recSlot_congr hn.st]
  have hpost : headStatus (postHead r d e) r d ≠ 0 := by rwa [hst]
  obtain ⟨n, h⟩ := recorded_acceptLatched_bad true m (h := { desc := d }) hpost
  rw [hrec, hn.hl_cmds] at h
  exact ⟨n, hn.recorded.trans h⟩

/-- A read-only host command whose header is good is taken, and acts (R360). -/
theorem opHostCommand_read (op : Nat → Eng → Eng) {r : Nat} {d : Desc} {e : Eng} (hgood : headStatus e r d = 0) :
    opHostCommand (.read op) r d e = op (freshId (postHead r d e)) (takeHead r d true (postHead r d e)).1 :=
  acceptLatched_good true _ ((headStatus_congr (ring_postHead r r d e).1 d).trans hgood)

/-- The record of a command whose reserved fields are not zero names no slot, unless it is a stream command. -/
theorem badHeadRec_of_reserved {e : Eng} {r : Nat} {d : Desc} (hst : headStatus e r d = 0x06) (h30 : opcode d ≠ 0x30) (h31 : opcode d ≠ 0x31) :
    badHeadRec e r d = { status := 0x06 } := by
  rw [badHeadRec, hst, recSlot_of_no_slot h30 h31]

/-! ## NOP -/

/-- Every byte of a NOP after its header is reserved (R367). -/
theorem reservedOk_nop {d : Desc} (ho : opcode d = 0) (hf : num d 2 2 / 2 = 0) : reservedOk d = allZero d 16 48 := by
  simp [reservedOk, reservedBytes, reservedBits, ho, hf]

/-- Settles O30: NOP is taken and completes at once, or is refused for a reserved byte (R367). -/
theorem nopOnlyCompletes : Obligations.NopOnlyCompletes := by
  intro r d s ho hv hf ha hs hc
  have hknown : opcode d ∈ opcodes := by rw [ho]; decide
  have hst := headStatus_of_reservedOk hs hknown hv
  rw [reservedOk_nop ho hf] at hst
  obtain ⟨c, hrec, hring, hdesc, hdone, hidle⟩ : ∃ c, Recorded (s.eng.hl.cmds ++ [c]) s.eng (opHostCommand (.read opNop) r d s.eng) ∧
      c.ring = r ∧ c.desc = d ∧ c.done = some { status := if allZero d 16 48 then 0x00 else 0x06 } ∧ Idle c := by
    cases hz : allZero d 16 48 with
    | true =>
      rw [hz, if_pos rfl] at hst
      rw [opHostCommand_read opNop hst]
      have h := recorded_finish_takeHead r d true { status := Status.ok, count := 0 } (postHead r d s.eng)
      rw [(noted_postHead r d s.eng).hl_cmds] at h
      exact ⟨_, (noted_postHead r d s.eng).recorded.trans h, rfl, rfl, rfl, idle_doneCmd ..⟩
    | false =>
      rw [hz, if_neg Bool.false_ne_true] at hst
      have hbad : headStatus s.eng r d ≠ 0 := by rw [hst]; decide
      obtain ⟨n, h⟩ := recorded_opHostCommand_bad (.read opNop) hbad
      rw [badHeadRec_of_reserved hst (by rw [ho]; decide) (by rw [ho]; decide)] at h
      exact ⟨_, h, rfl, rfl, rfl, idle_doneCmd ..⟩
  exact ⟨onEng (opHostCommand (.read opNop) r d) s, c, hostRow_recorded hc ha hrec (idle_append hidle), hrec.cmds, hring, hdesc, hdone,
    hrec.sameWork, sameBoard_onEng _ s⟩

end Sys2Proof.Machine

/-! SUPPORT. FENCE: the rings it names, the commands its snapshot holds, and when it completes. -/

namespace Sys2Proof.Machine

/-! ## The rings a FENCE names -/

/-- The rings that a FENCE of ring `r` names: its own, and the enabled ones of its mask (R365). -/
def FenceNames (e : Eng) (r : Nat) (d : Desc) (k : Nat) : Prop :=
  k < 64 ∧ (k = r ∨ (num d 16 8).testBit k = true ∧ (ring e k).enable = true)

theorem mem_fenceRings {e : Eng} {c : RunCmd} {k : Nat} : k ∈ fenceRings e c ↔ FenceNames e c.ring c.desc k := by
  simp [fenceRings, FenceNames, bit]

/-- Rings are named alike where the same rings are enabled. -/
theorem fenceNames_congr {a b : Eng} (h : ∀ k < 64, (ring b k).enable = (ring a k).enable) (r : Nat) (d : Desc) (k : Nat) :
    FenceNames b r d k ↔ FenceNames a r d k :=
  and_congr_right fun hk => by rw [h k hk]

theorem enable_takeHead (r : Nat) (d : Desc) (adv : Bool) (e : Eng) {k : Nat} (hk : k < 64) :
    (ring (takeHead r d adv e).1 k).enable = (ring e k).enable := by
  rw [ring_takeHead (by omega)]
  split <;> rfl

/-! ## FENCEs that are satisfied -/

/-- The records of every command of this identifier are written. -/
def allWritten (e : Eng) (id : Nat) : Bool := e.hl.cmds.all (fun c => c.id != id || c.recIdx.isSome)

theorem allWritten_iff {e : Eng} {id : Nat} : allWritten e id = true ↔ ∀ c ∈ e.hl.cmds, c.id = id → c.recIdx.isSome = true := by
  simp [allWritten, Decidable.or_iff_not_imp_left]

/-- A command once the FENCEs that are satisfied complete (R366). -/
def fenceSettled (e : Eng) (c : RunCmd) : RunCmd :=
  match c.work with
  | .fence snap => if c.done.isNone && snap.all (allWritten e) then { c with work := .none, done := some {}, doneNo := nextDone e } else c
  | _ => c

theorem recorded_settleFences (e : Eng) : Recorded (e.hl.cmds.map (fenceSettled e)) e (settleFences e) :=
  ⟨e.hl.turns, e.hl.nextId, .rfl _⟩

/-- A command completes as a FENCE or stays as it is. -/
theorem fenceSettled_cases (e : Eng) (c : RunCmd) :
    fenceSettled e c = { c with work := .none, done := some {}, doneNo := nextDone e } ∨ fenceSettled e c = c := by
  unfold fenceSettled
  split
  · split
    · exact .inl rfl
    · exact .inr rfl
  · exact .inr rfl

theorem idle_fenceSettled {e : Eng} {c : RunCmd} (h : Idle c) : Idle (fenceSettled e c) := by
  rcases fenceSettled_cases e c with hs | hs
  · rw [hs]; exact ⟨Work.noConfusion, h.2⟩
  · rw [hs]; exact h

theorem fenceSettled_ring (e : Eng) (c : RunCmd) : (fenceSettled e c).ring = c.ring := by
  rcases fenceSettled_cases e c with hs | hs <;> rw [hs]

theorem fenceSettled_desc (e : Eng) (c : RunCmd) : (fenceSettled e c).desc = c.desc := by
  rcases fenceSettled_cases e c with hs | hs <;> rw [hs]

/-! ## The snapshot of a FENCE -/

/-- The commands a FENCE waits for: those of the rings it names, itself left out (R366). -/
def fenceSnap (e : Eng) (c : RunCmd) : List Nat :=
  (e.hl.cmds.filter (fun o => (fenceRings e c).contains o.ring && o.id != c.id)).map (·.id)

/-- The FENCE of ring `r`, waiting for its snapshot. -/
def fenceCmd (r : Nat) (d : Desc) (e : Eng) : RunCmd :=
  { takenCmd r d e with work := .fence (fenceSnap (takeHead r d true e).1 (takenCmd r d e)) }

/-- The engine once the FENCE of ring `r` is taken and waits. -/
def fencing (r : Nat) (d : Desc) (e : Eng) : Eng := setWork (freshId e) (fenceCmd r d e).work (takeHead r d true e).1

theorem recorded_fencing (r : Nat) (d : Desc) (e : Eng) : Recorded (e.hl.cmds ++ [fenceCmd r d e]) e (fencing r d e) :=
  recorded_setCmd_takeHead r d true (fun c => { c with work := (fenceCmd r d e).work }) e

/-- The command just taken is found by its identifier. -/
theorem findCmd_takeHead (r : Nat) (d : Desc) (adv : Bool) (e : Eng) :
    findCmd (takeHead r d adv e).1 (freshId e) = some (takenCmd r d e) := by
  have hold : e.hl.cmds.find? (fun c => c.id == freshId e) = none := by
    rw [List.find?_eq_none]
    exact fun c hc => by simpa using id_ne_freshId hc
  have hnew : (takenCmd r d e).id = freshId e := rfl
  unfold findCmd
  rw [(recorded_takeHead r d adv e).cmds, List.find?_append, hold, Option.none_or, List.find?_singleton, hnew, beq_self_eq_true]
  rfl

/-- A FENCE just taken waits for its snapshot, and completes where that is written already (R366). -/
theorem opFence_takeHead (r : Nat) (d : Desc) (e : Eng) :
    opFence (freshId e) (takeHead r d true e).1 = settleFences (fencing r d e) := by
  unfold opFence
  rw [findCmd_takeHead]
  rfl

theorem mem_fenceSnap {r : Nat} {d : Desc} {e : Eng} {id : Nat} :
    id ∈ fenceSnap (takeHead r d true e).1 (takenCmd r d e) ↔ ∃ o ∈ e.hl.cmds, FenceNames e r d o.ring ∧ o.id = id := by
  have hnames : ∀ k, FenceNames (takeHead r d true e).1 r d k ↔ FenceNames e r d k :=
    fenceNames_congr (fun k hk => enable_takeHead r d true e hk) r d
  simp only [fenceSnap, List.mem_map, List.mem_filter, Bool.and_eq_true, List.contains_iff_mem, bne_iff_ne, mem_fenceRings,
    (recorded_takeHead r d true e).cmds, List.mem_append, List.mem_singleton]
  constructor
  · rintro ⟨o, ⟨ho | rfl, hn, hid⟩, rfl⟩
    · exact ⟨o, ho, (hnames _).1 hn, rfl⟩
    · exact absurd rfl hid
  · rintro ⟨o, ho, hn, rfl⟩
    exact ⟨o, ⟨.inl ho, (hnames _).2 hn, id_ne_freshId ho⟩, rfl⟩

/-- The FENCE itself holds up no command that was on record before it. -/
theorem allWritten_fencing {r : Nat} {d : Desc} {e : Eng} {o : RunCmd} (ho : o ∈ e.hl.cmds) :
    allWritten (fencing r d e) o.id = true ↔ ∀ c ∈ e.hl.cmds, c.id = o.id → c.recIdx.isSome = true := by
  have hself : (fenceCmd r d e).id ≠ o.id := (id_ne_freshId ho).symm
  rw [allWritten_iff, (recorded_fencing r d e).cmds, List.forall_mem_append, List.forall_mem_singleton]
  exact and_iff_left fun h => absurd h hself

theorem fenceSettled_fenceCmd (a : Eng) (r : Nat) (d : Desc) (e : Eng) : fenceSettled a (fenceCmd r d e) =
    if (fenceSnap (takeHead r d true e).1 (takenCmd r d e)).all (allWritten a) = true
    then { fenceCmd r d e with work := .none, done := some {}, doneNo := nextDone a } else fenceCmd r d e := rfl

/-- A FENCE whose named rings have every record written completes at once (R366). -/
theorem fence_done {r : Nat} {d : Desc} {e : Eng}
    (h : ∀ c ∈ e.hl.cmds, ∀ o ∈ e.hl.cmds, FenceNames e r d o.ring → c.id = o.id → c.recIdx.isSome = true) :
    (fenceSettled (fencing r d e) (fenceCmd r d e)).done = some {} := by
  have hall : (fenceSnap (takeHead r d true e).1 (takenCmd r d e)).all (allWritten (fencing r d e)) = true := by
    rw [List.all_eq_true]
    intro id hid
    obtain ⟨o, ho, hn, rfl⟩ := mem_fenceSnap.1 hid
    exact (allWritten_fencing ho).2 fun c hc => h c hc o ho hn
  rw [fenceSettled_fenceCmd, if_pos hall]

/-- A FENCE waits for a command of a named ring whose record is not written (R366). -/
theorem fence_waits {r : Nat} {d : Desc} {e : Eng} {o : RunCmd} (ho : o ∈ e.hl.cmds) (hn : FenceNames e r d o.ring) (hrec : o.recIdx = none) :
    fenceSettled (fencing r d e) (fenceCmd r d e) = fenceCmd r d e := by
  have hnot : ¬(fenceSnap (takeHead r d true e).1 (takenCmd r d e)).all (allWritten (fencing r d e)) = true := by
    intro hall
    have hw := List.all_eq_true.1 hall o.id (mem_fenceSnap.2 ⟨o, ho, hn, rfl⟩)
    have hsome := (allWritten_fencing ho).1 hw o ho rfl
    rw [hrec] at hsome
    exact Bool.noConfusion hsome
  rw [fenceSettled_fenceCmd, if_neg hnot]

/-- The commands on record once a FENCE is taken, and those that are satisfied are complete. -/
theorem recorded_opFence (r : Nat) (d : Desc) (e : Eng) : Recorded (e.hl.cmds.map (fenceSettled (fencing r d e)) ++
    [fenceSettled (fencing r d e) (fenceCmd r d e)]) e (opFence (freshId e) (takeHead r d true e).1) := by
  have hs := (recorded_fencing r d e).trans (recorded_settleFences _)
  rwa [(recorded_fencing r d e).cmds, List.map_append, List.map_singleton, ← opFence_takeHead] at hs

/-! ## The ring a FENCE holds -/

/-- A ring accepts nothing behind a FENCE that is not satisfied (R364, R366). -/
theorem canAccept_of_fenceAhead {s : State} {r : Nat} (h : fenceAhead s.eng r = true) : canAccept s r = false := by
  have hheld : ringHeld s.eng r = true := by simp [ringHeld, h]
  simp [canAccept, hheld]

theorem fenceAhead_of_fenceCmd {r : Nat} {d : Desc} {e a : Eng} (h : fenceCmd r d e ∈ a.hl.cmds) : fenceAhead a r = true := by
  unfold fenceAhead
  rw [List.any_eq_true]
  exact ⟨_, h, by simp [fenceCmd, takenCmd]⟩

/-! ## The statement -/

/-- A FENCE reserves its bytes behind the mask (R365). -/
theorem reservedOk_fence {d : Desc} (ho : opcode d = 3) (hf : num d 2 2 / 2 = 0) : reservedOk d = allZero d 24 40 := by
  simp [reservedOk, reservedBytes, reservedBits, ho, hf]

/-- Settles O31: a FENCE is refused for a reserved byte, or is taken with a snapshot of the rings it names, and completes with the
others that are satisfied (R365, R366). -/
theorem fencesNameTheirRings : Obligations.FencesNameTheirRings := by
  intro r d s ho hv hf ha hs hc named
  have hknown : opcode d ∈ opcodes := by rw [ho]; decide
  have hst := headStatus_of_reservedOk hs hknown hv
  rw [reservedOk_fence ho hf] at hst
  have hn := noted_postHead r d s.eng
  have hnamed : ∀ k, FenceNames (postHead r d s.eng) r d k ↔ named k := fenceNames_congr (fun k _ => (ring_postHead r k d s.eng).2) r d
  cases hz : allZero d 24 40 with
  | false =>
    rw [hz, if_neg Bool.false_ne_true] at hst
    have hbad : headStatus s.eng r d ≠ 0 := by rw [hst]; decide
    obtain ⟨n, h⟩ := recorded_opHostCommand_bad (.read opFence) hbad
    rw [badHeadRec_of_reserved hst (by rw [ho]; decide) (by rw [ho]; decide)] at h
    have hlast : (opHostCommand (.read opFence) r d s.eng).hl.cmds.getLast? = _ := h.cmds ▸ List.getLast?_concat
    exact ⟨_, _, hostRow_recorded hc ha h (idle_append (idle_doneCmd ..)), hlast, rfl, rfl, h.sameWork, fun _ => rfl, nofun⟩
  | true =>
    rw [hz, if_pos rfl] at hst
    have h := recorded_opFence r d (postHead r d s.eng)
    rw [← opHostCommand_read opFence hst, hn.hl_cmds] at h
    have hall := hn.recorded.trans h
    have hlast : (opHostCommand (.read opFence) r d s.eng).hl.cmds.getLast? = _ := h.cmds ▸ List.getLast?_concat
    refine ⟨_, _, hostRow_recorded hc ha hall ?idle, hlast, fenceSettled_ring .., fenceSettled_desc .., hall.sameWork, nofun,
      fun _ => ⟨fun hw => fence_done ?written, ?waits⟩⟩
    case idle =>
      intro hi
      refine idle_append (idle_fenceSettled ⟨Work.noConfusion, rfl⟩) fun x hx => ?_
      obtain ⟨c, hc, rfl⟩ := List.mem_map.1 hx
      exact idle_fenceSettled (hi c hc)
    case written =>
      rw [hn.hl_cmds]
      exact fun c hc o ho' hno => hw c hc o ho' ((hnamed _).1 hno)
    case waits =>
      rintro ⟨o, hmem, hno, hrec⟩
      have hw := fence_waits (hn.hl_cmds ▸ hmem) ((hnamed _).2 hno) hrec
      rw [hw]
      refine ⟨rfl, canAccept_of_fenceAhead (fenceAhead_of_fenceCmd (d := d) (e := postHead r d s.eng) ?_)⟩
      rw [onEng_eng, h.cmds, hw]
      exact List.mem_append_right _ (List.mem_singleton_self _)

end Sys2Proof.Machine

/-! SUPPORT. Routing: the entry of the routing table that a destination takes, and the half of the table it lies in (R412). -/

namespace Sys2Proof.Machine

/-! ## The entry in each mode -/

theorem routeIndex_flat {e : Eng} {n : Nat} (hm : e.fb.groupMode = false) : routeIndex e n = if n < 2 ^ 15 then some n else none := by
  simp [routeIndex, hm]

theorem routeIndex_ownGroup {e : Eng} {n : Nat} (hm : e.fb.groupMode = true) (hg : n / 2 ^ e.fb.shift = e.fb.node / 2 ^ e.fb.shift) :
    routeIndex e n = some (n % 2 ^ e.fb.shift) := by
  simp [routeIndex, hm, hg]

theorem routeIndex_otherGroup {e : Eng} {n : Nat} (hm : e.fb.groupMode = true)
    (hg : n / 2 ^ e.fb.shift ≠ e.fb.node / 2 ^ e.fb.shift) : routeIndex e n = some (16384 + n / 2 ^ e.fb.shift) := by
  simp [routeIndex, hm, hg]

/-! ## Both halves of the table: 16,384 entries for the own group's nodes, 16,384 for the other groups -/

/-- A shift of at most 14 keeps the own group's entries in the lower half. -/
theorem ownGroup_entry_lt {n g : Nat} (hg : g ≤ 14) : n % 2 ^ g < 16384 :=
  calc n % 2 ^ g < 2 ^ g := Nat.mod_lt _ (Nat.two_pow_pos g)
    _ ≤ 2 ^ 14 := Nat.pow_le_pow_right Nat.two_pos hg

/-- A shift of at least 6 leaves a 20-bit node at most 2¹⁴ groups. -/
theorem group_lt {n g : Nat} (hn : n < 2 ^ 20) (hg : 6 ≤ g) : n / 2 ^ g < 16384 :=
  calc n / 2 ^ g ≤ n / 2 ^ 6 := Nat.div_le_div_left (Nat.pow_le_pow_right Nat.two_pos hg) (Nat.two_pow_pos 6)
    _ < 2 ^ 14 := Nat.div_lt_of_lt_mul hn

/-! ## The statement -/

/-- Settles O50: FLAT is the node itself where the table reaches it; in GROUP mode the own group and the other groups each fill
one half of the table, so that every 20-bit node has an entry (R412). -/
theorem routeEntriesAreSelected : Obligations.RouteEntriesAreSelected := by
  intro e n hn
  refine ⟨routeIndex_flat, fun hm hlo hhi => ?_⟩
  by_cases hg : n / 2 ^ e.fb.shift = e.fb.node / 2 ^ e.fb.shift
  · have hlt := ownGroup_entry_lt (n := n) hhi
    exact ⟨_, routeIndex_ownGroup hm hg, by omega, fun _ => rfl, fun hne => absurd hg hne⟩
  · have hlt := group_lt hn hlo
    exact ⟨_, routeIndex_otherGroup hm hg, by omega, fun heq => absurd heq hg, fun _ => rfl⟩

end Sys2Proof.Machine

/-! SUPPORT. Ridge pairs: the half bit of a row, the member of a pair that a half names, and which of the two leads (R430). -/

namespace Sys2Proof.Machine

/-! ## The half bit and the node it names -/

/-- The half is bit 30 of R430's x, read with a shift and a mask. -/
theorem halfOf_eq_bit (t i : Nat) : halfOf t i = (((i * 0x9E3779B9 + t * 0x85EBCA6B) % 2 ^ 32) >>> 30) &&& 1 := by
  rw [halfOf, Nat.shiftRight_eq_div_pow, Nat.and_one_is_mod]

theorem halfOf_lt_two (t i : Nat) : halfOf t i < 2 :=
  Nat.mod_lt _ Nat.two_pos

/-- R430's own row: x is 0x8E8D6C91, whose bit 30 is 0. -/
theorem halfOf_example : halfOf 0x0031 0x000051C6 = 0 := by decide

theorem leadOf_div_two {pair half : Nat} (hh : half < 2) : leadOf pair half / 2 = pair := by
  unfold leadOf; omega

theorem leadOf_mod_two {pair half : Nat} (hh : half < 2) : leadOf pair half % 2 = half := by
  unfold leadOf; omega

/-- A node is the one its own pair has for a half exactly when its bit 0 is that half. -/
theorem eq_leadOf_iff {node half : Nat} : node = leadOf (node / 2) half ↔ node % 2 = half := by
  unfold leadOf; omega

/-! ## The lead and the mirror -/

theorem leads_iff (e : Eng) (t i : Nat) : leads e t i = true ↔ e.fb.node % 2 = halfOf t i :=
  beq_iff_eq

theorem leads_iff_leadOf (e : Eng) (t i : Nat) : leads e t i = true ↔ e.fb.node = leadOf (e.fb.node / 2) (halfOf t i) :=
  (leads_iff e t i).trans eq_leadOf_iff.symm

/-- The two members of a pair differ in node-ID bit 0, so exactly one of them leads a row. -/
theorem leads_partner {e e' : Eng} (hp : e.fb.node / 2 = e'.fb.node / 2) (hn : e.fb.node ≠ e'.fb.node) (t i : Nat) :
    leads e' t i = !leads e t i := by
  have hbit : e'.fb.node % 2 = halfOf t i ↔ ¬ e.fb.node % 2 = halfOf t i := by
    have hh := halfOf_lt_two t i
    omega
  rw [Bool.eq_iff_iff, Bool.not_eq_true', ← Bool.not_eq_true, leads_iff, leads_iff, hbit]

/-! ## The statement -/

/-- Settles O46: the half is one bit, the lead is the node of the pair whose bit 0 it is, and the members of a pair differ in that
bit (R430). -/
theorem halvesHaveALead : Obligations.HalvesHaveALead := by
  refine ⟨fun t i pair => ?half, fun t i e e' hp hn => ?lead, halfOf_example, ?worked⟩
  case half =>
    have hh := halfOf_lt_two t i
    exact ⟨halfOf_eq_bit t i, hh, leadOf_div_two hh, leadOf_mod_two hh⟩
  case lead => exact ⟨leads_iff_leadOf e t i, leads_partner hp hn t i⟩
  case worked => rw [halfOf_example, leadOf]

end Sys2Proof.Machine

/-! SUPPORT. Reads of counters and of CT_TICK: what a read of the low half returns and latches, that counting leaves every latch as it
is, and what a register read can change. -/

namespace Sys2Proof.Machine

/-! ## Where the counter slots lie -/

/-- A counter slot is 16 bytes, in the upper half of its block's page (R531). -/
theorem counterSlots_layout : ∀ slot ∈ counterSlots, slot % 16 = 0 ∧ 0x800 ≤ slot % 0x1000 := by decide +kernel

/-! ## A path's latch of a counter -/

/-- The latch of a counter slot that a path's reads of its high half return (R541). -/
def latchOf (p : Path) (slot : Nat) (e : Eng) : Word := latched p (Tab.get {} e.ctr slot)

@[simp] theorem latchHigh_value (p : Path) (w : Word) (c : Counter) : (latchHigh p w c).value = c.value := by cases p <;> rfl

@[simp] theorem latchHigh_sat (p : Path) (w : Word) (c : Counter) : (latchHigh p w c).sat = c.sat := by cases p <;> rfl

theorem latched_latchHigh_self (p : Path) (w : Word) (c : Counter) : latched p (latchHigh p w c) = w := by cases p <;> rfl

theorem latched_latchHigh_of_ne {p p' : Path} (h : p' ≠ p) (w : Word) (c : Counter) : latched p' (latchHigh p w c) = latched p' c := by
  cases p <;> cases p'
  case host.host | nightwatch.nightwatch => exact absurd rfl h
  case host.nightwatch | nightwatch.host => rfl

theorem latched_add (p : Path) (c : Counter) (n : Nat) : latched p (c.add n) = latched p c := by
  unfold Counter.add
  split <;> cases p <;> rfl

/-! ## Counting leaves the latches as they are -/

theorem latchOf_bump (p : Path) (x slot n : Nat) (e : Eng) : latchOf p x (bump slot n e).1 = latchOf p x e := by
  unfold bump latchOf
  dsimp only
  split
  · rfl
  · rw [tabGet_set]
    split
    · next h => rw [latched_add, h]
    · rfl

theorem latchOf_bumps (p : Path) (x : Nat) (l : List (Nat × Nat)) (e : Eng) : latchOf p x (bumps l e).1 = latchOf p x e := by
  induction l generalizing e with
  | nil => rfl
  | cons c t ih => exact (ih _).trans (latchOf_bump p x c.1 c.2 e)

theorem latchOf_putNwEvent (p : Path) (x : Nat) (bs : List Byte) (e : Eng) : latchOf p x (putNwEvent bs e).1 = latchOf p x e := by
  unfold putNwEvent
  split
  · rfl
  · exact latchOf_bumps p x _ e

theorem latchOf_putHostEvent (p : Path) (x : Nat) (bs : List Byte) (e : Eng) : latchOf p x (putHostEvent bs e).1 = latchOf p x e := by
  unfold putHostEvent
  split
  · exact latchOf_bumps p x _ _
  · split
    · rfl
    · exact latchOf_bumps p x _ _

theorem latchOf_putEvents (p : Path) (x : Nat) (vs : List Event) (e : Eng) : latchOf p x (putEvents vs e).1 = latchOf p x e := by
  induction vs generalizing e with
  | nil => rfl
  | cons v t ih => exact (ih _).trans ((latchOf_putHostEvent p x _ _).trans (latchOf_putNwEvent p x _ e))

theorem latchOf_postEvents (p : Path) (x n : Nat) (vs : List Event) (e : Eng) : latchOf p x (postEvents n vs e) = latchOf p x e := by
  induction n generalizing vs e with
  | zero => rfl
  | succ n ih =>
    unfold postEvents
    dsimp only
    split
    · exact latchOf_putEvents p x vs e
    · exact (ih _ _).trans (latchOf_putEvents p x vs e)

theorem latchOf_count (p : Path) (x slot n : Nat) (e : Eng) : latchOf p x (count slot n e) = latchOf p x e := by
  unfold count
  dsimp only
  split
  · exact (latchOf_postEvents p x _ _ _).trans (latchOf_bump p x slot n e)
  · exact latchOf_bump p x slot n e

/-! ## Reads of a counter slot -/

/-- The counters after a read of VALUE_LO: the slot's own holds the high half in the path's latch. -/
theorem get_counterLo (p : Path) (slot x : Nat) (e : Eng) : Tab.get {} (counterLo p slot e).2.ctr x =
    if x = slot then latchHigh p (BitVec.ofNat 32 (hi32 (slotValue slot e))) (Tab.get {} e.ctr slot) else Tab.get {} e.ctr x :=
  tabGet_set ..

theorem latchOf_counterLo_self (p : Path) (slot : Nat) (e : Eng) :
    latchOf p slot (counterLo p slot e).2 = BitVec.ofNat 32 (hi32 (slotValue slot e)) := by
  rw [latchOf, get_counterLo, if_pos rfl, latched_latchHigh_self]

theorem latchOf_counterLo_of_ne {p p' : Path} (h : p' ≠ p) (slot : Nat) (e : Eng) :
    latchOf p' slot (counterLo p slot e).2 = latchOf p' slot e := by
  rw [latchOf, get_counterLo, if_pos rfl, latched_latchHigh_of_ne h, latchOf]

theorem toNat_hi32 (x : Nat) : (BitVec.ofNat 32 (hi32 x)).toNat = x / 2 ^ 32 % 2 ^ 32 := by
  rw [BitVec.toNat_ofNat, hi32, Nat.mod_mod]

/-- A read in the upper half of a page is a read of a counter slot. -/
theorem regRead_counter (p : Path) {off : Nat} (h : 0x800 ≤ off % 0x1000) (s : State) :
    regRead p off s = ((counterRead p off s.eng).1, { s with eng := (counterRead p off s.eng).2 }) := if_pos h

theorem regRead_counterLo (p : Path) {slot : Nat} (h : slot ∈ counterSlots) (s : State) :
    regRead p slot s = ((counterLo p slot s.eng).1, { s with eng := (counterLo p slot s.eng).2 }) := by
  obtain ⟨h16, h800⟩ := counterSlots_layout slot h
  have hslot : slot / 16 * 16 = slot := by omega
  have hread : counterRead p slot s.eng = counterLo p slot s.eng := by
    unfold counterRead
    simp only [hslot, h16, List.contains_iff_mem.2 h, Bool.not_true, Bool.false_eq_true, if_false]
  rw [regRead_counter p h800, hread]

theorem regRead_counterHi (p : Path) {slot : Nat} (h : slot ∈ counterSlots) (s : State) :
    regRead p (slot + 4) s = ((latchOf p slot s.eng).toNat, s) := by
  obtain ⟨h16, h800⟩ := counterSlots_layout slot h
  have hslot : (slot + 4) / 16 * 16 = slot := by omega
  have hfour : (slot + 4) % 16 = 4 := by omega
  have hread : counterRead p (slot + 4) s.eng = ((latchOf p slot s.eng).toNat, s.eng) := by
    unfold counterRead
    simp only [hslot, hfour, List.contains_iff_mem.2 h, Bool.not_true, Bool.false_eq_true, if_false, latchOf]
  rw [regRead_counter p (by omega), hread]

/-- A read of a counter slot changes nothing unless it is one of VALUE_LO (R541). -/
theorem counterRead_snd {off : Nat} (p : Path) (e : Eng) :
    (counterRead p off e).2 = e ∨ off ∈ counterSlots ∧ (counterRead p off e).2 = (counterLo p off e).2 := by
  unfold counterRead
  dsimp only
  split
  · exact .inl rfl
  · next hmem =>
    split
    · next h0 =>
      have hslot : off / 16 * 16 = off := by omega
      rw [hslot, Bool.not_eq_true, Bool.not_eq_false', List.contains_iff_mem] at hmem
      exact .inr ⟨hmem, by rw [hslot]⟩
    · exact .inl rfl
    · exact .inl rfl
    · exact .inl rfl

/-! ## Reads of CT_TICK -/

/-- The latch of CT_TICK that a path's reads of CT_TICK_HI return (R541, R542). -/
def tickLatch (p : Path) (e : Eng) : Word :=
  match p with
  | .host => e.tickLatchHost
  | .nightwatch => e.tickLatchNw

/-- Store the high half of the tick counter in a path's latch. -/
def latchTick (p : Path) (e : Eng) : Eng :=
  match p with
  | .host => { e with tickLatchHost := BitVec.ofNat 32 (hi32 e.tick) }
  | .nightwatch => { e with tickLatchNw := BitVec.ofNat 32 (hi32 e.tick) }

theorem tickLatch_latchTick_self (p : Path) (e : Eng) : tickLatch p (latchTick p e) = BitVec.ofNat 32 (hi32 e.tick) := by cases p <;> rfl

theorem tickLatch_latchTick_of_ne {p p' : Path} (h : p' ≠ p) (e : Eng) : tickLatch p' (latchTick p e) = tickLatch p' e := by
  cases p <;> cases p'
  case host.host | nightwatch.nightwatch => exact absurd rfl h
  case host.nightwatch | nightwatch.host => rfl

theorem regRead_tickLo (p : Path) (s : State) : regRead p 0x3004 s = (lo32 s.eng.tick, { s with eng := latchTick p s.eng }) := by
  cases p <;> rfl

theorem regRead_tickHi (p : Path) (s : State) : regRead p 0x3008 s = ((tickLatch p s.eng).toNat, s) := by cases p <;> rfl

theorem ctRead_snd (p : Path) (r : Nat) (e : Eng) : (ctRead p r e).2 = e ∨ r = 0x004 ∧ (ctRead p r e).2 = latchTick p e := by
  unfold ctRead
  split
  case h_2 => exact .inr ⟨rfl, by cases p <;> rfl⟩
  all_goals exact .inl rfl

/-! ## What a register read can change -/

/-- The control registers that a read changes something for are CT_TICK_LO and ST_Q_HANDLE_LO (R535). -/
theorem controlRead_snd (p : Path) {blk r : Nat} (s : State) (h : ¬(blk = 0x0E ∧ r = 0x030)) :
    (controlRead p blk r s).2 = s ∨ (blk = 0x03 ∧ r = 0x004) ∧ (controlRead p blk r s).2 = { s with eng := latchTick p s.eng } := by
  unfold controlRead
  split
  case h_4 =>
    dsimp only
    obtain hsame | ⟨hr, htick⟩ := ctRead_snd p r s.eng
    · exact .inl (by rw [hsame])
    · exact .inr ⟨⟨rfl, hr⟩, by rw [htick]⟩
  case h_15 =>
    rw [if_neg fun hr => h ⟨rfl, hr⟩]
    exact .inl rfl
  all_goals exact .inl rfl

/-- A register read but the pop of ST_Q_HANDLE_LO changes nothing, or latches a counter's high half, or that of CT_TICK. -/
theorem regRead_snd (p : Path) {off : Nat} (s : State) (h : off ≠ 0xE030) :
    (regRead p off s).2 = s ∨ (off ∈ counterSlots ∧ (regRead p off s).2 = { s with eng := (counterLo p off s.eng).2 }) ∨
      off = 0x3004 ∧ (regRead p off s).2 = { s with eng := latchTick p s.eng } := by
  by_cases hc : 0x800 ≤ off % 0x1000
  · rw [regRead_counter p hc]
    obtain hsame | ⟨hmem, hlow⟩ := counterRead_snd (off := off) p s.eng
    · exact .inl (by rw [hsame])
    · exact .inr (.inl ⟨hmem, by rw [hlow]⟩)
  · have hctl : regRead p off s = controlRead p (off / 0x1000) (off % 0x1000) s := if_neg hc
    rw [hctl]
    obtain hsame | ⟨hoff, htick⟩ := controlRead_snd (blk := off / 0x1000) (r := off % 0x1000) p s (by omega)
    · exact .inl hsame
    · exact .inr (.inr ⟨by omega, htick⟩)

/-- Settles O26: the state after a read is the one before it, or differs in one latch (R535). -/
theorem readsHaveNoSideEffect : Obligations.ReadsHaveNoSideEffect := by
  intro p off s hpop
  obtain hsame | ⟨hmem, hlow⟩ | ⟨hoff, htick⟩ := regRead_snd p s hpop
  · rw [hsame]
    exact ⟨⟨rfl, rfl, rfl, rfl⟩, rfl, fun _ => ⟨rfl, rfl⟩, fun _ _ => rfl⟩
  · rw [hlow]
    refine ⟨⟨rfl, rfl, rfl, rfl⟩, rfl, fun x => ?_, fun hnot => absurd hmem hnot⟩
    rw [get_counterLo]
    split
    · next h => rw [latchHigh_value, latchHigh_sat, h]; exact ⟨rfl, rfl⟩
    · exact ⟨rfl, rfl⟩
  · rw [htick]
    cases p <;> exact ⟨⟨rfl, rfl, rfl, rfl⟩, rfl, fun _ => ⟨rfl, rfl⟩, fun _ hne => absurd hoff hne⟩

/-! ## Both halves in one request -/

/-- Bytes past those written do not matter. -/
theorem leBytes_mod (n v : Nat) : leBytes n (v % 256 ^ n) = leBytes n v := by
  induction n generalizing v with
  | zero => rfl
  | succ n ih =>
    have hbyte : BitVec.ofNat 8 (v % (256 * 256 ^ n)) = BitVec.ofNat 8 v :=
      BitVec.eq_of_toNat_eq (by rw [BitVec.toNat_ofNat, BitVec.toNat_ofNat]; exact Nat.mod_mul_right_mod v 256 _)
    rw [leBytes, leBytes, Nat.pow_succ', hbyte, Nat.mod_mul_right_div_self, ih]

theorem leBytes_add (a b v : Nat) : leBytes (a + b) v = leBytes a v ++ leBytes b (v / 256 ^ a) := by
  induction a generalizing v with
  | zero => rw [Nat.zero_add, Nat.pow_zero, Nat.div_one]; rfl
  | succ a ih => rw [Nat.succ_add, leBytes, leBytes, ih, Nat.div_div_eq_div_mul, Nat.pow_succ', List.cons_append]

/-- The two words of a wide value in a row are its eight bytes. -/
theorem leBytes_halves (v : Nat) : leBytes 4 (v % 2 ^ 32) ++ leBytes 4 (v / 2 ^ 32 % 2 ^ 32) = leBytes 8 v := by
  have hword : 2 ^ 32 = 256 ^ 4 := by decide
  rw [hword, leBytes_mod, leBytes_mod, ← leBytes_add]

theorem readRegs_two (off : Nat) (s : State) : (readRegs 2 off s).1 =
    leBytes 4 (regRead .nightwatch off s).1 ++ leBytes 4 (regRead .nightwatch (off + 4) (regRead .nightwatch off s).2).1 := by
  rw [readRegs, readRegs, readRegs, List.append_nil]

/-- A read of the low half, then one of the high half by the same path, pairs the halves of one value (R541). -/
theorem regRead_halves (p : Path) {slot : Nat} (h : slot ∈ counterSlots) (s : State) :
    (regRead p slot s).1 = slotValue slot s.eng % 2 ^ 32 ∧
      (regRead p (slot + 4) (regRead p slot s).2).1 = slotValue slot s.eng / 2 ^ 32 % 2 ^ 32 := by
  rw [regRead_counterHi p h, regRead_counterLo p h, latchOf_counterLo_self, toNat_hi32]
  exact ⟨rfl, rfl⟩

/-- Settles O25: the low half's read fills the path's own latch, which neither counting nor the other path's reads change, and the
high half's read returns it (R541). -/
theorem counterReadsLatch : Obligations.CounterReadsLatch := by
  intro p s
  refine ⟨fun slot h => ?counter, ?tick⟩
  case counter =>
    obtain ⟨hlo, hhi⟩ := regRead_halves p h s
    refine ⟨hlo, hhi, fun x n => ?later, fun p' hp => ?other, fun _ => ?moment⟩
    case later =>
      rw [regRead_counterHi p h] at hhi
      rw [regRead_counterHi p h, onEng_eng, latchOf_count, hhi]
    case other => rw [regRead_counterHi p' h, regRead_counterHi p' h, regRead_counterLo p h, latchOf_counterLo_of_ne hp]
    case moment =>
      obtain ⟨hlo', hhi'⟩ := regRead_halves .nightwatch h s
      rw [readRegs_two, hlo', hhi', leBytes_halves]
  case tick =>
    rw [regRead_tickLo]
    refine ⟨rfl, ?same, fun p' hp => ?other⟩
    case same => rw [regRead_tickHi, tickLatch_latchTick_self, toNat_hi32]
    case other => rw [regRead_tickHi, regRead_tickHi, tickLatch_latchTick_of_ne hp]

end Sys2Proof.Machine

/-! SUPPORT. What every command keeps of the always-on state: the bounds, the trip, debug mode, the out-of-service record and the held
requests, one lemma per operation. -/

namespace Sys2Proof.Machine

/-! ## What is kept -/

/-- The always-on state that the bounds and the three latches speak of. -/
structure Vitals where
  state : Nat
  goal : Option (Nat × Nat × Bool)
  level : Nat
  arithStep : Nat
  capIssue : Nat
  issue : Tab Nat
  thermtrip : Bool
  rung : Nat
  bank : Nat
  activeBank : Nat
  flash : List Host.Cell
  debug : Bool
  oosRecord : Option (Word × BitVec 8)
  held : List Instr

/-- The vitals of a state. -/
def vitals (s : State) : Vitals where
  state := s.pw.state
  goal := s.pw.goal
  level := s.pw.level
  arithStep := s.pw.arithStep
  capIssue := s.pw.capIssue
  issue := s.pw.issue
  thermtrip := s.pw.thermtrip
  rung := s.fw.resetRung
  bank := s.fw.bank
  activeBank := s.fw.activeBank
  flash := s.fw.flash
  debug := s.fw.debug
  oosRecord := s.fw.oosRecord
  held := s.nw.held

/-- From `s` to `t` the bounds are kept, and each latch changes only as `P` and `A` allow: THERMTRIP_N falls where `P` lets it, debug
mode is set by a DEBUG_MODE of `A`, the record is erased by a RETURN_TO_SERVICE of `A`; and what is held in `t` was held in `s` or is of `A`. -/
structure Kept (P : Prop) (A : Instr → Prop) (s t : State) : Prop where
  legal : Legal s → Legal t
  trip : ¬P → s.pw.thermtrip = true → t.pw.thermtrip = true := by exact fun _ h => h
  debug : (∀ h, ¬A (.debugMode h true)) → s.fw.debug = false → t.fw.debug = false := by exact fun _ h => h
  oos : (∀ h, ¬A (.returnToService h)) → s.fw.oosRecord ≠ none → t.fw.oosRecord ≠ none := by exact fun _ h => h
  held : ∀ j ∈ t.nw.held, j ∈ s.nw.held ∨ A j := by exact fun _ h => .inl h

section
variable {P : Prop} {A : Instr → Prop} {s t u : State}

theorem kept_of_vitals (h : vitals t = vitals s) : Kept P A s t := by
  simp only [vitals, Vitals.mk.injEq] at h
  obtain ⟨h1, h2, h3, h4, h5, h6, h7, h8, h9, h10, h11, h12, h13, h14⟩ := h
  constructor
  case legal =>
    intro l
    exact ⟨h1 ▸ l.state, h2 ▸ l.goal, h8 ▸ l.rung, h3 ▸ l.level, h4 ▸ l.arith, h5 ▸ l.cap, h6 ▸ l.issue, h14 ▸ l.held, h9 ▸ l.bank,
      h10 ▸ l.active, h11 ▸ l.flash⟩
  case trip => intro _ h; rw [h7]; exact h
  case debug => intro _ h; rw [h12]; exact h
  case oos => intro _ h; rw [h13]; exact h
  case held => intro j hj; rw [h14] at hj; exact .inl hj

theorem Kept.refl (s : State) : Kept P A s s := kept_of_vitals rfl

theorem Kept.trans (h : Kept P A s t) (k : Kept P A t u) : Kept P A s u where
  legal := k.legal ∘ h.legal
  trip a := k.trip a ∘ h.trip a
  debug a := k.debug a ∘ h.debug a
  oos a := k.oos a ∘ h.oos a
  held j hj := (k.held j hj).elim (h.held j) .inr

/-- Every request held stays one of `A`. -/
theorem Kept.asked (h : Kept P A s t) (hs : ∀ j ∈ s.nw.held, A j) : ∀ j ∈ t.nw.held, A j :=
  fun j hj => (h.held j hj).elim (hs j) id

theorem kept_onEng (f : Eng → Eng) (h : Kept P A s t) : Kept P A s (onEng f t) := h.trans (kept_of_vitals rfl)

theorem kept_eng (e : Eng) (h : Kept P A s t) : Kept P A s { t with eng := e } := h.trans (kept_of_vitals rfl)

theorem kept_ite (c : Prop) [Decidable c] (ht : c → Kept P A s t) (hu : ¬c → Kept P A s u) : Kept P A s (if c then t else u) := by
  split
  · exact ht ‹_›
  · exact hu ‹_›

theorem kept_foldl {α : Type} {f : State → α → State} (hf : ∀ t x, Kept P A s t → Kept P A s (f t x)) (l : List α) (h : Kept P A s t) :
    Kept P A s (l.foldl f t) := by
  induction l generalizing t with
  | nil => exact h
  | cons x l ih => exact ih (hf t x h)

/-! ## Resets and the out-of-service state -/

theorem kept_nextGen (h : Kept P A s t) : Kept P A s (nextGen t) := h.trans (kept_of_vitals rfl)

theorem kept_leave (oos : Bool) (h : Kept P A s t) : Kept P A s (leave oos t) := h.trans (kept_of_vitals rfl)

/-- The cold drop keeps the flash, the bank that is active and the record; the rest returns to its reset value. -/
theorem kept_coldDrop (code : Word) (h : Kept P A s t) : Kept P A s (coldDrop code t) := by
  refine h.trans { legal := fun l => ?_, debug := fun _ _ => rfl, held := nofun }
  exact { state := .inl rfl, goal := nofun, rung := .inr (.inr (.inr rfl)), level := Nat.zero_le 2, arith := Nat.zero_le 2
          cap := ⟨Nat.le_of_ble_eq_true rfl, Nat.le_refl 16⟩, issue := nofun, held := Nat.zero_le 4, bank := Nat.zero_le 1
          active := l.active, flash := l.flash }

theorem raiseTags_eq (ds : List Domain) (fw : Firmware) :
    ds.foldl (fun fw d => raiseTag d fw) fw = { fw with tags := (ds.foldl (fun fw d => raiseTag d fw) fw).tags } := by
  induction ds generalizing fw with
  | nil => rfl
  | cons d ds ih => rw [List.foldl_cons, ih]; rfl

/-- Debug mode ends, and nothing else that is kept changes. -/
theorem kept_debugOff (h : Kept P A s t) {u : State} (hu : vitals u = { vitals t with debug := false }) : Kept P A s u := by
  have hd : Kept P A t { t with fw := { t.fw with debug := false } } := { legal := fun l => { l with }, debug := fun _ _ => rfl }
  exact (h.trans hd).trans (kept_of_vitals hu)

theorem kept_holdLogic (rung : Nat) (h : Kept P A s t) : Kept P A s (holdLogic rung t) := by
  refine kept_debugOff h ?_
  unfold holdLogic
  dsimp only [vitals]
  rw [raiseTags_eq]
  rfl

/-- A rung is in progress, or none. -/
theorem kept_rung (h : Kept P A s t) {r : Nat} (hr : r = 0 ∨ r = 2 ∨ r = 3 ∨ r = 4) {u : State} (hu : vitals u = { vitals t with rung := r }) :
    Kept P A s u := by
  have hd : Kept P A t { t with fw := { t.fw with resetRung := r } } := { legal := fun l => { l with rung := hr } }
  exact (h.trans hd).trans (kept_of_vitals hu)

/-- A rung of R471 begins. -/
theorem kept_startRung {rung : Nat} (hr : rung = 2 ∨ rung = 3 ∨ rung = 4) (code : Word) (h : Kept P A s t) :
    Kept P A s (startRung rung code t) := by
  have hl := kept_leave false h
  unfold startRung
  refine kept_ite _ (fun _ => ?_) (fun _ => ?_)
  · exact kept_rung (kept_coldDrop code hl) (.inr (.inr (.inr rfl))) rfl
  · exact kept_rung (kept_holdLogic rung hl) (.inr hr) rfl

/-- The record of going out of service is made. -/
theorem kept_record (h : Kept P A s t) {r : Option (Word × BitVec 8)} (hr : r ≠ none) {u : State}
    (hu : vitals u = { vitals t with oosRecord := r }) : Kept P A s u := by
  have hd : Kept P A t { t with fw := { t.fw with oosRecord := r } } := { legal := fun l => { l with }, oos := fun _ _ => hr }
  exact (h.trans hd).trans (kept_of_vitals hu)

/-- A transition asked for is no longer pending. -/
theorem kept_noGoal (h : Kept P A s t) : Kept P A s { t with pw := { t.pw with goal := none } } :=
  h.trans { legal := fun l => { l with goal := nofun } }

theorem kept_outOfService (c : Cause) (reason : Nat) (h : Kept P A s t) : Kept P A s (outOfService c reason t) := by
  have hh := kept_noGoal (kept_holdLogic 2 (kept_leave true h))
  unfold outOfService
  dsimp only
  generalize holdLogic 2 (leave true t) = u at hh ⊢
  refine kept_ite _ (fun _ => h) (fun _ => ?_)
  exact kept_record (kept_rung hh (u := { u with pw := { u.pw with goal := none }, fw := { u.fw with resetRung := 0 } }) (.inl rfl) rfl)
    (r := some (causeCode 5 c reason, u.fw.bootCount)) nofun rfl

theorem kept_failStack (k : Nat) (h : Kept P A s t) : Kept P A s (failStack k t) :=
  kept_ite _ (fun _ => h) fun _ => kept_outOfService _ _ (kept_eng _ h)

theorem kept_trainStack (t : State) (k : Nat) (h : Kept P A s t) : Kept P A s (trainStack t k) :=
  kept_ite _ (fun _ => h) fun _ => kept_failStack k h

theorem kept_trainStacks (h : Kept P A s t) : Kept P A s (trainStacks t) := kept_foldl kept_trainStack _ h

theorem kept_askReset {rung : Nat} (hr : rung = 2 ∨ rung = 3) (c : Cause) (reason : Nat) (counted : Bool) (h : Kept P A s t) :
    Kept P A s (askReset rung c reason counted t) := by
  unfold askReset
  refine kept_ite _ (fun _ => h) (fun _ => kept_ite _ (fun _ => kept_outOfService _ _ ?_) (fun _ => kept_startRung (hr.imp_right .inl) _ ?_))
  · exact h.trans (kept_of_vitals rfl)
  · exact h.trans (kept_of_vitals rfl)

/-! ## Unit resets -/

theorem kept_unitReset (d : Domain) (reason : Nat) (h : Kept P A s t) : Kept P A s (unitReset d reason t) := by
  unfold unitReset
  exact kept_ite _ (fun _ => kept_trainStack _ _ (kept_debugOff h rfl)) fun _ => kept_debugOff h rfl

theorem kept_askUnit (d : Domain) (reason : Nat) (h : Kept P A s t) : Kept P A s (askUnit d reason t) := by
  unfold askUnit
  refine kept_ite _ (fun _ => h) (fun _ => kept_ite _ (fun _ => kept_askReset (.inl rfl) _ _ _ h) (fun _ => ?_))
  refine kept_ite _ (fun _ => kept_askReset (.inl rfl) _ _ _ ?_) (fun _ => kept_unitReset _ _ ?_)
  · exact h.trans (kept_of_vitals rfl)
  · exact h.trans (kept_of_vitals rfl)

/-! ## Activation and core restarts -/

theorem kept_downCore (c cause : Nat) (h : Kept P A s t) : Kept P A s (downCore c cause t) := kept_onEng _ h

theorem kept_setCore (c : Nat) (f : Core → Core) (h : Kept P A s t) : Kept P A s (setCore c f t) := h.trans (kept_of_vitals rfl)

theorem kept_activationEvent (b : BitVec 64) (r c : Nat) (h : Kept P A s t) : Kept P A s (activationEvent b r c t) := kept_onEng _ h

theorem kept_endActivation (h : Kept P A s t) : Kept P A s (endActivation t) := h.trans { legal := fun l => { l with bank := l.active } }

theorem kept_finishActivation (h : Kept P A s t) : Kept P A s (finishActivation t) := by
  unfold finishActivation
  exact kept_onEng _ (kept_activationEvent _ _ _ (kept_endActivation h))

theorem kept_finishRollback (core : Nat) (h : Kept P A s t) : Kept P A s (finishRollback core t) :=
  kept_onEng _ (kept_activationEvent _ _ _ (kept_endActivation h))

theorem kept_nextCore (h : Kept P A s t) : Kept P A s (nextCore t) := by
  unfold nextCore
  split
  case h_1 => exact kept_ite _ (fun _ => kept_finishRollback _ h) fun _ => kept_downCore _ _ h
  case h_2 =>
    refine kept_ite _ (fun _ => kept_finishActivation h) fun _ => kept_ite _ (fun _ => ?_) fun _ => kept_downCore _ _ h
    exact kept_activationEvent _ _ _ (h.trans (kept_of_vitals rfl))

theorem kept_startActivation (h : Kept P A s t) : Kept P A s (startActivation t) := by
  unfold startActivation
  refine kept_nextCore ?_
  by_cases hn : t.fw.actNext = 0
  · rw [if_pos hn]
    exact h.trans { legal := fun l => { l with active := Nat.sub_le 1 _ } }
  · rw [if_neg hn]
    exact h.trans (kept_of_vitals rfl)

theorem kept_rollBack (c : Nat) (h : Kept P A s t) : Kept P A s (rollBack c t) :=
  kept_nextCore (h.trans { legal := fun l => { l with active := Nat.sub_le 1 _ } })

theorem kept_opHoldoff (h : Kept P A s t) : Kept P A s (opHoldoff t) := kept_ite _ (fun _ => kept_startActivation h) fun _ => h

theorem kept_activateIfDue (h : Kept P A s t) : Kept P A s (activateIfDue t) :=
  kept_ite _ (fun _ => kept_ite _ (fun _ => kept_activationEvent _ _ _ (h.trans (kept_of_vitals rfl))) fun _ => kept_startActivation h)
    fun _ => h

theorem kept_failCore (c cause : Nat) (h : Kept P A s t) : Kept P A s (failCore c cause t) :=
  kept_ite _ (fun _ => kept_askReset (.inl rfl) _ _ _ (kept_onEng _ (kept_setCore _ _ h)))
    fun _ => kept_downCore _ _ (kept_setCore _ _ h)

theorem kept_opWatchdog (c : Nat) (h : Kept P A s t) : Kept P A s (opWatchdog c t) :=
  kept_ite _ (fun _ => kept_failCore _ _ (kept_onEng _ h)) fun _ => h

theorem kept_opProtection (c : Nat) (h : Kept P A s t) : Kept P A s (opProtection c t) :=
  kept_ite _ (fun _ => kept_failCore _ _ (kept_onEng _ h)) fun _ => h

theorem kept_coreBack (c : Nat) (h : Kept P A s t) : Kept P A s (coreBack c t) := by
  unfold coreBack
  refine kept_ite _ (fun _ => kept_onEng _ (kept_setCore _ _ (kept_onEng _ h))) fun _ => ?_
  split
  · exact kept_nextCore (h.trans (kept_of_vitals rfl))
  · exact kept_nextCore (h.trans (kept_of_vitals rfl))

theorem kept_coreStuck (c : Nat) (h : Kept P A s t) : Kept P A s (coreStuck c t) := by
  unfold coreStuck
  refine kept_ite _ (fun _ => kept_ite _ (fun _ => kept_downCore _ _ ?_) fun _ => kept_failCore _ _ ?_) fun _ =>
    kept_ite _ (fun _ => kept_rollBack _ (kept_setCore _ _ ?_)) fun _ => kept_askReset (.inl rfl) _ _ _ (kept_setCore _ _ ?_)
  all_goals exact kept_setCore _ _ (kept_onEng _ h)

theorem kept_opCoreRestart (c : Nat) (runs : Bool) (h : Kept P A s t) : Kept P A s (opCoreRestart c runs t) :=
  kept_ite _ (fun _ => h) fun _ => kept_ite _ (fun _ => kept_coreBack c h) fun _ => kept_coreStuck c h

/-! ## Completion of a rung -/

theorem kept_bootActivation (h : Kept P A s t) : Kept P A s (bootActivation t) := by
  unfold bootActivation
  refine kept_ite _ (fun _ => ?_) fun _ => h
  split
  · exact kept_finishRollback _ h
  · exact kept_finishActivation h

theorem kept_startLogic (h : Kept P A s t) : Kept P A s (startLogic t) := kept_rung h (.inl rfl) rfl

theorem kept_runLogic (h : Kept P A s t) : Kept P A s (runLogic t) := kept_trainStacks (kept_startLogic h)

theorem kept_toA0 (h : Kept P A s t) : Kept P A s (toA0 t) :=
  kept_ite _ (fun _ => h) fun _ => h.trans { legal := fun l => { l with state := .inl rfl, goal := nofun } }

/-- The bank that boots is the active one, the other one, or the one BOOT_SEL names. -/
theorem bootBank_le {fw : Firmware} {sel b : Nat} (ha : fw.activeBank ≤ 1) (h : bootBank fw sel = some b) : b ≤ 1 := by
  unfold bootBank at h
  split at h
  case h_4 => cases h
  all_goals
    have hm := List.mem_of_find?_eq_some h
    simp only [List.mem_cons, List.not_mem_nil, or_false] at hm
    omega

theorem kept_pickBank {sel : Nat} (h : Kept P A s t) (hu : pickBank sel t = some u) : Kept P A s u := by
  obtain ⟨b, hb, rfl⟩ := Option.map_eq_some_iff.mp hu
  exact h.trans { legal := fun l => { l with bank := bootBank_le l.active hb } }

theorem kept_finishWarm (h : Kept P A s t) : Kept P A s (finishWarm t) := by
  unfold finishWarm
  split
  · exact kept_outOfService _ _ h
  · next u hb =>
    have hu := kept_trainStacks (kept_toA0 (kept_bootActivation (kept_startLogic (kept_pickBank h hb))))
    exact kept_ite _ (fun _ => hu) fun _ => kept_onEng _ (kept_onEng _ hu)

theorem imagePower_eq (v : Variant) (ss : List (Nat × List Byte)) (pw : Power) :
    ∃ a b c d, imagePower v ss pw = { pw with capWatts := a, capWindow := b, lowered := c, currentLimits := d } := by
  unfold imagePower
  split <;> exact ⟨_, _, _, _, rfl⟩

theorem imageFw_eq (ss : List (Nat × List Byte)) (fw : Firmware) :
    ∃ a b c d e, imageFw ss fw = { fw with escUnit := a, escCore := b, escEngine := c, wdogMs := d, holdoffSec := e } := by
  unfold imageFw
  split <;> exact ⟨_, _, _, _, _, rfl⟩

theorem imageNw_held (ss : List (Nat × List Byte)) (nw : Nightwatch) : (imageNw ss nw).held = nw.held := by
  unfold imageNw
  split <;> rfl

theorem vitals_bootCold (s : State) : vitals (bootCold s) = { vitals s with rung := 0 } := by
  unfold bootCold vitals
  dsimp only
  generalize imageEng _ _ = e
  obtain ⟨_, _, _, _, hp⟩ := imagePower_eq e.variant (imageSections s.fw) s.pw
  obtain ⟨_, _, _, _, _, hf⟩ := imageFw_eq (imageSections s.fw) s.fw
  rw [hp, hf, imageNw_held]

theorem kept_bootCold (h : Kept P A s t) : Kept P A s (bootCold t) := kept_rung h (.inl rfl) (vitals_bootCold t)

theorem kept_finishCold (h : Kept P A s t) : Kept P A s (finishCold t) := by
  have hb := kept_bootCold h
  unfold finishCold
  dsimp only
  generalize bootCold t = b at hb ⊢
  refine kept_ite _ (fun _ => hb.trans (kept_of_vitals rfl)) fun _ => ?_
  split
  · exact kept_record hb (r := some (causeCode 5 board Reason.bootFailed, b.fw.bootCount)) nofun rfl
  · next u hu =>
    have h := kept_pickBank hb hu
    have hr := kept_runLogic h
    generalize runLogic u = v at hr ⊢
    refine kept_ite _ (fun _ => kept_trainStacks (h.trans (kept_of_vitals rfl))) fun _ => ?_
    exact kept_ite _ (fun _ => hr) fun _ => kept_onEng _ (hr.trans (kept_of_vitals rfl))

theorem kept_raiseDue (h : Kept P A s t) : Kept P A s (raiseDue t) := by
  unfold raiseDue
  split
  · exact kept_ite _ (fun _ => h.trans (kept_of_vitals rfl)) fun _ => h
  · exact h

theorem kept_freeCause (rung : Nat) (h : Kept P A s t) : Kept P A s (freeCause rung t).1 := kept_eng _ h

theorem kept_opReset {rung : Nat} (hr : rung = 2 ∨ rung = 3 ∨ rung = 4) (h : Kept P A s t) : Kept P A s (opReset rung t) := by
  have hb (c : Bool) : Kept P A s (if c then startRung rung (freeCause rung t).2 (freeCause rung t).1 else t) :=
    kept_ite _ (fun _ => kept_startRung hr _ (kept_freeCause rung h)) fun _ => h
  refine kept_ite _ (fun _ => h) fun _ => kept_ite _ (fun _ => hb _) fun _ => ?_
  exact kept_ite _ (fun _ => kept_finishCold (hb _)) fun _ => kept_ite _ (fun _ => kept_finishWarm (hb _)) fun _ => hb _

theorem kept_opLadder (h : Kept P A s t) : Kept P A s (opLadder t) :=
  kept_ite _ (fun _ => kept_askReset (.inr rfl) _ _ _ h) fun _ =>
    kept_ite _ (fun _ => kept_startRung (.inr (.inr rfl)) _ h) fun _ => h

end
end Sys2Proof.Machine

/-! SUPPORT. What power, registers, Nightwatch and packets keep of the always-on state, and that every safe command completes. -/

namespace Sys2Proof.Machine

section
variable {P : Prop} {A : Instr → Prop} {s t u : State}

/-! ## Stack faults and temperatures -/

theorem kept_readFailed (k ch : Nat) (h : Kept P A s t) : Kept P A s (readFailed k ch t) :=
  kept_ite _ (fun _ => kept_failStack _ (kept_onEng _ h)) fun _ => kept_onEng _ h

theorem kept_burstFailed (k ch : Nat) (write : Bool) (attempt : Nat) (read : Option Nat) (h : Kept P A s t) :
    Kept P A s (burstFailed k ch write attempt read t) :=
  kept_ite _ (fun _ => kept_onEng _ h) fun _ =>
    kept_ite _ (fun _ => kept_failStack _ (kept_onEng _ h)) fun _ => kept_readFailed _ _ (kept_onEng _ (kept_onEng _ h))

theorem kept_opBurstParity (k ch : Nat) (write : Bool) (x : Struck) (h : Kept P A s t) : Kept P A s (opBurstParity k ch write x t) := by
  cases x with
  | burst attempt read => exact kept_ite _ (fun _ => h) fun _ => kept_burstFailed _ _ _ _ _ h
  | site | lane | staged | token => exact kept_ite _ (fun _ => h) fun _ => kept_onEng _ h

theorem kept_levelEvent (l : Nat) (h : Kept P A s t) : Kept P A s (levelEvent l t) := by
  unfold levelEvent
  split
  · exact kept_onEng _ h
  · exact h

theorem kept_setLevel {l : Nat} (hl : l ≤ 2) (h : Kept P A s t) : Kept P A s (setLevel l t) :=
  kept_levelEvent l (h.trans { legal := fun k => { k with level := hl } })

theorem kept_trip (kind index : Nat) (h : Kept P A s t) : Kept P A s (trip kind index t) :=
  kept_ite _ (fun _ => h) fun _ => h.trans { legal := fun l => { l with }, trip := fun _ _ => rfl }

theorem kept_markCool (h : Kept P A s t) : Kept P A s (markCool t) := h.trans (kept_of_vitals rfl)

theorem levelOf_le (pw : Power) (kind t : Nat) : levelOf pw kind t ≤ 3 := by
  unfold levelOf
  split
  · omega
  · split
    · omega
    · split <;> omega

theorem kept_judge (h : Kept P A s t) : Kept P A s (judge t) := by
  have hm := kept_markCool h
  unfold judge
  dsimp only
  generalize markCool t = u at hm ⊢
  split
  case h_1 => exact hm
  case h_2 kind i temp _ =>
    refine kept_ite _ (fun _ => kept_trip _ _ (kept_levelEvent _ hm)) fun hne => ?_
    have hl : levelOf u.pw kind temp ≤ 2 := by have := levelOf_le u.pw kind temp; omega
    refine kept_ite _ (fun _ => kept_setLevel hl (kept_ite _ (fun _ => kept_onEng _ hm) fun _ => hm)) fun _ => ?_
    refine kept_ite _ (fun _ => kept_ite _ (fun _ => kept_setLevel (Nat.le_succ 1) hm) fun _ => hm) fun _ => ?_
    exact kept_ite _ (fun _ => kept_ite _ (fun _ => kept_setLevel (Nat.zero_le 2) hm) fun _ => hm) fun _ => hm

theorem kept_opThermalSample (kind : Part) (temps : List Nat) (h : Kept P A s t) : Kept P A s (opThermalSample kind temps t) :=
  kept_ite _ (fun _ => h) fun _ => kept_judge (h.trans (kept_of_vitals rfl))

theorem kept_opStackTemp (temps : List Nat) (h : Kept P A s t) : Kept P A s (opStackTemp temps t) :=
  kept_ite _ (fun _ => h) fun _ => kept_judge (kept_onEng _ h)

theorem kept_opCatastrophic (k : Nat) (h : Kept P A s t) : Kept P A s (opCatastrophic k t) :=
  kept_ite _ (fun _ => h) fun _ => kept_trip 3 k h

/-- What a table lists after an entry is set. -/
theorem mem_tabSet {α : Type} {m : Tab α} {k : Nat} {a : α} {p : Nat × α} (h : p ∈ Tab.set m k a) : p = (k, a) ∨ p ∈ m := by
  induction m with
  | nil => exact .inl (List.mem_singleton.mp h)
  | cons c m ih =>
    rw [Tab.set] at h
    split at h
    · exact (List.mem_cons.mp h).imp_right (List.mem_cons_of_mem _)
    · split at h
      · exact List.mem_cons.mp h
      · rcases List.mem_cons.mp h with rfl | h
        · exact .inr List.mem_cons_self
        · exact (ih h).imp_right (List.mem_cons_of_mem _)

/-- A value of a table is its default or one it lists. -/
theorem tabGet_cases {α : Type} (d : α) (m : Tab α) (k : Nat) : Tab.get d m k = d ∨ ∃ j, (j, Tab.get d m k) ∈ m := by
  induction m with
  | nil => exact .inl rfl
  | cons c m ih =>
    rw [Tab.get]
    split
    · exact .inr ⟨_, List.mem_cons_self⟩
    · split
      · exact .inl rfl
      · exact ih.imp_right fun ⟨j, hj⟩ => ⟨j, List.mem_cons_of_mem _ hj⟩

/-- Issue fractions that Caution has stepped down stay within R507. -/
theorem issue_stepped {issue : Tab Nat} (h : ∀ p ∈ issue, 8 ≤ p.2 ∧ p.2 ≤ 16) (ds : List Nat) :
    ∀ p ∈ ds.foldl (fun t d => Tab.set t d (max 8 (Tab.get 16 t d - 1))) issue, 8 ≤ p.2 ∧ p.2 ≤ 16 := by
  induction ds generalizing issue with
  | nil => exact h
  | cons d ds ih =>
    refine ih fun p hp => ?_
    rcases mem_tabSet hp with rfl | hp
    · rcases tabGet_cases 16 issue d with hd | ⟨j, hj⟩
      · dsimp only
        omega
      · have := h _ hj
        dsimp only at this ⊢
        omega
    · exact h p hp

theorem kept_opCautionStep (h : Kept P A s t) : Kept P A s (opCautionStep t) := by
  unfold opCautionStep
  refine kept_ite _ (fun _ => h) fun _ => kept_ite _ (fun _ => ?_) fun _ => ?_
  · refine h.trans { legal := fun l => { l with arith := ?_, issue := issue_stepped l.issue _ } }
    have := l.arith
    dsimp only
    split <;> omega
  · refine h.trans { legal := fun l => { l with arith := Nat.le_trans (Nat.sub_le _ 1) l.arith, issue := ?_ } }
    intro p hp
    obtain ⟨q, hq, rfl⟩ := List.mem_map.mp (List.mem_filter.mp hp).1
    have := l.issue q hq
    dsimp only
    omega

/-! ## Clamps, the cap, dusk, references -/

theorem kept_opClamp (kind : Part) (d : Nat) (h : Kept P A s t) : Kept P A s (opClamp kind d t) :=
  kept_ite _ (fun _ => h) fun _ => h.trans (kept_of_vitals rfl)

theorem kept_opClampRelease (kind : Part) (d : Nat) (h : Kept P A s t) : Kept P A s (opClampRelease kind d t) := h.trans (kept_of_vitals rfl)

theorem nextWindow_eq (pw : Power) :
    ∃ w ms c, nextWindow pw = { pw with capWatts := w, capWindow := ms, newCap := c, winPos := 0, raised := false } := by
  unfold nextWindow
  split
  · exact ⟨_, _, none, rfl⟩
  · exact ⟨_, _, _, rfl⟩

theorem stepFraction_bounds {pw : Power} (h : 1 ≤ pw.capIssue ∧ pw.capIssue ≤ 16) (want : Nat) :
    1 ≤ stepFraction pw want ∧ stepFraction pw want ≤ 16 := by
  unfold stepFraction
  dsimp only
  split
  · split <;> omega
  · omega

/-- The power of an interval is averaged, and a window that ends gives way to the next: neither is a vital. -/
theorem vitals_window (pw : Power) (x : List Nat) (t : State) (h : pw = t.pw) :
    let p : Power := { pw with samples := x, winPos := pw.winPos + 1 }
    ∀ e, vitals { t with eng := e, pw := if p.capWindow ≤ p.winPos then nextWindow p else p } = vitals t := by
  subst h
  intro p e
  obtain ⟨_, _, _, hw⟩ := nextWindow_eq p
  rw [hw]
  split <;> rfl

theorem kept_opCapTick (watts want : Nat) (h : Kept P A s t) : Kept P A s (opCapTick watts want t) := by
  unfold opCapTick
  dsimp only
  have hw : Kept P A s _ := h.trans (kept_of_vitals (vitals_window t.pw ((watts :: t.pw.samples).take t.pw.capWindow) t rfl
    (counts [(Ctr.pwEnergyUj, 1000 * watts), (Ctr.ctJobEnergyUj, 1000 * watts),
      (Ctr.pwCautionMs, if 1 ≤ t.pw.level then 1 else 0), (Ctr.pwCapThrottleMs, if t.pw.capActive then 1 else 0)] t.eng)))
  dsimp only at hw
  generalize counts _ t.eng = e at hw ⊢
  generalize (if (_ : Nat) ≤ _ then (_ : Power) else _) = pw at hw ⊢
  refine kept_ite _ (fun _ => hw) fun _ => ?_
  have hi : Kept P A s { t with eng := e, pw := { pw with
      capIssue := stepFraction pw want, raised := pw.raised || decide (pw.capIssue < stepFraction pw want)
      capActive := decide (stepFraction pw want < 16) } } :=
    hw.trans { legal := fun l => { l with cap := stepFraction_bounds l.cap want } }
  exact kept_ite _ (fun _ => hi) fun _ => kept_onEng _ hi

theorem kept_askCap (watts ms : Nat) (h : Kept P A s t) : Kept P A s (askCap watts ms t) := h.trans (kept_of_vitals rfl)

theorem kept_opDusk (d : Nat) (h : Kept P A s t) : Kept P A s (opDusk d t) := kept_ite _ (fun _ => h) fun _ => h.trans (kept_of_vitals rfl)

theorem kept_opDuskWake (d : Nat) (h : Kept P A s t) : Kept P A s (opDuskWake d t) := h.trans (kept_of_vitals rfl)

theorem kept_opRefLost (r : Ref) (h : Kept P A s t) : Kept P A s (opRefLost r t) := by
  refine kept_ite _ (fun _ => h) fun _ => ?_
  cases r with
  | core => exact kept_askReset (.inr rfl) _ _ _ (kept_onEng _ (h.trans (kept_of_vitals rfl)))
  | serdes | hostLink => exact kept_onEng _ (kept_onEng _ (h.trans (kept_of_vitals rfl)))
  | alwaysOn => exact kept_onEng _ (h.trans (kept_of_vitals rfl))

theorem kept_opRefReturn (r : Ref) (h : Kept P A s t) : Kept P A s (opRefReturn r t) :=
  kept_ite _ (fun _ => h) fun _ => kept_ite _ (fun _ => h.trans (kept_of_vitals rfl)) fun _ => h.trans (kept_of_vitals rfl)

theorem kept_opQuarantineEnd (d : Domain) (h : Kept P A s t) : Kept P A s (opQuarantineEnd d t) := kept_eng _ h

theorem kept_opDynAddr (a : BitVec 7) (h : Kept P A s t) : Kept P A s (opDynAddr a t) := kept_ite _ (fun _ => h) fun _ => h.trans (kept_of_vitals rfl)

/-! ## Pins that reset -/

theorem kept_opResetPin (h : Kept P A s t) : Kept P A s (opResetPin t) := by
  have hr (c : Prop) [Decidable c] (code : Word) : Kept P A s (if c then t else startRung 4 code t) :=
    kept_ite _ (fun _ => h) fun _ => kept_startRung (.inr (.inr rfl)) _ h
  exact (hr _ _).trans (kept_of_vitals rfl)

theorem kept_opPowerFall (hP : P) (h : Kept P A s t) : Kept P A s (opPowerFall t) := by
  refine kept_ite _ (fun _ => h.trans (kept_of_vitals rfl)) fun _ => ?_
  have hr (c : Prop) [Decidable c] (code : Word) : Kept P A s (if c then t else startRung 4 code t) :=
    kept_ite _ (fun _ => h) fun _ => kept_startRung (.inr (.inr rfl)) _ h
  exact (hr _ _).trans { legal := fun l => { l with }, trip := fun hn => absurd hP hn }

theorem kept_opPowerOn (hP : P) (h : Kept P A s t) : Kept P A s (opPowerOn t) := by
  refine (kept_coldDrop (causeCode 4 board Reason.powerOn) h).trans { legal := fun l => ?_, trip := fun hn => absurd hP hn }
  exact { l with state := .inl rfl, goal := nofun, level := Nat.zero_le 2, arith := Nat.zero_le 2
                 cap := ⟨Nat.le_of_ble_eq_true rfl, Nat.le_refl 16⟩, issue := nofun }

/-! ## Nightfall and dark -/

theorem kept_groupsOff (v : Nat) (h : Kept P A s t) : Kept P A s (groupsOff v t) := h.trans (kept_of_vitals rfl)

theorem kept_enterNight (h : Kept P A s t) : Kept P A s (enterNight t) :=
  h.trans { legal := fun l => { l with state := .inr (.inl rfl) }, debug := fun _ _ => rfl }

theorem kept_enterDark (h : Kept P A s t) : Kept P A s (enterDark t) :=
  h.trans { legal := fun l => { l with state := .inr (.inr rfl), level := Nat.zero_le 2 }, debug := fun _ _ => rfl }

theorem kept_enterLow (target : Nat) (h : Kept P A s t) : Kept P A s (enterLow target t) := by
  have hn : Kept P A s (if t.pw.state = 0 then
      enterNight { t with eng := { goDown true false t.eng with rg := { (goDown true false t.eng).rg with rejoin := false } } } else t) :=
    kept_ite _ (fun _ => kept_enterNight (kept_eng _ h)) fun _ => h
  exact kept_ite _ (fun _ => kept_enterDark hn) fun _ => hn

theorem kept_leaveNight (h : Kept P A s t) : Kept P A s (leaveNight t) := by
  have ht := kept_trainStacks (kept_toA0 (kept_eng (rebuildAll { dropSessions (nextGen t).fw.genRecord (nextGen t).eng with
    stopped := (nextGen t).fw.oos }) (kept_nextGen h)))
  exact kept_ite _ (fun _ => ht) fun _ => kept_onEng _ ht

theorem kept_leaveDark (h : Kept P A s t) : Kept P A s (leaveDark t) := by
  unfold leaveDark
  dsimp only
  have hg : Kept P A s { nextGen t with
      eng := { (nextGen t).eng with fb := { (nextGen t).eng.fb with gen := (nextGen t).fw.genRecord } }
      pw := { (nextGen t).pw with pwrGood := true } } := (kept_nextGen h).trans (kept_of_vitals rfl)
  split
  · exact kept_toA0 (kept_outOfService _ _ hg)
  · next hp =>
    have hr := kept_toA0 (kept_runLogic (kept_pickBank hg hp))
    exact kept_ite _ (fun _ => hr) fun _ => kept_onEng _ hr

/-! ## Registers -/

theorem kept_pwWrite (p : Path) (r v : Nat) (h : Kept P A s t) : Kept P A s (pwWrite p r v t) := by
  refine kept_ite _ (fun _ => kept_onEng _ h) fun _ => kept_ite _ (fun _ => h) fun _ => ?_
  split
  · exact h.trans (kept_of_vitals rfl)
  · exact kept_askCap _ _ h
  · exact kept_groupsOff _ h
  · exact h

theorem kept_ckWrite (r v : Nat) (h : Kept P A s t) : Kept P A s (ckWrite r v t) := kept_ite _ (fun _ => h.trans (kept_of_vitals rfl)) fun _ => h

theorem kept_controlWrite (p : Path) (blk r v : Nat) (h : Kept P A s t) : Kept P A s (controlWrite p blk r v t) := by
  unfold controlWrite
  split
  case h_16 => exact kept_pwWrite p r v h
  case h_17 => exact kept_ckWrite r v h
  case h_18 => exact h
  case h_2 | h_8 | h_10 => exact kept_ite _ (fun _ => kept_onEng _ h) fun _ => h
  all_goals exact kept_onEng _ h

theorem kept_regWrite (p : Path) (off v : Nat) (h : Kept P A s t) : Kept P A s (regWrite p off v t) :=
  kept_ite _ (fun _ => h) fun _ => kept_ite _ (fun _ => kept_onEng _ h) fun _ => kept_controlWrite _ _ _ _ h

/-- A read changes the data path at most: latches, and a queue's pop (R535). -/
theorem regRead_onlyEng (p : Path) (off : Nat) (s : State) : (regRead p off s).2 = { s with eng := (regRead p off s).2.eng } := by
  unfold regRead controlRead
  split
  · rfl
  · split
    case h_15 => split <;> rfl
    all_goals rfl

theorem kept_regRead (p : Path) (off : Nat) (h : Kept P A s t) : Kept P A s (regRead p off t).2 := by
  rw [regRead_onlyEng]
  exact kept_eng _ h

theorem kept_readRegs (n off : Nat) (h : Kept P A s t) : Kept P A s (readRegs n off t).2 := by
  induction n generalizing off t with
  | zero => exact h
  | succ n ih => exact ih (off + 4) (kept_regRead _ off h)

end
end Sys2Proof.Machine

/-! SUPPORT. What Nightwatch, packets and settling keep of the always-on state, and the obligations that rest on it. -/

namespace Sys2Proof.Machine

section
variable {P : Prop} {A : Instr → Prop} {s t u : State}

/-! ## Nightwatch -/

theorem kept_nwReply (msg tag status : Nat) (body : List Byte) (h : Kept P A s t) : Kept P A s (nwReply msg tag status body t) :=
  h.trans (kept_of_vitals rfl)

theorem kept_nwRegRead (tag off n : Nat) (h : Kept P A s t) : Kept P A s (nwRegRead tag off n t) :=
  kept_ite _ (fun _ => kept_nwReply _ _ _ _ h) fun _ => kept_nwReply _ _ _ _ (kept_readRegs n off h)

theorem kept_nwRegWrite (tag off : Nat) (v : Word) (h : Kept P A s t) : Kept P A s (nwRegWrite tag off v t) :=
  kept_ite _ (fun _ => kept_nwReply _ _ _ _ h) fun _ =>
    kept_ite _ (fun _ => kept_nwReply _ _ _ _ h) fun _ => kept_nwReply _ _ _ _ (kept_regWrite _ _ _ h)

theorem kept_nwCountersClear (tag scope : Nat) (h : Kept P A s t) : Kept P A s (nwCountersClear tag scope t) := by
  unfold nwCountersClear
  split
  · exact kept_nwReply _ _ _ _ (kept_onEng _ h)
  · exact kept_nwReply _ _ _ _ (kept_onEng _ h)
  · exact kept_nwReply _ _ _ _ h

theorem kept_nwEventRead (tag n : Nat) (h : Kept P A s t) : Kept P A s (nwEventRead tag n t) :=
  kept_ite _ (fun _ => kept_nwReply _ _ _ _ h) fun _ => kept_nwReply _ _ _ _ (kept_onEng _ h)

theorem kept_nwPowerCap (tag watts ms : Nat) (h : Kept P A s t) : Kept P A s (nwPowerCap tag watts ms t) :=
  kept_nwReply _ _ _ _ (kept_askCap watts ms h)

theorem kept_nwPowerLow {target : Nat} (ht : target = 2 ∨ target = 3) (tag : Nat) (force : Bool) (h : Kept P A s t) :
    Kept P A s (nwPowerLow tag target force t) := by
  have hr (st : Nat) (b : List Byte) : Kept P A s (nwReply 0x31 tag st b t) := kept_nwReply _ _ _ _ h
  refine kept_ite _ (fun _ => hr _ _) fun _ => kept_ite _ (fun _ => hr _ _) fun _ => kept_ite _ (fun _ => hr _ _) fun _ =>
    kept_ite _ (fun _ => hr _ _) fun _ => kept_ite _ (fun _ => hr _ _) fun _ => h.trans { legal := fun l => { l with goal := ?_ } }
  intro g hg
  cases hg
  exact ht

theorem kept_reachGoal (h : Kept P A s t) : Kept P A s (reachGoal t) := by
  unfold reachGoal
  split
  · exact kept_ite _ (fun _ => kept_nwReply _ _ _ _ (kept_enterLow _ (kept_noGoal h))) fun _ => h
  · exact h

theorem kept_nwPowerUp (tag : Nat) (h : Kept P A s t) : Kept P A s (nwPowerUp tag t) := by
  refine kept_ite _ (fun _ => kept_nwReply _ _ _ _ h) fun _ => kept_nwReply _ _ _ _ ?_
  split
  · exact kept_leaveNight h
  · exact kept_leaveDark h
  · exact h

theorem kept_nwResetMsg (tag rung : Nat) (h : Kept P A s t) : Kept P A s (nwResetMsg tag rung t) := by
  refine kept_ite _ (fun _ => kept_nwReply _ _ _ _ h) fun hr => kept_ite _ (fun _ => kept_nwReply _ _ _ _ h) fun _ => ?_
  exact kept_startRung (by omega) _ (kept_nwReply _ _ _ _ h)

theorem kept_nwStackFail (tag k : Nat) (h : Kept P A s t) : Kept P A s (nwStackFail tag k t) :=
  kept_ite _ (fun _ => kept_nwReply _ _ _ _ h) fun _ => kept_nwReply _ _ _ _ (kept_failStack k h)

theorem kept_nwReturn (tag : Nat) (hA : ∃ n, A (.returnToService n)) (h : Kept P A s t) : Kept P A s (nwReturn tag t) := by
  have hr : Kept P A s { t with fw := { t.fw with oosRecord := none, oos := false, oosReset := false } } :=
    h.trans { legal := fun l => { l with }, oos := fun hn => absurd hA.choose_spec (hn _) }
  have hl := kept_runLogic hr
  unfold nwReturn
  refine kept_ite _ (fun _ => kept_nwReply _ _ _ _ h) fun _ => kept_nwReply _ _ _ _ ?_
  dsimp only
  generalize runLogic _ = v at hl ⊢
  exact kept_ite _ (fun _ => hl) fun _ => kept_onEng _ (hl.trans (kept_of_vitals rfl))

theorem kept_nwDebug (tag : Nat) (on : Bool) (hA : ∃ n, A (.debugMode n on)) (h : Kept P A s t) : Kept P A s (nwDebug tag on t) := by
  refine kept_nwReply _ _ _ _ (h.trans { legal := fun l => { l with }, debug := fun hn _ => ?_ })
  cases on with
  | false => rfl
  | true => exact absurd hA.choose_spec (hn _)

theorem kept_nwJobClear (tag : Nat) (agrees : Bool) (h : Kept P A s t) : Kept P A s (nwJobClear tag agrees t) := by
  refine kept_ite _ (fun _ => kept_nwReply _ _ _ _ h) fun _ => kept_ite _ (fun _ => kept_ite _ (fun _ => ?_) fun _ => ?_) fun _ => ?_
  · exact kept_nwReply _ _ _ _ (kept_onEng _ (kept_onEng _ h))
  · exact kept_nwReply _ _ _ _ (kept_onEng _ h)
  · exact kept_nwReply _ _ _ _ (kept_onEng _ h)

/-! ## The flash and activation over Nightwatch -/

/-- The flash in canonical form, and every other part of the firmware as it was. -/
structure Reflashed (f g : Firmware) : Prop where
  wf : Memory.wf 0xFF f.flash = true → Memory.wf 0xFF g.flash = true
  same : g = { f with flash := g.flash }

theorem reflashed_erases (l : List Nat) (base : Nat) (fw : Firmware) :
    Reflashed fw (l.foldl (fun fw k => flashErase (4096 * (base + k)) fw) fw) := by
  induction l generalizing fw with
  | nil => exact ⟨id, rfl⟩
  | cons k l ih =>
    obtain ⟨hwf, hsame⟩ := ih (flashErase (4096 * (base + k)) fw)
    exact ⟨fun h => hwf (memory_wf_filter _ h), hsame⟩

theorem reflashed_programFlash (a : Nat) (bs : List Byte) (fw : Firmware) : Reflashed fw (programFlash a bs fw) := by
  obtain ⟨hwf, hsame⟩ := reflashed_erases (List.range (ceilDiv (a + bs.length) 4096 - ceilDiv a 4096)) (ceilDiv a 4096) fw
  unfold programFlash
  dsimp only
  generalize List.foldl _ fw _ = g at hwf hsame ⊢
  exact ⟨fun h => memPut_wf a bs (hwf h), by rw [hsame]; rfl⟩

theorem kept_nwFlashWrite (tag region off : Nat) (bs : List Byte) (h : Kept P A s t) : Kept P A s (nwFlashWrite tag region off bs t) := by
  have hr (st : Nat) : Kept P A s (nwReply 0x40 tag st [] t) := kept_nwReply _ _ _ _ h
  unfold nwFlashWrite
  split
  case h_1 => exact hr _
  case h_2 base size _ =>
    refine kept_ite _ (fun _ => hr _) fun _ => kept_ite _ (fun _ => hr _) fun _ => kept_ite _ (fun _ => hr _) fun _ => kept_nwReply _ _ _ _ ?_
    obtain ⟨hwf, hsame⟩ := reflashed_programFlash (base + off) bs t.fw
    generalize programFlash (base + off) bs t.fw = g at hwf hsame ⊢
    rw [hsame]
    split
    · exact h.trans { legal := fun l => { l with flash := hwf l.flash } }
    · exact h.trans { legal := fun l => { l with flash := hwf l.flash } }

theorem kept_nwFlashRead (tag region off n : Nat) (h : Kept P A s t) : Kept P A s (nwFlashRead tag region off n t) := by
  unfold nwFlashRead
  split
  · exact kept_nwReply _ _ _ _ h
  · exact kept_ite _ (fun _ => kept_nwReply _ _ _ _ h) fun _ => kept_nwReply _ _ _ _ h

theorem kept_nwImageVerify (tag b : Nat) (h : Kept P A s t) : Kept P A s (nwImageVerify tag b t) :=
  kept_ite _ (fun _ => kept_nwReply _ _ _ _ h) fun _ => kept_ite _ (fun _ => kept_nwReply _ _ _ _ h) fun _ => kept_nwReply _ _ _ _ h

theorem kept_nwActivate (tag : Nat) (h : Kept P A s t) : Kept P A s (nwActivate tag t) := by
  have hr (st : Nat) : Kept P A s (nwReply 0x43 tag st [] t) := kept_nwReply _ _ _ _ h
  have ha : Kept P A s (nwReply 0x43 tag 0 []
      { t with fw := { t.fw with actPending := true, deferred := emergency t, actNext := 0, rollback := none } }) :=
    kept_nwReply _ _ _ _ (h.trans (kept_of_vitals rfl))
  refine kept_ite _ (fun _ => hr _) fun _ => kept_ite _ (fun _ => hr _) fun _ => kept_ite _ (fun _ => hr _) fun _ => ?_
  exact kept_ite _ (fun _ => kept_activationEvent _ _ _ ha) fun _ => ha

theorem kept_nwCommit (tag : Nat) (h : Kept P A s t) : Kept P A s (nwCommit tag t) :=
  kept_ite _ (fun _ => kept_nwReply _ _ _ _ h) fun _ => kept_nwReply _ _ _ _ (h.trans (kept_of_vitals rfl))

/-! ## Standard protocols -/

theorem kept_rawReply (p r v : Nat) (h : Kept P A s t) : Kept P A s (rawReply p r v t) := h.trans (kept_of_vitals rfl)

theorem kept_mctpAnswer (c : MctpCommand) (h : Kept P A s t) : Kept P A s (mctpAnswer c t) := by
  cases c with
  | setEndpointId eid => exact kept_rawReply _ _ _ (h.trans (kept_of_vitals rfl))
  | _ => exact kept_rawReply _ _ _ h

theorem kept_spdmAnswer (r : SpdmRequest) (h : Kept P A s t) : Kept P A s (spdmAnswer r t) := by
  cases r <;> exact kept_rawReply _ _ _ (kept_onEng _ h)

theorem kept_pldmAnswer (r : PldmRequest) (h : Kept P A s t) : Kept P A s (pldmAnswer r t) := by
  cases r <;> exact kept_rawReply _ _ _ (kept_onEng _ h)

/-! ## Requests in arrival order -/

theorem kept_nwBody {i : Instr} (hi : A i) (h : Kept P A s t) : Kept P A s (nwBody i t) := by
  cases i with
  | nwHello | jobCounters | lodestar | nwStatus | oosRecord => exact kept_nwReply _ _ _ _ h
  | regRead => exact kept_nwRegRead _ _ _ h
  | regWrite => exact kept_nwRegWrite _ _ _ h
  | countersClear => exact kept_nwCountersClear _ _ h
  | eventRead => exact kept_nwEventRead _ _ h
  | setPowerCap => exact kept_nwPowerCap _ _ _ h
  | setPowerStateA2 => exact kept_nwPowerLow (.inl rfl) _ _ h
  | setPowerStateA3 => exact kept_nwPowerLow (.inr rfl) _ _ h
  | setPowerStateA0 => exact kept_nwPowerUp _ h
  | nwReset => exact kept_nwResetMsg _ _ h
  | stackFail => exact kept_nwStackFail _ _ h
  | returnToService => exact kept_nwReturn _ ⟨_, hi⟩ h
  | debugMode => exact kept_nwDebug _ _ ⟨_, hi⟩ h
  | jobClear => exact kept_nwJobClear _ _ h
  | flashWrite => exact kept_nwFlashWrite _ _ _ _ h
  | flashRead => exact kept_nwFlashRead _ _ _ _ h
  | imageVerify => exact kept_nwImageVerify _ _ h
  | activate => exact kept_nwActivate _ h
  | commit => exact kept_nwCommit _ h
  | mctpControlMessage => exact kept_mctpAnswer _ h
  | spdmRequest => exact kept_spdmAnswer _ h
  | pldmRequest => exact kept_pldmAnswer _ h
  | _ => exact h

theorem kept_nwRun {i : Instr} (hi : A i) (h : Kept P A s t) : Kept P A s (nwRun i t) := by
  unfold nwRun
  split
  · exact kept_ite _ (fun _ => kept_nwReply _ _ _ _ h) fun _ => kept_ite _ (fun _ => kept_nwReply _ _ _ _ h) fun _ => kept_nwBody hi h
  · exact kept_nwBody hi h

theorem kept_nwHold {i : Instr} (hi : A i) (h : Kept P A s t) : Kept P A s (nwHold i t) := by
  refine kept_ite _ (fun hlen => h.trans { legal := fun l => { l with held := ?_ }, held := fun j hj => ?_ }) fun _ => h
  · rw [List.length_append]
    exact hlen
  · rcases List.mem_append.mp hj with hj | hj
    · exact .inl hj
    · rw [List.mem_singleton.mp hj]
      exact .inr hi

theorem kept_nwAsk {i : Instr} (hi : A i) (h : Kept P A s t) : Kept P A s (nwAsk i t) := by
  refine kept_ite _ (fun _ => h) fun _ => kept_ite _ (fun _ => kept_nwHold hi h) fun _ => kept_ite _ (fun _ => ?_) fun _ => kept_nwRun hi h
  split
  · exact kept_nwReply _ _ _ _ h
  · exact kept_nwHold hi h

/-- The first request held is taken from the queue. -/
theorem kept_unhold {i : Instr} {l : List Instr} (hl : t.nw.held = i :: l) (h : Kept P A s t) :
    Kept P A s { t with nw := { t.nw with held := l } } := by
  refine h.trans { legal := fun k => { k with held := ?_ }, held := fun j hj => .inl ?_ }
  · have := k.held
    rw [hl, List.length_cons] at this
    exact Nat.le_of_succ_le this
  · rw [hl]
    exact List.mem_cons_of_mem _ hj

/-- Requests held are of `A`, and so is what answering them does. -/
theorem kept_nwDrain (n : Nat) (hs : ∀ j ∈ s.nw.held, A j) (h : Kept P A s t) : Kept P A s (nwDrain n t) := by
  induction n generalizing t with
  | zero => exact h
  | succ n ih =>
    unfold nwDrain
    split
    case h_1 => exact h
    case h_2 i l hl =>
      have hi : A i := h.asked hs i (hl ▸ List.mem_cons_self)
      exact kept_ite _ (fun _ => ih (kept_nwRun hi (kept_unhold hl h))) fun _ => h

/-! ## Settling, packets and frames -/

theorem kept_serveMailbox (h : Kept P A s t) : Kept P A s (serveMailbox t) := kept_ite _ (fun _ => kept_onEng _ h) fun _ => h

theorem kept_noteBuild (h : Kept P A s t) : Kept P A s (noteBuild t) := kept_ite _ (fun _ => h) fun _ => h.trans (kept_of_vitals rfl)

theorem kept_settle (hs : ∀ j ∈ s.nw.held, A j) (h : Kept P A s t) : Kept P A s (settle t) :=
  kept_noteBuild (kept_serveMailbox (kept_nwDrain 4 hs (kept_activateIfDue (kept_raiseDue (kept_reachGoal (kept_onEng _ h))))))

theorem kept_deliverPkt (p : PktHdr) (b : Body) (h : Kept P A s t) : Kept P A s (deliverPkt p b t) := kept_ite _ (fun _ => h) fun _ => kept_onEng _ h

theorem kept_deliverBuffered (n src : Nat) (h : Kept P A s t) : Kept P A s (deliverBuffered n src t) := by
  induction n generalizing t with
  | zero => exact h
  | succ n ih =>
    unfold deliverBuffered
    dsimp only
    split
    · exact h
    · exact ih (kept_deliverPkt _ _ (kept_onEng _ h))

theorem kept_sequencePacket (p : Packet) (h : Kept P A s t) : Kept P A s (sequencePacket p t) :=
  kept_ite _ (fun _ => kept_deliverBuffered _ _ (kept_deliverPkt _ _ h)) fun _ => kept_ite _ (fun _ => kept_onEng _ h) fun _ =>
    kept_ite _ (fun _ => kept_onEng _ h) fun _ => kept_onEng _ h

theorem kept_framePacket (p : Packet) (h : Kept P A s t) : Kept P A s (framePacket p t) :=
  kept_ite _ (fun _ => kept_onEng _ h) fun _ => kept_ite _ (fun _ => kept_onEng _ h) fun _ =>
    kept_ite _ (fun _ => kept_deliverPkt _ _ h) fun _ => kept_sequencePacket p h

theorem kept_packetIn (b : List Byte) (h : Kept P A s t) : Kept P A s (packetIn b t) := by
  refine kept_ite _ (fun _ => kept_onEng _ h) fun _ => ?_
  split
  · exact kept_framePacket _ h
  · exact h

theorem kept_opEthernetFrame (l : Nat) (f : List Byte) (h : Kept P A s t) : Kept P A s (opEthernetFrame l f t) := by
  refine kept_ite _ (fun _ => h) fun _ => ?_
  split
  · exact kept_onEng _ h
  · exact kept_packetIn _ h

theorem kept_linkPacket (b : List Byte) (h : Kept P A s t) : Kept P A s (linkPacket b t) :=
  kept_ite _ (fun _ => kept_packetIn b h) fun _ => kept_onEng _ h

theorem kept_opLinkFrame (l : Nat) (f : List Byte) (h : Kept P A s t) : Kept P A s (opLinkFrame l f t) := by
  refine kept_ite _ (fun _ => h) fun _ => kept_ite _ (fun _ => kept_onEng _ h) fun _ => ?_
  dsimp only
  split
  · exact kept_ite _ (fun _ => kept_linkPacket _ (kept_onEng _ h)) fun _ => kept_ite _ (fun _ => kept_onEng _ h) fun _ => h
  · exact kept_onEng _ h
  · exact h

theorem kept_opLinkChange (l : Nat) (up : Bool) (h : Kept P A s t) : Kept P A s (opLinkChange l up t) :=
  kept_ite _ (fun _ => h) fun _ => kept_ite _ (fun _ => kept_ite _ (fun _ => h) fun _ => kept_onEng _ h) fun _ =>
    kept_ite _ (fun _ => kept_onEng _ h) fun _ => kept_ite _ (fun _ => h) fun _ => kept_onEng _ h

/-! ## The aperture and the mailbox -/

theorem kept_ringMailbox (h : Kept P A s t) : Kept P A s (ringMailbox t) := kept_ite _ (fun _ => kept_onEng _ h) fun _ => kept_onEng _ h

theorem kept_mbMessage (ty tag : Nat) (body : List Byte) {op : State → State} (hop : ∀ t, Kept P A t (op t)) (h : Kept P A s t) :
    Kept P A s (mbMessage ty tag body op t) :=
  kept_ite _ (fun _ => (kept_onEng _ h).trans (hop _)) fun _ => kept_onEng _ (kept_onEng _ h)

theorem kept_pageDoorbell (k : Nat) (v : Word) (h : Kept P A s t) : Kept P A s (pageDoorbell k v t) :=
  kept_ite _ (fun _ => kept_onEng _ h) fun _ => kept_ite _ (fun _ => kept_onEng _ h) fun _ => kept_ite _ (fun _ => kept_onEng _ h) fun _ =>
    kept_ite _ (fun _ => kept_ringMailbox h) fun _ => kept_ite _ (fun _ => kept_onEng _ h) fun _ => h

theorem kept_apertureWrite (off : Nat) (v : Word) (h : Kept P A s t) : Kept P A s (apertureWrite off v t) :=
  kept_ite _ (fun _ => kept_regWrite _ _ _ h) fun _ =>
    kept_ite _ (fun _ => kept_ite _ (fun _ => kept_pageDoorbell _ _ h) fun _ => h) fun _ => kept_ite _ (fun _ => kept_onEng _ h) fun _ => h

theorem kept_keepRead (v : Nat) (h : Kept P A s t) : Kept P A s (keepRead v t) := h.trans (kept_of_vitals rfl)

theorem kept_apertureRead (off : Nat) (h : Kept P A s t) : Kept P A s (apertureRead off t) :=
  kept_ite _ (fun _ => kept_keepRead _ (kept_regRead _ _ h)) fun _ => kept_ite _ (fun _ => kept_onEng _ h) fun _ => kept_keepRead _ h

end
end Sys2Proof.Machine

/-! SUPPORT. Every command that reaches no undefined access completes and keeps the always-on state, and what rests on it. -/

namespace Sys2Proof.Machine

/-! ## How a row completes -/

/-- The outcome is a next state with the same commands waiting, and what is kept is kept. -/
def Completes (P : Prop) (A : Instr → Prop) (s : State) (o : Host.Outcome State Fault Refusal) : Prop :=
  ∃ t, o = .next t ∧ t.pending = s.pending ∧ Kept P A s t

/-- The commands by which THERMTRIP_N falls (R504). -/
def PowerFalls (i : Instr) : Prop := i = .pwrGoodFall ∨ i = .powerOn

/-- The requests a command can answer: itself, and those held before it. -/
def Asked (i : Instr) (s : State) (j : Instr) : Prop := j = i ∨ j ∈ s.nw.held

theorem apertureRead_pending (off : Nat) (s : State) : (apertureRead off s).pending = s.pending := by
  unfold apertureRead
  split
  · simp
  · split
    · rfl
    · simp

/-- A load through the dormer window that is naturally aligned (R338). -/
def loadWindow (x n : Nat) (s : State) : State := keepBytes (windowRead x n s.eng).1 { s with eng := (windowRead x n s.eng).2 }

theorem dormerLoad_ok {x n : Nat} {s : State} (h : windowOk x n = true) : dormerLoad x n s = ioRow (loadWindow x n) s := by
  rw [dormerLoad, h]
  rfl

/-- The outcome of a row that acts while the I/O die runs, and changes nothing otherwise. -/
def Gated (P : Prop) (A : Instr → Prop) (s : State) (o : Host.Outcome State Fault Refusal) : Prop :=
  ∃ (c : Bool) (t : State), o = .next (if c then settle t else s) ∧ (c = true → ioUp s = true) ∧ t.pending = s.pending ∧ Kept P A s t

theorem ioUp_of_canAccept {s : State} {r : Nat} (h : canAccept s r = true) : ioUp s = true := by
  simp only [canAccept, Bool.and_eq_true] at h
  obtain ⟨⟨⟨⟨⟨⟨hio, _⟩, _⟩, _⟩, _⟩, _⟩, _⟩ := h
  exact hio

section
variable {P : Prop} {A : Instr → Prop} {s : State}


theorem gated_next (c : Bool) {t : State} (hc : c = true → ioUp s = true) (hp : t.pending = s.pending) (hk : Kept P A s t) :
    Gated P A s (.next (if c then settle t else s)) := ⟨c, t, rfl, hc, hp, hk⟩

theorem gated_ioRow {f : State → State} (hp : (f s).pending = s.pending) (hk : Kept P A s (f s)) : Gated P A s (ioRow f s) :=
  gated_next _ id hp hk

theorem gated_ioEng (f : Eng → Eng) : Gated P A s (ioRow (onEng f) s) := gated_ioRow rfl (kept_onEng f (.refl s))

theorem gated_logicRow (f : Eng → Eng) : Gated P A s (logicRow f s) :=
  gated_next _ (fun h => (Bool.and_eq_true_iff.mp h).1) rfl (kept_onEng f (.refl s))

theorem gated_hostRow (m : Meaning) (r : Nat) (d : Desc) : Gated P A s (hostRow m r d s) :=
  gated_next _ ioUp_of_canAccept rfl (kept_onEng _ (.refl s))

theorem gated_ridgeRow (f : Eng → Eng) : Gated P A s (ridgeRow f s) := by
  refine gated_ioRow ?_ (kept_ite _ (fun _ => .refl s) fun _ => kept_onEng _ (.refl s))
  split <;> rfl

theorem gated_packetRow (h : PktHdr) (b : Body) : Gated P A s (packetRow h b s) :=
  gated_ioRow (deliverPkt_pending h b s) (kept_deliverPkt h b (.refl s))

theorem gated_writeRow (off : Nat) (v : Word) : Gated P A s (writeRow off v s) :=
  gated_ioRow (regWrite_pending _ _ _ s) (kept_regWrite _ _ _ (.refl s))

theorem gated_dormerStore {x : Nat} {d : List Byte} (h : undefinedStore x d s = none) : Gated P A s (dormerStore x d s) := by
  unfold undefinedStore at h
  unfold dormerStore
  split at h
  · cases h
  · split at h
    · cases h
    · rw [if_neg ‹_›, if_neg ‹_›]
      exact gated_ioEng _

theorem gated_dormerLoad {x n : Nat} (h : windowOk x n = true) : Gated P A s (dormerLoad x n s) := by
  rw [dormerLoad_ok h]
  exact gated_ioRow rfl (kept_of_vitals rfl)

theorem gated_registerWrite {off : Nat} {v : Word} (h : Safe (.registerWrite off v) s) : Gated P A s (execRegisterWrite off v s) := by
  unfold Safe undefinedAccess at h
  unfold execRegisterWrite
  dsimp only at h
  split at h
  · cases h
  · rw [if_neg ‹_›]
    split at h
    · rw [if_pos ‹_›]
      exact gated_dormerStore h
    · rw [if_neg ‹_›]
      exact gated_ioRow (apertureWrite_pending off v s) (kept_apertureWrite off v (.refl s))

theorem gated_counterReadLo {p : Path} {off : Nat} (h : Safe (.counterReadLo p off) s) : Gated P A s (execCounterReadLo p off s) := by
  unfold Safe undefinedAccess at h
  unfold execCounterReadLo
  cases p with
  | nightwatch =>
    dsimp only at h ⊢
    split at h
    · cases h
    · rw [if_neg ‹_›]
      exact gated_ioRow (regRead_pending _ _ s) (kept_regRead _ off (.refl s))
  | host =>
    dsimp only at h ⊢
    split at h
    · cases h
    · rw [if_neg ‹_›]
      split at h
      · cases h
      · split
        · next hw hin =>
          exact gated_dormerLoad (by simpa [hin] using hw)
        · exact gated_ioRow (apertureRead_pending off s) (kept_apertureRead off (.refl s))

theorem gated_counterClear {p : Path} {off : Nat} (h : Safe (.counterClear p off) s) : Gated P A s (execCounterClear p off s) := by
  unfold Safe undefinedAccess at h
  unfold execCounterClear
  dsimp only at h
  split at h
  · cases h
  · rw [if_neg ‹_›]
    exact gated_ioRow (regWrite_pending _ _ _ s) (kept_regWrite _ _ _ (.refl s))

theorem gated_mbMessage (ty tag : Nat) (body : List Byte) (op : State → State) (hop : ∀ t, (op t).pending = t.pending)
    (hk : ∀ t, Kept P A t (op t)) : Gated P A s (ioRow (mbMessage ty tag body op) s) := by
  refine gated_ioRow ?_ (kept_mbMessage ty tag body hk (.refl s))
  unfold mbMessage
  dsimp only
  split
  · exact hop _
  · rfl

end

section
variable {P : Prop} {A : Instr → Prop} {s : State} (hs : ∀ j ∈ s.nw.held, A j)
include hs

theorem completes_settle {t : State} (hp : t.pending = s.pending) (hk : Kept P A s t) : Completes P A s (.next (settle t)) :=
  ⟨_, rfl, (settle_pending t).trans hp, kept_settle hs hk⟩

theorem completes_of_gated {o : Host.Outcome State Fault Refusal} (h : Gated P A s o) : Completes P A s o := by
  obtain ⟨c, t, rfl, _, hp, hk⟩ := h
  cases c with
  | true => exact completes_settle hs hp hk
  | false => exact ⟨s, rfl, rfl, .refl s⟩

end

end Sys2Proof.Machine

/-! SUPPORT. The commands of each kind are rows of one form. -/

namespace Sys2Proof.Machine

/-- A host command's row runs one operation: the one its opcode selects, where the descriptor has that opcode. -/
theorem exec_hostCommand {i : Instr} {r op : Nat} {d : Desc} (h : hostCommand i = some (r, d, op)) :
    ∃ m, (∀ s, exec i s = hostRow m r d s) ∧ (opcode d = op → meaningOf d = m) := by
  unfold hostCommand at h
  split at h <;> cases h
  all_goals
    refine ⟨_, fun s => rfl, fun ho => ?_⟩
    rw [meaningOf, changeOf, readOp, ho]
    exact rfl

theorem exec_packetOf {i : Instr} {h : PktHdr} {b : Body} (hi : packetOf i = some (h, b)) (s : State) : exec i s = packetRow h b s := by
  unfold packetOf at hi
  split at hi <;> cases hi
  all_goals exact rfl

theorem exec_ioOf {i : Instr} {f : Eng → Eng} (hi : ioOf i = some f) (s : State) : exec i s = ioRow (onEng f) s := by
  cases i with
  | acceptCommand | commandComplete | submissionDoorbell | completionDoorbell | eventDoorbell | heartbeat | drainComplete | drainTimeout
  | heartbeatTimeout | hostLinkModuleFail | hostLinkReset | hostWriteAck | irqModerationTimeout | linkNak | retransmitTimeout | ackDelayTimeout
  | replyTimeout | holdTimer | beaconTimer | ridgeHeartbeatTimer | ridgeLinkSilence | ridgeAliveLost | ridgeAliveRelease | walkProbeDone
  | invalidationDone | faultRetry | faultAbort | skyFaultLimit | senderFaultWaitLimit =>
    cases hi
    exact rfl
  | _ => cases hi

theorem exec_logicRowOf {i : Instr} {f : Eng → Eng} (hi : logicRowOf i = some f) (s : State) : exec i s = logicRow f s := by
  unfold logicRowOf at hi
  split at hi <;> cases hi
  all_goals exact rfl

theorem exec_ridgeOf {i : Instr} {logic : Bool} {f : Eng → Eng} (hi : ridgeOf i = some (logic, f)) (s : State) :
    exec i s = ridgeRow (if logic then fun e => if e.stopped then e else f e else f) s := by
  unfold ridgeOf at hi
  split at hi <;> cases hi
  all_goals exact rfl

theorem exec_registerRow {i : Instr} {off : Nat} {v : Word} (hi : registerRow i = some (off, v)) (s : State) : exec i s = writeRow off v s := by
  cases i with
  | hlRingCfgWrite | hlIrqCtrlWrite | mtTableCtrlWrite | mtInvalCmd | stQCfgWrite | handlePush | fbPortCfgWrite | standDown =>
    cases hi
    exact rfl
  | _ => cases hi

theorem exec_nightwatchRow {i : Instr} (hi : nightwatchRow i = true) (s : State) : exec i s = sysRow (nwAsk i) s := by
  unfold nightwatchRow at hi
  split at hi
  case h_27 => cases hi
  all_goals exact rfl

theorem exec_boardRow {i : Instr} {f : State → State} (hi : boardRow i = some f) (s : State) : exec i s = sysRow f s := by
  unfold boardRow at hi
  split at hi <;> cases hi
  all_goals exact rfl

end Sys2Proof.Machine

/-! SUPPORT. Every safe command completes and keeps the always-on state; the invariants that follow. -/

namespace Sys2Proof.Machine

/-! ## The rows -/

/-- What the board and the sensors do keeps the queue and the always-on state. -/
theorem boardRow_keeps {i : Instr} {f : State → State} (hf : boardRow i = some f) {A : Instr → Prop} (s : State) :
    (f s).pending = s.pending ∧ Kept (PowerFalls i) A s (f s) := by
  have hr : Kept (PowerFalls i) A s s := .refl s
  unfold boardRow at hf
  split at hf <;> cases hf
  case h_1 t => exact ⟨by simp, kept_opStackTemp t hr⟩
  case h_2 => exact ⟨by simp, kept_opBurstParity _ _ _ _ hr⟩
  case h_3 => exact ⟨by simp, kept_opThermalSample _ _ hr⟩
  case h_4 => exact ⟨by simp, kept_opCautionStep hr⟩
  case h_5 => exact ⟨by simp, kept_opClamp _ _ hr⟩
  case h_6 => exact ⟨by simp, kept_opClampRelease _ _ hr⟩
  case h_7 => exact ⟨by simp, kept_opCapTick _ _ hr⟩
  case h_8 => exact ⟨by simp, kept_opDusk _ hr⟩
  case h_9 => exact ⟨by simp, kept_opDuskWake _ hr⟩
  case h_10 => exact ⟨by simp, kept_opRefLost _ hr⟩
  case h_11 => exact ⟨by simp, kept_opRefReturn _ hr⟩
  case h_12 => exact ⟨by simp, kept_opResetPin hr⟩
  case h_13 => exact ⟨by simp, kept_opPowerFall (.inl rfl) hr⟩
  case h_14 => exact ⟨by simp, kept_opReset (.inr (.inr rfl)) hr⟩
  case h_15 => exact ⟨by simp, kept_opWatchdog _ hr⟩
  case h_16 => exact ⟨by simp, kept_opProtection _ hr⟩
  case h_17 => exact ⟨by simp, kept_opCoreRestart _ _ hr⟩
  case h_18 | h_19 => exact ⟨by simp, kept_askUnit _ _ hr⟩
  case h_20 => exact ⟨by simp, kept_opQuarantineEnd _ hr⟩
  case h_21 => exact ⟨by simp, kept_opReset (.inl rfl) hr⟩
  case h_22 => exact ⟨by simp, kept_opReset (.inr (.inl rfl)) hr⟩
  case h_23 => exact ⟨by simp, kept_opLadder hr⟩
  case h_24 => exact ⟨by simp, kept_opHoldoff hr⟩
  case h_25 => exact ⟨by simp, kept_opDynAddr _ hr⟩
  case h_26 => exact ⟨by simp, kept_opCatastrophic _ hr⟩
  case h_27 => exact ⟨by simp, kept_opPowerOn (.inr rfl) hr⟩

/-- HANDLE_POP is a read of ST_Q_HANDLE_LO (R314). -/
theorem exec_handlePop (s : State) : exec .handlePop s = ioRow (apertureRead 0xE030) s := rfl

/-- Every command but those of the board, of Nightwatch and of host memory acts while the I/O die runs, where it reaches no undefined
access. -/
theorem exec_gated {P : Prop} {A : Instr → Prop} {i : Instr} {s : State} (h : Safe i s) (hb : boardRow i = none) (hn : nightwatchRow i = false)
    (hr : ∀ a d, i ≠ .hostReadData a d) : Gated P A s (exec i s) := by
  have host {r op : Nat} {d : Desc} (hf : hostCommand i = some (r, d, op)) : Gated P A s (exec i s) := by
    obtain ⟨m, he, _⟩ := exec_hostCommand hf
    rw [he]
    exact gated_hostRow m r d
  have io {f : Eng → Eng} (hf : ioOf i = some f) : Gated P A s (exec i s) := exec_ioOf hf s ▸ gated_ioEng f
  have logic {f : Eng → Eng} (hf : logicRowOf i = some f) : Gated P A s (exec i s) := exec_logicRowOf hf s ▸ gated_logicRow f
  have ridge {l : Bool} {f : Eng → Eng} (hf : ridgeOf i = some (l, f)) : Gated P A s (exec i s) :=
    exec_ridgeOf hf s ▸ gated_ridgeRow _
  have packet {p : PktHdr} {b : Body} (hf : packetOf i = some (p, b)) : Gated P A s (exec i s) :=
    exec_packetOf hf s ▸ gated_packetRow p b
  have register {off : Nat} {v : Word} (hf : registerRow i = some (off, v)) : Gated P A s (exec i s) :=
    exec_registerRow hf s ▸ gated_writeRow off v
  cases i with
  | nop | stepOpen | stepClose | fence | lookupPool | lookupRows | updateGrad | rowWrite | hotSetLoad | thatchRefresh | migrateRows
  | tableReplace | tableRemap | streamArm | streamResume | streamCancel | bufSwap | shingleWrite | shingleRead | atomic | interact | topk
  | dispatch | combine | configStage | configDiscard | configActivate => exact host rfl
  | acceptCommand | commandComplete | submissionDoorbell | completionDoorbell | eventDoorbell | heartbeat | drainComplete | drainTimeout
  | heartbeatTimeout | hostLinkModuleFail | hostLinkReset | hostWriteAck | irqModerationTimeout | linkNak | retransmitTimeout | ackDelayTimeout
  | replyTimeout | holdTimer | beaconTimer | ridgeHeartbeatTimer | ridgeLinkSilence | ridgeAliveLost | ridgeAliveRelease | walkProbeDone
  | invalidationDone | faultRetry | faultAbort | skyFaultLimit | senderFaultWaitLimit => exact io rfl
  | journalDone | recordResend | gatherReadComplete | stepCloseBegin | drainEpochAdvance | resilverPassDone | verdictWaitTimeout
  | verdictDeferralExpiry | streamRunStart | streamRequestDone | queueReset | tileClose | shadowDrainDone | refreshManagementRequest =>
    exact logic rfl
  | journal | journalAck | forward | forwardAck | repair | repairReply | status | join | resilverCopy | cutover => exact ridge rfl
  | index | result | record | recordAck | fencePacket | restep | skyWrite | skyRead | skyData | skyWriteAck | faultPending | skyResume | aborted
  | denied | sync | syncAck | stale | redirect | hold | epochReject | ack | beacon => exact packet rfl
  | hlRingCfgWrite | hlIrqCtrlWrite | mtTableCtrlWrite | mtInvalCmd | stQCfgWrite | handlePush | fbPortCfgWrite | standDown =>
    exact register rfl
  | nwHello | regRead | regWrite | jobCounters | countersClear | eventRead | lodestar | nwStatus | setPowerCap | setPowerStateA2 | setPowerStateA3
  | setPowerStateA0 | nwReset | stackFail | returnToService | debugMode | jobClear | flashWrite | flashRead | imageVerify | activate | commit
  | oosRecord | mctpControlMessage | spdmRequest | pldmRequest => cases hn
  | stackTempSample | burstParityError | thermalSample | cautionStepTimer | currentClamp | currentClampRelease | powerCapTick | duskIdleTimeout
  | duskWake | refClockLost | refClockReturn | resetNAssert | pwrGoodFall | coldReset | coreWatchdogExpiry | coreProtectionFault | coreRestart
  | controlParity | hang | quarantineEnd | engineReset | warmReset | ladderTimeout | activationHoldoffExpiry | dynamicAddressAssignment
  | catastrophicTemperature | powerOn => cases hb
  | hello | detachDrain | detachAbandon => exact gated_mbMessage _ _ _ _ (fun _ => rfl) fun _ => kept_onEng _ (.refl _)
  | attach => exact gated_mbMessage _ _ _ _ (fun _ => rfl) fun _ => kept_onEng _ (.refl _)
  | mailboxDoorbell => exact gated_ioRow (ringMailbox_pending s) (kept_ringMailbox (.refl s))
  | hostReadData a d => exact absurd rfl (hr a d)
  | registerWrite => exact gated_registerWrite h
  | counterReadLo => exact gated_counterReadLo h
  | counterClear => exact gated_counterClear h
  | ethernetFrameRx => exact gated_ioRow (opEthernetFrame_pending _ _ s) (kept_opEthernetFrame _ _ (.refl s))
  | linkFrameRx => exact gated_ioRow (opLinkFrame_pending _ _ s) (kept_opLinkFrame _ _ (.refl s))
  | linkChange => exact gated_ioRow (opLinkChange_pending _ _ s) (kept_opLinkChange _ _ (.refl s))
  | handlePop =>
    rw [exec_handlePop]
    exact gated_ioRow (apertureRead_pending _ s) (kept_apertureRead _ (.refl s))
  | dormerRead x n =>
    refine gated_dormerLoad ?_
    unfold Safe undefinedAccess at h
    dsimp only at h
    split at h
    · assumption
    · cases h
  | dormerWrite => exact gated_dormerStore h

/-- Every command that reaches no undefined access completes, keeps the queue, and keeps the always-on state but for the requests asked. -/
theorem exec_completes (i : Instr) (s : State) (h : Safe i s) : Completes (PowerFalls i) (Asked i s) s (exec i s) := by
  have hs : ∀ j ∈ s.nw.held, Asked i s j := fun _ => .inr
  cases hb : boardRow i with
  | some f =>
    obtain ⟨hp, hk⟩ := boardRow_keeps hb s
    rw [exec_boardRow hb]
    exact completes_settle hs hp hk
  | none =>
    cases hn : nightwatchRow i with
    | true =>
      rw [exec_nightwatchRow hn]
      exact completes_settle hs (nwAsk_pending i s) (kept_nwAsk (.inl rfl) (.refl s))
    | false =>
      by_cases hr : ∃ a d, i = .hostReadData a d
      · obtain ⟨a, d, rfl⟩ := hr
        exact ⟨_, rfl, rfl, kept_onEng (hostStore a d) (.refl s)⟩
      · exact completes_of_gated hs (exec_gated h hb hn fun a d he => hr ⟨a, d, he⟩)

end Sys2Proof.Machine


/-! SUPPORT. Undefined accesses stop; the invariants of a step. -/

namespace Sys2Proof.Machine

theorem dormerStore_undefined {x : Nat} {d : List Byte} {s : State} {f : Fault} (h : undefinedStore x d s = some f) :
    dormerStore x d s = .fault f := by
  unfold undefinedStore at h
  unfold dormerStore
  split at h
  · cases h
    rw [if_pos ‹_›]
  · split at h
    · cases h
      rw [if_neg ‹_›, if_pos ‹_›]
    · cases h

theorem dormerLoad_undefined {x n : Nat} {s : State} (h : windowOk x n = false) : dormerLoad x n s = .fault .windowAccessUndefined := by
  rw [dormerLoad, h]
  rfl

theorem registerWrite_undefined {off : Nat} {v : Word} {s : State} {f : Fault} (h : undefinedAccess (.registerWrite off v) s = some f) :
    execRegisterWrite off v s = .fault f := by
  unfold undefinedAccess at h
  unfold execRegisterWrite
  dsimp only at h
  split at h
  · cases h
    rw [if_pos ‹_›]
  · split at h
    · rw [if_neg ‹_›, if_pos ‹_›]
      exact dormerStore_undefined h
    · cases h

theorem counterReadLo_undefined {p : Path} {off : Nat} {s : State} {f : Fault} (h : undefinedAccess (.counterReadLo p off) s = some f) :
    execCounterReadLo p off s = .fault f := by
  unfold undefinedAccess at h
  unfold execCounterReadLo
  cases p with
  | nightwatch =>
    dsimp only at h ⊢
    split at h
    · cases h
      rw [if_pos ‹_›]
    · cases h
  | host =>
    dsimp only at h ⊢
    split at h
    · cases h
      rw [if_pos ‹_›]
    · split at h
      · next hw =>
        obtain ⟨hlo, hhi, hw⟩ := hw
        cases h
        rw [if_neg ‹_›, if_pos ⟨hlo, hhi⟩]
        exact dormerLoad_undefined hw
      · cases h

theorem counterClear_undefined {p : Path} {off : Nat} {s : State} {f : Fault} (h : undefinedAccess (.counterClear p off) s = some f) :
    execCounterClear p off s = .fault f := by
  unfold undefinedAccess at h
  unfold execCounterClear
  dsimp only at h
  split at h
  · cases h
    rw [if_pos ‹_›]
  · cases h

theorem exec_undefined {i : Instr} {s : State} {f : Fault} (h : undefinedAccess i s = some f) : exec i s = .fault f := by
  cases i with
  | registerWrite => exact registerWrite_undefined h
  | counterReadLo => exact counterReadLo_undefined h
  | counterClear => exact counterClear_undefined h
  | dormerRead x n =>
    unfold undefinedAccess at h
    dsimp only at h
    split at h
    · cases h
    · next hw =>
      cases h
      exact dormerLoad_undefined (Bool.eq_false_iff.mpr hw)
  | dormerWrite => exact dormerStore_undefined h
  | _ => cases h

/-- A command that completes keeps the always-on state, but for what it and the requests held ask. -/
theorem kept_exec {i : Instr} {s t : State} (h : exec i s = .next t) : Kept (PowerFalls i) (Asked i s) s t := by
  cases hu : undefinedAccess i s with
  | some f => rw [exec_undefined hu] at h; cases h
  | none =>
    obtain ⟨u, hn, _, hk⟩ := exec_completes i s hu
    rw [hn] at h
    cases h
    exact hk

theorem kept_idleTick (s : State) : Kept False (fun _ => False) s (idleTick s) := kept_of_vitals rfl

/-- Settles O3: each command is a row of one of a few kinds, and each kind completes. -/
theorem safeCommandsComplete : Obligations.SafeCommandsComplete := by
  intro i s h
  obtain ⟨t, ht, hp, _⟩ := exec_completes i s h
  exact ⟨t, ht, hp⟩

/-- Settles O4: the row of each access makes the same checks. -/
theorem undefinedAccessesStop : Obligations.UndefinedAccessesStop := fun _ _ _ => exec_undefined

/-- Settles O1, by the definition of a step. -/
theorem stepRunsTheFrontCommand : Obligations.StepRunsTheFrontCommand := by
  intro s i rest h
  rw [step, h]

/-- Settles O5: waiting a tick changes the data path alone, and every command keeps the bounds. -/
theorem everyStepKeepsTheBounds : Obligations.EveryStepKeepsTheBounds := by
  intro s t hl h
  unfold step at h
  split at h
  · cases h
    exact (kept_idleTick s).legal hl
  · exact (kept_exec h).legal hl

/-- Settles O54: no operation but those two releases THERMTRIP_N, and the I/O die needs it released. -/
theorem thermtripHoldsUntilPowerFalls : Obligations.ThermtripHoldsUntilPowerFalls := by
  intro i s t ht hfall hon h
  have htrip : t.pw.thermtrip = true := (kept_exec h).trip (fun hp => hp.elim hfall hon) ht
  exact ⟨htrip, by simp [ioUp, htrip]⟩

/-- Settles O55: no operation but the body of DEBUG_MODE sets debug mode. -/
theorem debugModeIsSetOverNightwatch : Obligations.DebugModeIsSetOverNightwatch := by
  intro i s t h hoff hon
  refine Classical.byContradiction fun hn => ?_
  obtain ⟨hnow, hheld⟩ := not_or.mp hn
  have hkept := (kept_exec h).debug (fun tag ha => ha.elim (fun he => hnow ⟨tag, he.symm⟩) fun hm => hheld ⟨tag, hm⟩) hoff
  rw [hon] at hkept
  cases hkept

/-- Settles O56: no operation but the body of RETURN_TO_SERVICE erases the record. -/
theorem outOfServiceIsKeptUntilReturn : Obligations.OutOfServiceIsKeptUntilReturn := by
  intro i s t h hrec hnone
  refine Classical.byContradiction fun hn => ?_
  obtain ⟨hnow, hheld⟩ := not_or.mp hn
  exact (kept_exec h).oos (fun tag ha => ha.elim (fun he => hnow ⟨tag, he.symm⟩) fun hm => hheld ⟨tag, hm⟩) hrec hnone

end Sys2Proof.Machine

/-! SUPPORT. Where each kind of command completes, and with which operation. -/

namespace Sys2Proof.Machine

section
variable {s : State}

theorem ioRow_up (h : ioUp s = true) (f : State → State) : ioRow f s = .next (settle (f s)) := by rw [ioRow, if_pos h]

theorem ioRow_down (h : ioUp s = false) (f : State → State) : ioRow f s = .next s := by
  rw [ioRow, h]
  rfl

theorem logicRow_runs (h : ioUp s = true) (hr : s.eng.stopped = false) (f : Eng → Eng) : logicRow f s = .next (settle (onEng f s)) := by
  rw [logicRow, h, hr]
  rfl

theorem logicRow_stopped (h : s.eng.stopped = true) (f : Eng → Eng) : logicRow f s = .next s := by
  rw [logicRow, h, Bool.not_true, Bool.and_false]
  rfl

theorem hostRow_accepts {r : Nat} (h : canAccept s r = true) (m : Meaning) (d : Desc) :
    hostRow m r d s = .next (settle (onEng (opHostCommand m r d) s)) := by rw [hostRow, if_pos h]

theorem hostRow_waits {r : Nat} (h : canAccept s r = false) (m : Meaning) (d : Desc) : hostRow m r d s = .next s := by
  rw [hostRow, h]
  rfl

theorem ridgeRow_up (h : ioUp s = true) (hp : s.eng.rg.portsUp ≠ []) (f : Eng → Eng) :
    ridgeRow f s = .next (settle (onEng (fun e => f (ridgeHeard e)) s)) := by
  rw [ridgeRow, ioRow_up h, if_neg (by simpa using hp)]

theorem ridgeRow_deaf (h : ioUp s = true) (hp : s.eng.rg.portsUp = []) (f : Eng → Eng) : ridgeRow f s = .next (settle s) := by
  rw [ridgeRow, ioRow_up h, hp]
  rfl

/-! ## Packets -/

theorem deliverPkt_noImage (h : PktHdr) (b : Body) (hi : s.fw.noImage = true) : deliverPkt h b s = s := by
  rw [deliverPkt, hi]
  rfl

theorem deliverPkt_sync (h : PktHdr) (hr : s.fw.resetRung ≠ 0) : deliverPkt h .sync s = s := by
  rw [deliverPkt, if_pos (by simp [hr])]

theorem deliverPkt_delivers (h : PktHdr) {b : Body} (hi : s.fw.noImage = false) (hb : b ≠ .sync ∨ s.fw.resetRung = 0) :
    deliverPkt h b s = onEng (opDeliver h b) s := by
  rw [deliverPkt, if_neg (by rcases hb with hb | hb <;> simp [hi, hb])]

/-- A delivered packet that nothing turns away takes its class's effect. -/
theorem opDeliver_served {h : PktHdr} {b : Body} {e : Eng} (hs : packetServed h b (received h b e) = true) :
    opDeliver h b e = applyBody h b (checkEpoch h b (received h b e)).1 := by
  simp only [packetServed, Bool.and_eq_true, Bool.not_eq_true'] at hs
  obtain ⟨⟨⟨⟨hcredit, hfence⟩, hjob⟩, hmembers⟩, hepoch⟩ := hs
  change deliverBody h b (received h b e) = _
  unfold deliverBody
  simp only [hcredit, hfence, hjob, hmembers, hepoch]
  rfl

/-! ## Nightwatch requests -/

theorem nwAsk_served (hs : nwServed s = true) (hh : s.nw.held = []) (hg : s.pw.goal = none) (i : Instr) : nwAsk i s = nwRun i s := by
  have hr : s.fw.resetRung ≠ 4 := by
    intro h4
    simp [nwServed, h4] at hs
  rw [nwAsk, if_neg hr, hs, hh, hg]
  rfl

theorem nwAsk_unserved (hr : s.fw.resetRung ≠ 4) (hs : nwServed s = false) (i : Instr) : nwAsk i s = nwHold i s := by
  rw [nwAsk, if_neg hr, hs]
  rfl

theorem nwAsk_cold (hr : s.fw.resetRung = 4) (i : Instr) : nwAsk i s = s := by rw [nwAsk, if_pos hr]

/-- A request whose length or reserved bits are wrong is answered, and has no other effect (R11, R379). -/
theorem nwRun_badHeader {i : Instr} {msg : Nat} {h : NwHead} (hi : nwHeader i = some (msg, h)) (hb : h.badLength = true ∨ h.reserved ≠ 0) :
    nwRun i s = nwReply msg h.tag (if h.badLength then 3 else 4) [] s := by
  rw [nwRun, hi]
  dsimp only
  by_cases hl : h.badLength = true
  · rw [if_pos hl, if_pos hl]
  · rw [if_neg hl, if_neg hl, if_pos (hb.resolve_left hl)]

/-! ## The aperture -/

theorem execRegisterWrite_aperture {off : Nat} (v : Word) (ha : off % 4 = 0 ∨ alignedOnly off = false)
    (hw : ¬(0x10000000 ≤ off ∧ off < 0x20000000)) :
    execRegisterWrite off v s = ioRow (apertureWrite off v) s := by
  have hn : ¬(off % 4 ≠ 0 ∧ alignedOnly off = true) := by
    rintro ⟨h4, hal⟩
    rcases ha with ha | ha
    · exact h4 ha
    · rw [ha] at hal; cases hal
  rw [execRegisterWrite, if_neg hn, if_neg hw]

theorem execCounterReadLo_aperture {off : Nat} (ha : off % 4 = 0 ∨ alignedOnly off = false) (hw : ¬(0x10000000 ≤ off ∧ off < 0x20000000)) :
    execCounterReadLo .host off s = ioRow (apertureRead off) s := by
  have hn : ¬(off % 4 ≠ 0 ∧ alignedOnly off = true) := by
    rintro ⟨h4, hal⟩
    rcases ha with ha | ha
    · exact h4 ha
    · rw [ha] at hal; cases hal
  unfold execCounterReadLo
  dsimp only
  rw [if_neg hn, if_neg hw]

theorem apertureWrite_register {off : Nat} (v : Word) (h : off < 0x1000000) : apertureWrite off v s = regWrite .host off v.toNat s := by
  rw [apertureWrite, if_pos h]

theorem apertureRead_register {off : Nat} (h : off < 0x1000000) :
    apertureRead off s = keepRead (regRead .host off s).1 (regRead .host off s).2 := by
  rw [apertureRead, if_pos h]

theorem registerRow_lt {i : Instr} {off : Nat} {v : Word} (hi : registerRow i = some (off, v)) : off % 4 = 0 ∧ off < 0x1000000 := by
  cases i with
  | hlRingCfgWrite | hlIrqCtrlWrite | mtTableCtrlWrite | mtInvalCmd | stQCfgWrite | handlePush | fbPortCfgWrite | standDown =>
    cases hi
    decide
  | _ => cases hi

/-- A write of a register by the host is a row of the I/O die. -/
theorem exec_registerWrite_register {off : Nat} (v : Word) (h4 : off % 4 = 0) (hlt : off < 0x1000000) :
    exec (.registerWrite off v) s = writeRow off v s := by
  change execRegisterWrite off v s = _
  rw [execRegisterWrite_aperture v (.inl h4) (by omega), writeRow, ioRow, ioRow, apertureWrite_register v hlt]

end

/-- Settles O8, by the row of a host command and the opcode it stands for. -/
theorem hostCommandsRunTheirOpcode : Obligations.HostCommandsRunTheirOpcode := by
  intro i r op d s hi hop hc
  obtain ⟨m, he, hm⟩ := exec_hostCommand hi
  rw [he, hostRow_accepts hc, hm hop]

/-- Settles O10: a host command waits where its ring gives none, and the rows of the I/O die are gated by it. -/
theorem commandsTurnedAwayChangeNothing : Obligations.CommandsTurnedAwayChangeNothing := by
  constructor
  · intro i r op d s hi hc
    obtain ⟨m, he, _⟩ := exec_hostCommand hi
    rw [he, hostRow_waits hc]
  · intro i s hdown hsafe hb hn hr
    obtain ⟨c, t, he, hc, _⟩ := exec_gated (P := True) (A := fun _ => True) hsafe hb hn hr
    cases c with
    | false => exact he
    | true => rw [hc rfl] at hdown; cases hdown

/-- Settles O11, by the cases of a packet's delivery. -/
theorem packetsAreDelivered : Obligations.PacketsAreDelivered := by
  intro i h b s hi hio
  rw [exec_packetOf hi, packetRow, ioRow_up hio]
  refine ⟨fun himg hb => ?_, fun hb hr => ?_, fun himg => ?_⟩
  · rw [deliverPkt_delivers h himg hb]
    refine ⟨rfl, fun hs => ?_⟩
    rw [onEng, opDeliver_served hs]
    rfl
  · rw [hb, deliverPkt_sync h hr]
  · rw [deliverPkt_noImage h b himg]

/-- Settles O12: the three are rows of the I/O die. -/
theorem framesAndLinksComplete : Obligations.FramesAndLinksComplete :=
  fun _ _ _ _ hio => ⟨ioRow_up hio _, ioRow_up hio _, ioRow_up hio _⟩

/-- Settles O13, by the row of the I/O die. -/
theorem ioDieCommandsComplete : Obligations.IoDieCommandsComplete := by
  intro i f s hi hio
  rw [exec_ioOf hi, ioRow_up hio]

/-- Settles O14, by the row of the logic of the dies. -/
theorem logicCommandsComplete : Obligations.LogicCommandsComplete := by
  intro i f s hi
  rw [exec_logicRowOf hi]
  exact ⟨fun hio hr => logicRow_runs hio hr f, fun hr => logicRow_stopped hr f⟩

/-- Settles O15, by the row of the ridge link. -/
theorem ridgePacketsComplete : Obligations.RidgePacketsComplete := by
  intro i logic f s hi hio
  rw [exec_ridgeOf hi]
  refine ⟨fun hp => ridgeRow_deaf hio hp _, fun hp hr => ?_, fun hp hl => ?_⟩
  · rw [ridgeRow_up hio hp, onEng, onEng]
    cases logic with
    | false => rfl
    | true => rw [if_pos rfl, hr]; rfl
  · rw [ridgeRow_up hio hp, hl]
    rfl

/-- Settles O16, by the row of the board. -/
theorem boardCommandsComplete : Obligations.BoardCommandsComplete := fun _ _ s hi => exec_boardRow hi s

/-- Settles O17, by the cases of a request's arrival. -/
theorem nightwatchRequestsComplete : Obligations.NightwatchRequestsComplete := by
  intro i s hi
  rw [exec_nightwatchRow hi, sysRow]
  refine ⟨fun hs hh hg => ?_, fun hr hs hl => ?_, fun hr => ?_, fun msg h hm hs hh hg hb => ?_⟩
  · rw [nwAsk_served hs hh hg]
  · rw [nwAsk_unserved hr hs, nwHold, if_pos hl]
  · rw [nwAsk_cold hr]
  · rw [nwAsk_served hs hh hg, nwRun_badHeader hm hb, nwReply]
    by_cases hl : h.badLength = true
    · simp only [hl]
      rfl
    · simp only [hl]
      rfl

end Sys2Proof.Machine

/-! SUPPORT. Memories: what a store of bytes reads back, and that a memory in canonical form is what it reads. -/

namespace Sys2Proof.Machine

/-! ## Runs of bytes -/

theorem memGet_memPut_out {d : Byte} {m : List Host.Cell} (w : Memory.wf d m = true) {a x : Nat} {bs : List Byte}
    (h : x < a ∨ a + bs.length ≤ x) : memGet d (memPut d m a bs) x = memGet d m x := by
  induction bs generalizing m a with
  | nil => rfl
  | cons b t ih =>
    rw [List.length_cons] at h
    rw [memPut, ih (memSet_wf a b w) (by omega), memGet_memSet w, if_neg (by omega)]

theorem memRead_memPut {d : Byte} {m : List Host.Cell} (w : Memory.wf d m = true) (a : Nat) (bs : List Byte) :
    memRead d (memPut d m a bs) a bs.length = bs := by
  induction bs generalizing m a with
  | nil => rfl
  | cons b t ih =>
    have hw := memSet_wf a b w
    rw [memPut, List.length_cons, memRead, memGet_memPut_out hw (.inl (Nat.lt_succ_self a)), memGet_memSet w, if_pos rfl, ih hw]

theorem length_memRead (d : Byte) (m : List Host.Cell) (a n : Nat) : (memRead d m a n).length = n := by
  induction n generalizing a with
  | zero => rfl
  | succ n ih => rw [memRead, List.length_cons, ih]

theorem memRead_add (d : Byte) (m : List Host.Cell) (a n k : Nat) : memRead d m a (n + k) = memRead d m a n ++ memRead d m (a + n) k := by
  induction n generalizing a with
  | zero => rw [Nat.zero_add]; rfl
  | succ n ih => rw [Nat.succ_add, memRead, memRead, ih, List.cons_append, Nat.succ_add_eq_add_succ]

/-! ## The canonical form -/

/-- The first cell of a memory and the rest of it. -/
theorem memWfFrom_cons {d : Byte} {lo : Nat} {c : Host.Cell} {t : List Host.Cell} (w : memWfFrom d lo (c :: t) = true) :
    lo ≤ c.1 ∧ c.2 ≠ d ∧ memWfFrom d (c.1 + 1) t = true := by
  simp only [memWfFrom, Bool.and_eq_true, decide_eq_true_eq, bne_iff_ne] at w
  exact ⟨w.1.1, w.1.2, w.2⟩

/-- Below its first address a memory reads its default. -/
theorem memGet_below {d : Byte} {lo x : Nat} {m : List Host.Cell} (w : memWfFrom d lo m = true) (h : x < lo) : memGet d m x = d :=
  tabGet_below d fun p hp => Nat.lt_of_lt_of_le h (memWfFrom_lt w p hp)

/-- What a memory's first cell adds to what the rest reads. -/
theorem memGet_cons {d : Byte} {c : Host.Cell} {t : List Host.Cell} (w : memWfFrom d (c.1 + 1) t = true) (x : Nat) :
    memGet d (c :: t) x = if x = c.1 then c.2 else memGet d t x := by
  change (if x = c.1 then c.2 else if x < c.1 then d else memGet d t x) = _
  split
  · rfl
  · split
    · rw [memGet_below w (by omega)]
    · rfl

/-- Memories in canonical form that read the same are the same. -/
theorem memory_ext {d : Byte} {lo lo' : Nat} {m m' : List Host.Cell} (w : memWfFrom d lo m = true) (w' : memWfFrom d lo' m' = true)
    (h : ∀ x, memGet d m x = memGet d m' x) : m = m' := by
  induction m generalizing lo lo' m' with
  | nil =>
    cases m' with
    | nil => rfl
    | cons c' t' =>
      obtain ⟨_, hb, wt⟩ := memWfFrom_cons w'
      have := h c'.1
      rw [memGet_cons wt, if_pos rfl] at this
      exact absurd this.symm hb
  | cons c t ih =>
    obtain ⟨_, hb, wt⟩ := memWfFrom_cons w
    cases m' with
    | nil =>
      have := h c.1
      rw [memGet_cons wt, if_pos rfl] at this
      exact absurd this hb
    | cons c' t' =>
      obtain ⟨_, hb', wt'⟩ := memWfFrom_cons w'
      simp only [memGet_cons wt, memGet_cons wt'] at h
      have ha : c.1 = c'.1 := by
        refine Decidable.byContradiction fun hne => ?_
        rcases Nat.lt_or_gt_of_ne hne with hlt | hlt
        · have := h c.1
          rw [if_pos rfl, if_neg hne, memGet_below wt' (by omega)] at this
          exact hb this
        · have := h c'.1
          rw [if_pos rfl, if_neg (Ne.symm hne), memGet_below wt (by omega)] at this
          exact hb' this.symm
      have hbb : c.2 = c'.2 := by
        have := h c.1
        rwa [if_pos rfl, if_pos ha] at this
      have htail : ∀ x, memGet d t x = memGet d t' x := by
        intro x
        by_cases hx : x = c.1
        · rw [memGet_below wt (by omega), memGet_below wt' (by omega)]
        · have := h x
          rwa [if_neg hx, if_neg (ha ▸ hx)] at this
      rw [Prod.ext ha hbb, ih wt wt' htail]

/-- Settles O21: a store goes byte by byte, and a canonical memory lists exactly the bytes that differ from its default. -/
theorem memoriesKeepTheirForm : Obligations.MemoriesKeepTheirForm := fun _ _ w =>
  ⟨fun a bs => ⟨memPut_wf a bs w, memRead_memPut w a bs, fun _ hx => memGet_memPut_out w hx⟩, fun _ w' h => memory_ext w w' h⟩

/-- Settles O22: the row stores into host memory and into nothing else. -/
theorem hostReadDataIsWhatReadsReturn : Obligations.HostReadDataIsWhatReadsReturn := by
  intro a bs s w
  exact ⟨_, rfl, memRead_memPut w a bs, fun _ hx => memGet_memPut_out w hx, rfl⟩

end Sys2Proof.Machine

/-! SUPPORT. Register writes, aperture accesses and mailbox messages by the rows that name them; waiting; the state after reset. -/

namespace Sys2Proof.Machine

section
variable {s : State}

/-! ## The write that resolves a fault (R331) -/

theorem regWrite_resolve (v : Nat) : regWrite .host 0x5070 v s =
    onEng (fun e => if bit v 15 then opFaultAbort (fld v 0 5) (BitVec.ofNat 8 (fld v 5 8)) e
      else opFaultRetry (fld v 0 5) (BitVec.ofNat 8 (fld v 5 8)) e) s := rfl

/-- The fields of MT_FAULT_RESOLVE: ID, generation and ABORT. -/
theorem resolve_fields {id : Nat} (hid : id < 32) (g : BitVec 8) {x : Nat} (hx : x = 0 ∨ x = 1) :
    let v := (BitVec.ofNat 32 (id + 32 * g.toNat + x * 2 ^ 15)).toNat
    fld v 0 5 = id ∧ BitVec.ofNat 8 (fld v 5 8) = g ∧ bit v 15 = decide (x = 1) := by
  have hg := g.isLt
  have hv : (BitVec.ofNat 32 (id + 32 * g.toNat + x * 2 ^ 15)).toNat = id + 32 * g.toNat + x * 2 ^ 15 :=
    Nat.mod_eq_of_lt (by omega)
  dsimp only
  rw [hv]
  refine ⟨by unfold fld; omega, BitVec.eq_of_toNat_eq ?_, ?_⟩
  · rw [BitVec.toNat_ofNat, fld]
    omega
  · rw [bit, Nat.testBit_eq_decide_div_mod_eq]
    congr 1
    exact propext (by omega)

theorem exec_faultRetry_write {id : Nat} (hid : id < 32) (g : BitVec 8) :
    exec (.faultRetry id g) s = exec (.registerWrite 0x5070 (BitVec.ofNat 32 (id + 32 * g.toNat))) s := by
  obtain ⟨h1, h2, h3⟩ := resolve_fields hid g (x := 0) (.inl rfl)
  rw [Nat.zero_mul, Nat.add_zero] at h1 h2 h3
  rw [exec_registerWrite_register _ (by decide) (by decide), writeRow, exec_ioOf rfl, ioRow, ioRow, regWrite_resolve, h1, h2, h3]
  rfl

theorem exec_faultAbort_write {id : Nat} (hid : id < 32) (g : BitVec 8) :
    exec (.faultAbort id g) s = exec (.registerWrite 0x5070 (BitVec.ofNat 32 (id + 32 * g.toNat + 2 ^ 15))) s := by
  obtain ⟨h1, h2, h3⟩ := resolve_fields hid g (x := 1) (.inr rfl)
  rw [Nat.one_mul] at h1 h2 h3
  rw [exec_registerWrite_register _ (by decide) (by decide), writeRow, exec_ioOf rfl, ioRow, ioRow, regWrite_resolve, h1, h2, h3]
  rfl

theorem alignedOnly_window {off : Nat} (h : 0x10000000 ≤ off) : alignedOnly off = false := by
  simp only [alignedOnly, Bool.or_eq_false_iff, Bool.and_eq_false_iff, decide_eq_false_iff_not]
  omega

/-- A host read of the dormer window's range is a load of the window (R350). -/
theorem execCounterReadLo_window {off : Nat} (hlo : 0x10000000 ≤ off) (hhi : off < 0x20000000) :
    execCounterReadLo .host off s = dormerLoad (off - 0x10000000) 4 s := by
  unfold execCounterReadLo
  dsimp only
  rw [alignedOnly_window hlo, if_neg (by simp), if_pos ⟨hlo, hhi⟩]

theorem exec_counterReadLo_nightwatch {off : Nat} (h : off % 4 = 0) :
    exec (.counterReadLo .nightwatch off) s = ioRow (fun s => (regRead .nightwatch off s).2) s := by
  change execCounterReadLo .nightwatch off s = _
  unfold execCounterReadLo
  dsimp only
  rw [if_neg (by omega)]

theorem exec_counterClear_aligned {off : Nat} (p : Path) (h : off % 4 = 0) : exec (.counterClear p off) s = ioRow (regWrite p off 0) s := by
  change execCounterClear p off s = _
  rw [execCounterClear, if_neg (by omega)]

end

/-- Settles O18: each is the row of its register's write, and the resolution's fields are read back from the word. -/
theorem registerRowsAreWrites : Obligations.RegisterRowsAreWrites := by
  refine ⟨fun i off v s hi hio => ?_, fun id g s hid => ⟨exec_faultRetry_write hid g, exec_faultAbort_write hid g⟩, fun s => ?_⟩
  · obtain ⟨h4, hlt⟩ := registerRow_lt hi
    rw [exec_registerRow hi, exec_registerWrite_register v h4 hlt, writeRow]
    exact ⟨rfl, ioRow_up hio _⟩
  · rw [exec_handlePop]
    exact (execCounterReadLo_aperture (off := 0xE030) (.inl rfl) (by decide)).symm

/-- Settles O19, by the ranges of the aperture. -/
theorem registerAccessesComplete : Obligations.RegisterAccessesComplete := by
  intro off v p s hio
  refine ⟨fun ha hlt => ⟨?_, ?_⟩, fun h4 hlt => ?_, fun hlo hhi hw => ?_, fun h4 => ⟨?_, ?_⟩, ?_⟩
  · exact (execRegisterWrite_aperture v ha (by omega)).trans (ioRow_up hio _)
  · exact (execCounterReadLo_aperture ha (by omega)).trans (ioRow_up hio _)
  · refine (execCounterReadLo_aperture (.inl h4) (by omega)).trans ?_
    rw [ioRow_up hio, apertureRead_register hlt]
  · refine (execCounterReadLo_window hlo hhi).trans ?_
    rw [dormerLoad_ok hw, ioRow_up hio]
    rfl
  · rw [exec_counterReadLo_nightwatch h4, ioRow_up hio]
  · rw [exec_counterClear_aligned p h4, ioRow_up hio]
  · rw [exec_handlePop, ioRow_up hio, apertureRead_register (by decide)]

/-- Settles O2: a tick raises the tick counter and counts, and counting leaves the rest alone. -/
theorem emptyQueueWaitsOneTick : Obligations.EmptyQueueWaitsOneTick := by
  intro s h
  refine ⟨idleTick s, by rw [step, h], h, rfl, rfl, rfl, ?_⟩
  unfold idleTick tickEng
  simp

/-- Settles O6, by evaluation: the bounds hold of the values after reset, and the flash lists rising addresses. -/
theorem resetKeepsTheBounds : Obligations.ResetKeepsTheBounds := by
  refine ⟨?_, rfl, rfl, rfl, rfl, rfl⟩
  exact { state := .inl rfl, goal := nofun, rung := .inr (.inr (.inr rfl)), level := by decide, arith := by decide, cap := by decide
          issue := nofun, held := by decide, bank := by decide, active := by decide, flash := by decide }

/-- Settles O7, by evaluation. -/
theorem resetLeavesTheseValues : Obligations.ResetLeavesTheseValues := by
  unfold Obligations.ResetLeavesTheseValues
  decide

/-- The highest of three rising thresholds that is reached. -/
theorem highest_reached (t : Nat) {a b : Nat} (hb : 95 ≤ b) (ha : b ≤ a) :
    let l := if a ≤ t then 3 else if b ≤ t then 2 else if 95 ≤ t then 1 else 0
    (l = 0 ↔ t < 95) ∧ (l = 3 ↔ a ≤ t) ∧ (2 ≤ l ↔ b ≤ t) := by
  dsimp only
  split
  · omega
  · split
    · omega
    · split <;> omega

/-- Settles O52: with nothing lowered each threshold is its base, and the level is the highest threshold reached. -/
theorem thermalLevelsAreReached : Obligations.ThermalLevelsAreReached := by
  intro pw kind t hk hl
  have ht (level : Nat) : Tab.get 0 pw.lowered (3 * kind + (level - 1)) = 0 := by rw [hl]; rfl
  have h1 : threshold pw kind 1 = 95 := by rw [threshold, ht]
  have h2 : threshold pw kind 2 = if kind = 3 then 100 else 105 := by
    unfold threshold
    rw [ht]
    obtain rfl | rfl | rfl | rfl : kind = 0 ∨ kind = 1 ∨ kind = 2 ∨ kind = 3 := by omega
    all_goals rfl
  have h3 : threshold pw kind 3 = if kind = 3 then 105 else 115 := by
    unfold threshold
    rw [ht]
    obtain rfl | rfl | rfl | rfl : kind = 0 ∨ kind = 1 ∨ kind = 2 ∨ kind = 3 := by omega
    all_goals rfl
  have hlevel : levelOf pw kind t = if (if kind = 3 then 105 else 115) ≤ t then 3 else if (if kind = 3 then 100 else 105) ≤ t then 2
      else if 95 ≤ t then 1 else 0 := by
    rw [levelOf, h1, h2, h3]
  have hiff := highest_reached t (a := if kind = 3 then 105 else 115) (b := if kind = 3 then 100 else 105)
    (by split <;> omega) (by split <;> omega)
  rw [← hlevel] at hiff
  exact ⟨h1, h2, h3, hiff⟩

end Sys2Proof.Machine

/-! SUPPORT. The mailbox: a request written into the request area is the message it spells (R378, R379). -/

namespace Sys2Proof.Machine

/-- A request of the mailbox that is handled: its type, its tag, and the checks that pass. -/
structure Request (ty tag : Nat) (m : List Byte) : Prop where
  type : num m 0 1 = ty
  tag : num m 6 2 = tag
  known : ¬(ty = 0 ∨ 3 < ty)
  length : num m 4 2 = mbLen ty
  reserved : mbReservedOk m = true

section
variable {ty tag : Nat} {oos : Bool} {e : Eng} {m : List Byte}

/-- A request that passes its checks is the message of its type (R379). -/
theorem opMailbox_hello (hm : memRead 0 e.hl.mailbox 0 32 = m) (h : Request 1 tag m) : opMailbox oos e = opHello tag e := by
  obtain ⟨htype, htag, hknown, hlength, hreserved⟩ := h
  unfold opMailbox
  dsimp only
  rw [hm, htype, htag, if_neg hknown, hlength, hreserved]
  rfl

theorem opMailbox_attach (hm : memRead 0 e.hl.mailbox 0 32 = m) (h : Request 2 tag m) : opMailbox oos e = opAttach oos tag (num m 16 2) e := by
  obtain ⟨htype, htag, hknown, hlength, hreserved⟩ := h
  unfold opMailbox
  dsimp only
  rw [hm, htype, htag, if_neg hknown, hlength, hreserved]
  rfl

theorem opMailbox_drain (hm : memRead 0 e.hl.mailbox 0 32 = m) (h : Request 3 tag m) (hmode : num m 16 1 = 0) :
    opMailbox oos e = opDetachDrain tag (num m 18 4) e := by
  obtain ⟨htype, htag, hknown, hlength, hreserved⟩ := h
  unfold opMailbox
  dsimp only
  rw [hm, htype, htag, if_neg hknown, hlength, hreserved, hmode]
  rfl

theorem opMailbox_abandon (hm : memRead 0 e.hl.mailbox 0 32 = m) (h : Request 3 tag m) (hmode : num m 16 1 = 1) :
    opMailbox oos e = opDetachAbandon tag e := by
  obtain ⟨htype, htag, hknown, hlength, hreserved⟩ := h
  unfold opMailbox
  dsimp only
  rw [hm, htype, htag, if_neg hknown, hlength, hreserved, hmode]
  rfl

theorem leNat_tag (h : tag < 2 ^ 16) : leNat (leBytes 2 tag) = tag := by rw [leNat_leBytes, Nat.mod_eq_of_lt (by omega)]

/-- A request with its flags byte zero passes the check of its reserved fields where the rest does. -/
theorem mbReservedOk_of (h : (match ty with | 2 => allZero m 18 14 | 3 => num m 17 1 == 0 && allZero m 22 10 | _ => true) = true)
    (hf : num m 1 1 = 0) (ht : num m 0 1 = ty) (hz : allZero m 8 8 = true) : mbReservedOk m = true := by
  unfold mbReservedOk
  rw [hf, ht, hz]
  exact h

/-- The length field of a request. -/
theorem leNat_length {body : List Byte} (h : body.length = 16) : leNat (leBytes 2 body.length) = 16 := by
  rw [h]
  exact leNat_leBytes 2 16

theorem request_hello (h : tag < 2 ^ 16) (rest : List Byte) : Request 1 tag (mbRequest 1 tag [] ++ rest) :=
  ⟨rfl, leNat_tag h, by decide, rfl, mbReservedOk_of rfl rfl rfl rfl⟩

theorem request_attach (h : tag < 2 ^ 16) (ms : Nat) : Request 2 tag (mbRequest 2 tag (leBytes 2 ms ++ zeros 14)) :=
  ⟨rfl, leNat_tag h, by decide, leNat_length rfl, mbReservedOk_of rfl rfl rfl rfl⟩

theorem request_drain (h : tag < 2 ^ 16) (drain : Nat) : Request 3 tag (mbRequest 3 tag ([0, 0] ++ leBytes 4 drain ++ zeros 10)) :=
  ⟨rfl, leNat_tag h, by decide, leNat_length rfl, mbReservedOk_of rfl rfl rfl rfl⟩

theorem request_abandon (h : tag < 2 ^ 16) : Request 3 tag (mbRequest 3 tag ([1] ++ zeros 15)) :=
  ⟨rfl, leNat_tag h, by decide, rfl, mbReservedOk_of rfl rfl rfl rfl⟩

/-- The request area after a request of 32 bytes is that request. -/
theorem memRead_request (w : Memory.wf 0 e.hl.mailbox = true) {req : List Byte} (hl : req.length = 32) :
    memRead 0 (mbWrite 0 req e).hl.mailbox 0 32 = req := hl ▸ memRead_memPut w 0 req

/-- A shorter request lies at the start of the area. -/
theorem memRead_request_hello (w : Memory.wf 0 e.hl.mailbox = true) :
    ∃ rest, memRead 0 (mbWrite 0 (mbRequest 1 tag []) e).hl.mailbox 0 32 = mbRequest 1 tag [] ++ rest :=
  ⟨_, by
    rw [show 32 = 16 + 16 from rfl, memRead_add]
    exact congrArg (· ++ _) (memRead_memPut w 0 (mbRequest 1 tag []))⟩

end

theorem onEng_congr {f g : Eng → Eng} {s : State} (h : f s.eng = g s.eng) : onEng f s = onEng g s := by rw [onEng, onEng, h]

/-- A mailbox message is the doorbell on its request, where the doorbell handles that request as the message. -/
theorem ioRow_mbMessage {s : State} (hio : ioUp s = true) (ty tag : Nat) (body : List Byte) (op : State → State)
    (h : op (onEng (mbWrite 0 (mbRequest ty tag body)) s) =
      onEng (opMailbox s.fw.oos) (onEng (mbWrite 0 (mbRequest ty tag body)) s)) :
    ioRow (mbMessage ty tag body op) s = exec .mailboxDoorbell (onEng (mbWrite 0 (mbRequest ty tag body)) s) := by
  change _ = ioRow ringMailbox _
  rw [ioRow_up hio, ioRow_up (s := onEng _ s) hio, mbMessage, ringMailbox]
  dsimp only
  rw [h]
  rfl

/-- Settles O20: the request lies in the area as the message spells it, so the doorbell parses it back. -/
theorem mailboxRowsAreTheirMessages : Obligations.MailboxRowsAreTheirMessages := by
  intro tag ms drain s htag hms hdrain w hio
  refine ⟨?_, ?_, ?_, ?_, fun hs => ?_, fun hs => ?_⟩
  · obtain ⟨rest, hm⟩ := memRead_request_hello (tag := tag) w
    exact ioRow_mbMessage hio _ _ _ _ (onEng_congr (opMailbox_hello hm (request_hello htag rest)).symm)
  · have h := opMailbox_attach (oos := s.fw.oos) (memRead_request w rfl) (request_attach htag ms)
    have hnum : num (mbRequest 2 tag (leBytes 2 ms ++ zeros 14)) 16 2 = ms := leNat_tag hms
    rw [hnum] at h
    exact ioRow_mbMessage hio _ _ _ _ (onEng_congr h.symm)
  · have h := opMailbox_drain (oos := s.fw.oos) (memRead_request w rfl) (request_drain htag drain) rfl
    have hnum : num (mbRequest 3 tag ([0, 0] ++ leBytes 4 drain ++ zeros 10)) 18 4 = drain := by
      change leNat (leBytes 4 drain) = drain
      rw [leNat_leBytes, Nat.mod_eq_of_lt (by omega)]
    rw [hnum] at h
    exact ioRow_mbMessage hio _ _ _ _ (onEng_congr h.symm)
  · have h := opMailbox_abandon (oos := s.fw.oos) (memRead_request w rfl) (request_abandon htag) rfl
    exact ioRow_mbMessage hio _ _ _ _ (onEng_congr h.symm)
  · change ioRow ringMailbox s = _
    rw [ioRow_up hio, ringMailbox, if_pos hs]
  · change ioRow ringMailbox s = _
    rw [ioRow_up hio, ringMailbox, hs]
    rfl

end Sys2Proof.Machine

/-! SUPPORT. Counters: what counting leaves of every slot, what raising events can count in, and engines whose counters are far from
full (R539). -/

namespace Sys2Proof.Machine

/-- The counter of a slot. -/
def counterOf (e : Eng) (slot : Nat) : Counter := Tab.get {} e.ctr slot

/-! ## One slot -/

theorem bump_zero (slot : Nat) (e : Eng) : bump slot 0 e = (e, false) := rfl

theorem bump_pos {n : Nat} (h : n ≠ 0) (slot : Nat) (e : Eng) :
    bump slot n e = ({ e with ctr := Tab.set e.ctr slot ((counterOf e slot).add n) }, ((counterOf e slot).add n).sat && !(counterOf e slot).sat) := by
  rw [bump, if_neg h]
  rfl

theorem bump_onlyCtr (slot n : Nat) (e : Eng) : (bump slot n e).1 = { e with ctr := (bump slot n e).1.ctr } := by
  by_cases h : n = 0
  · subst h; rfl
  · rw [bump_pos h]

theorem counterOf_bump {n : Nat} (h : n ≠ 0) (slot x : Nat) (e : Eng) :
    counterOf (bump slot n e).1 x = if x = slot then (counterOf e slot).add n else counterOf e x := by
  rw [bump_pos h]
  exact tabGet_set {} e.ctr slot x _

theorem counterOf_bump_ne {slot x : Nat} (h : x ≠ slot) (n : Nat) (e : Eng) : counterOf (bump slot n e).1 x = counterOf e x := by
  by_cases hn : n = 0
  · subst hn; rfl
  · rw [counterOf_bump hn, if_neg h]

theorem count_zero (slot : Nat) (e : Eng) : count slot 0 e = e := rfl

/-! ## What raising events counts in -/

/-- `b` follows `a` with no other counter changed than those raising an event counts in, and no record lost from the Nightwatch queue. -/
structure Raised (a b : Eng) : Prop where
  counters : ∀ x, x ∉ noteSlots → counterOf b x = counterOf a x
  records : a.nwEvents <+: b.nwEvents

theorem Raised.rfl (e : Eng) : Raised e e := ⟨fun _ _ => by rfl, List.prefix_refl _⟩

theorem Raised.trans {a b c : Eng} (h : Raised a b) (k : Raised b c) : Raised a c :=
  ⟨fun x hx => (k.counters x hx).trans (h.counters x hx), h.records.trans k.records⟩

theorem raised_bump {slot : Nat} (h : slot ∈ noteSlots) (n : Nat) (e : Eng) : Raised e (bump slot n e).1 := by
  refine ⟨fun x hx => counterOf_bump_ne (ne_of_mem_of_not_mem h hx).symm n e, ?_⟩
  have hev : (bump slot n e).1.nwEvents = e.nwEvents := by rw [bump_onlyCtr]
  exact hev ▸ List.prefix_refl _

theorem raised_bumps {l : List (Nat × Nat)} (h : ∀ p ∈ l, p.1 ∈ noteSlots) (e : Eng) : Raised e (bumps l e).1 := by
  induction l generalizing e with
  | nil => exact .rfl e
  | cons p t ih => exact (raised_bump (h p List.mem_cons_self) p.2 e).trans (ih (fun q hq => h q (List.mem_cons_of_mem p hq)) _)

theorem raised_putNwEvent (bs : List Byte) (e : Eng) : Raised e (putNwEvent bs e).1 := by
  unfold putNwEvent
  split
  · exact ⟨fun _ _ => by rfl, List.prefix_append _ _⟩
  · exact raised_bumps (by decide) e

theorem raised_putEventEntry (bs : List Byte) (e : Eng) : Raised e (putEventEntry bs e).1 :=
  .trans (b := setRing 128 (fun q => { q with wr := q.wr + 1 })
    { hostStore ((ring e 128).base + 32 * ((ring e 128).wr.toNat % (ring e 128).size)) bs e with
    hl := { e.hl with unacked := e.hl.unacked ++ [.record 128 (ring e 128).wr false] } }) ⟨fun _ _ => by rfl, List.prefix_refl _⟩
    (raised_bumps (by decide) _)

theorem raised_putHostEvent (bs : List Byte) (e : Eng) : Raised e (putHostEvent bs e).1 := by
  unfold putHostEvent
  split
  · exact raised_putEventEntry bs e
  · split
    · exact ⟨fun _ _ => by rfl, List.prefix_refl _⟩
    · exact .trans (b := { e with hl := { e.hl with evLost := e.hl.evLost + 1 } }) ⟨fun _ _ => by rfl, List.prefix_refl _⟩
        (raised_bumps (by decide) _)

theorem raised_putEvent (v : Event) (e : Eng) : Raised e (putEvent v e).1 :=
  (raised_putNwEvent (eventBytes e v) e).trans (raised_putHostEvent _ _)

theorem raised_putEvents (l : List Event) (e : Eng) : Raised e (putEvents l e).1 := by
  induction l generalizing e with
  | nil => exact .rfl e
  | cons v t ih => exact (raised_putEvent v e).trans (ih _)

theorem raised_postEvents (n : Nat) (l : List Event) (e : Eng) : Raised e (postEvents n l e) := by
  induction n generalizing l e with
  | zero => exact .rfl e
  | succ n ih =>
    unfold postEvents
    dsimp only
    split
    · exact raised_putEvents l e
    · exact (raised_putEvents l e).trans (ih _ _)

theorem raised_raiseEvent (v : Event) (e : Eng) : Raised e (raiseEvent v e) := raised_postEvents 8 [v] e

/-- The record of an event enters the Nightwatch queue while it has room (R525). -/
theorem mem_nwEvents_putEvent (v : Event) {e : Eng} (h : e.nwEvents.length < 64) : eventBytes e v ∈ (putEvent v e).1.nwEvents := by
  refine (raised_putHostEvent _ (putNwEvent (eventBytes e v) e).1).records.subset ?_
  rw [putNwEvent, if_pos h]
  exact List.mem_append_right _ (List.mem_singleton_self _)

theorem mem_nwEvents_raiseEvent (v : Event) {e : Eng} (h : e.nwEvents.length < 64) : eventBytes e v ∈ (raiseEvent v e).nwEvents := by
  have hv : eventBytes e v ∈ (putEvents [v] e).1.nwEvents := mem_nwEvents_putEvent v h
  unfold raiseEvent postEvents
  dsimp only
  split
  · exact hv
  · exact (raised_postEvents 7 _ _).records.subset hv

/-- A slot that raising an event does not count in holds what counting left there. -/
theorem counterOf_count {slot : Nat} (h : slot ∉ noteSlots) (n : Nat) (e : Eng) :
    counterOf (count slot n e) slot = counterOf (bump slot n e).1 slot := by
  unfold count
  dsimp only
  split
  · exact (raised_raiseEvent _ _).counters slot h
  · rfl

/-! ## Engines whose counters are far from full -/

/-- `k` more events saturate no counter. -/
def FarBy (k : Nat) (e : Eng) : Prop := ∀ slot, (counterOf e slot).value + k < counterMax

theorem FarBy.le {j k : Nat} {e : Eng} (h : FarBy k e) (hj : j ≤ k) : FarBy j e := fun slot => by have := h slot; omega

theorem farBy_of_farFromFull {e : Eng} (h : farFromFull e) {k : Nat} (hk : k < 2 ^ 32) : FarBy k e := fun slot => by
  have := h slot
  unfold counterOf counterMax
  omega

theorem Counter.add_of_lt {c : Counter} {n : Nat} (h : c.value + n < counterMax) : c.add n = { c with value := c.value + n } := by
  rw [Counter.add, if_neg (by omega)]

theorem bump_far {k n : Nat} {e : Eng} (h : FarBy k e) (hn : n ≤ k) (slot : Nat) :
    (bump slot n e).2 = false ∧ FarBy (k - n) (bump slot n e).1 ∧
      ∀ x, (counterOf (bump slot n e).1 x).value = (counterOf e x).value + if x = slot then n else 0 := by
  by_cases h0 : n = 0
  · subst h0
    exact ⟨rfl, h, fun x => by split <;> rfl⟩
  · have hadd := Counter.add_of_lt (h.le hn slot)
    have hval (x : Nat) : (counterOf (bump slot n e).1 x).value = (counterOf e x).value + if x = slot then n else 0 := by
      rw [counterOf_bump h0, hadd]
      by_cases hx : x = slot
      · rw [if_pos hx, if_pos hx, hx]
      · rw [if_neg hx, if_neg hx, Nat.add_zero]
    refine ⟨?_, fun x => ?_, hval⟩
    · rw [bump_pos h0, hadd, Bool.and_not_self]
    · have := h x
      rw [hval]
      split <;> omega

theorem count_far {k n : Nat} {e : Eng} (h : FarBy k e) (hn : n ≤ k) (slot : Nat) : count slot n e = (bump slot n e).1 := by
  unfold count
  dsimp only
  rw [(bump_far h hn slot).1]
  rfl

/-- Events counted in all. -/
def total (l : List (Nat × Nat)) : Nat := (l.map (·.2)).sum

/-- Events counted in one slot. -/
def totalAt (l : List (Nat × Nat)) (x : Nat) : Nat := (l.map (fun p => if x = p.1 then p.2 else 0)).sum

theorem bumps_onlyCtr (l : List (Nat × Nat)) (e : Eng) : (bumps l e).1 = { e with ctr := (bumps l e).1.ctr } := by
  induction l generalizing e with
  | nil => rfl
  | cons p t ih =>
    change (bumps t (bump p.1 p.2 e).1).1 = { e with ctr := (bumps t (bump p.1 p.2 e).1).1.ctr }
    rw [ih, bump_onlyCtr]

theorem bumps_far {k : Nat} {l : List (Nat × Nat)} {e : Eng} (h : FarBy k e) (hl : total l ≤ k) :
    (bumps l e).2 = [] ∧ FarBy (k - total l) (bumps l e).1 ∧
      ∀ x, (counterOf (bumps l e).1 x).value = (counterOf e x).value + totalAt l x := by
  induction l generalizing e k with
  | nil => exact ⟨rfl, h, fun _ => rfl⟩
  | cons p t ih =>
    have ht : total (p :: t) = p.2 + total t := List.sum_cons
    obtain ⟨hsat, hfar, hval⟩ := bump_far h (by omega : p.2 ≤ k) p.1
    obtain ⟨isat, ifar, ival⟩ := ih hfar (by omega)
    have h2 : (bumps (p :: t) e).2 = if (bump p.1 p.2 e).2 then p.1 :: (bumps t (bump p.1 p.2 e).1).2 else (bumps t (bump p.1 p.2 e).1).2 := rfl
    refine ⟨by rw [h2, hsat, isat]; rfl, ?_, fun x => ?_⟩
    · rw [ht, Nat.sub_add_eq]
      exact ifar
    · change (counterOf (bumps t (bump p.1 p.2 e).1).1 x).value = _
      rw [ival, hval, Nat.add_assoc]
      rfl

theorem counts_far {k : Nat} {l : List (Nat × Nat)} {e : Eng} (h : FarBy k e) (hl : total l ≤ k) : counts l e = (bumps l e).1 := by
  induction l generalizing e k with
  | nil => rfl
  | cons p t ih =>
    have ht : total (p :: t) = p.2 + total t := List.sum_cons
    rw [counts, count_far h (by omega), ih (bump_far h (by omega : p.2 ≤ k) p.1).2.1 (by omega)]
    rfl

/-! ## What adding leaves -/

theorem Counter.add_value (c : Counter) (n : Nat) : (c.add n).value = min (c.value + n) (2 ^ 64 - 1) := by
  unfold Counter.add counterMax
  split
  · exact (Nat.min_eq_right ‹_›).symm
  · exact (Nat.min_eq_left (Nat.le_of_not_le ‹_›)).symm

theorem Counter.add_sat (c : Counter) (n : Nat) : (c.add n).sat = (c.sat || decide (2 ^ 64 - 1 ≤ c.value + n)) := by
  unfold Counter.add counterMax
  split
  · next h => rw [decide_eq_true h, Bool.or_true]
  · next h => rw [decide_eq_false h, Bool.or_false]

theorem Counter.add_latches (c : Counter) (n : Nat) : (c.add n).latchHost = c.latchHost ∧ (c.add n).latchNw = c.latchNw := by
  unfold Counter.add
  split <;> exact ⟨rfl, rfl⟩

/-- A slot that saturates raises its record (R539). -/
theorem mem_nwEvents_count {slot n : Nat} {e : Eng} (hn : n ≠ 0) (hsat : ((counterOf e slot).add n).sat = true) (hno : (counterOf e slot).sat = false)
    (hroom : e.nwEvents.length < 64) : eventBytes e (satEvent slot) ∈ (count slot n e).nwEvents := by
  rw [count, bump_pos hn slot e, hsat, hno]
  exact mem_nwEvents_raiseEvent (satEvent slot) (e := { e with ctr := _ }) hroom

/-- Settles O23: a slot other than those an event counts in holds what adding left, and the record of its event is queued. -/
theorem countersSaturate : Obligations.CountersSaturate := by
  intro slot n e hslot _ hn
  have hc : Tab.get {} (count slot n e).ctr slot = (counterOf e slot).add n :=
    (counterOf_count hslot n e).trans ((counterOf_bump hn slot slot e).trans (if_pos rfl))
  dsimp only
  rw [hc]
  exact ⟨Counter.add_value _ n, Counter.add_sat _ n, (Counter.add_latches _ n).1, (Counter.add_latches _ n).2, mem_nwEvents_count hn⟩

end Sys2Proof.Machine

/-! SUPPORT. Counter clears (R538, R540). -/

namespace Sys2Proof.Machine

/-! ## Clearing a counter -/

theorem counterSlots_lt : ∀ slot ∈ counterSlots, slot < 0x1000000 := by decide +kernel

/-- A write of VALUE_LO or VALUE_HI of a slot, by any path. -/
theorem regWrite_counter {slot k : Nat} (hslot : slot ∈ counterSlots) (hk : k = 0 ∨ k = 4) (p : Path) (v : Nat) (s : State) :
    regWrite p (slot + k) v s =
      onEng (fun e => if gauges.contains slot || (p == .host && jobCounters.contains slot) then e else clearCounter slot e) s := by
  obtain ⟨h16, h800⟩ := counterSlots_layout slot hslot
  have hlt := counterSlots_lt slot hslot
  have hbase : (slot + k) / 16 * 16 = slot := by omega
  have hlow : ¬8 ≤ (slot + k) % 16 := by omega
  rw [regWrite, if_neg (by omega), if_pos (by omega)]
  unfold onEng counterWrite
  dsimp only
  rw [hbase, decide_eq_false hlow, List.contains_iff_mem.mpr hslot]
  simp only [Bool.not_true, Bool.false_or, Bool.or_false]

theorem noted_clearCounter (slot : Nat) (e : Eng) : Noted e (clearCounter slot e) :=
  ⟨_, e.nwEvents, e.host, e.hl.rings, e.hl.irqs, e.hl.unacked, e.hl.evHeld, e.hl.evLost, rfl⟩

/-- Settles O24: the write reaches the slot's counter, unless the slot ignores it. -/
theorem counterWritesClear : Obligations.CounterWritesClear := by
  intro p slot k s hslot hk hio hc
  obtain ⟨h16, _⟩ := counterSlots_layout slot hslot
  rw [exec_counterClear_aligned p (by omega), ioRow_up hio, regWrite_counter hslot hk]
  refine ⟨fun hg hj => ⟨?_, fun x => tabGet_set {} s.eng.ctr slot x {}⟩, fun hg => ?_⟩
  · have hoff : (gauges.contains slot || (p == .host && jobCounters.contains slot)) = false := by simpa [hg] using hj
    simp only [hoff, Bool.false_eq_true, if_false]
    rw [settle_noted hc (noted_clearCounter slot s.eng)]
  · have hon : (gauges.contains slot || (p == .host && jobCounters.contains slot)) = true := by simpa using hg
    simp only [hon, if_true]
    rw [settle_noted (f := fun e => e) hc (.rfl s.eng)]
    rfl

end Sys2Proof.Machine

/-! SUPPORT. Nightwatch requests that are answered: power caps, register writes, power states and JOB_CLEAR (R499, R507, R523, R524). -/

namespace Sys2Proof.Machine

/-! ## Answered requests -/

theorem calmEng_of_calm {s : State} (h : calm s = true) : calmEng s.eng = true := by
  simp only [calm, Bool.and_eq_true] at h
  exact h.1.1.1.1.1.1

theorem goal_of_calm {s : State} (h : calm s = true) : s.pw.goal = none := by
  simp only [calm, Bool.and_eq_true, Option.isNone_iff_eq_none] at h
  exact h.1.1.1.1.1.2

theorem held_of_calm {s : State} (h : calm s = true) : s.nw.held = [] := by
  simp only [calm, Bool.and_eq_true, List.isEmpty_iff] at h
  exact h.1.1.2

/-- A calm engine settles to itself after a change that keeps the data path calm, and gives no transition, request or activation a turn. -/
theorem settle_still {s t : State} (h : calm s = true) (hc : calmEng t.eng = true) (hm : t.eng.hl.mbHeld = s.eng.hl.mbHeld)
    (hs : t.eng.stopped = s.eng.stopped) (hb : t.eng.build = s.eng.build) (hg : t.pw.goal = s.pw.goal) (hh : t.nw.held = s.nw.held)
    (hf : t.fw = s.fw) : settle t = t := by
  apply settle_calm
  simp only [calm, hc, hm, hs, hb, hg, hh, hf]
  simpa only [calm, calmEng_of_calm h] using h

/-- A reply changes nothing that could go on by itself. -/
theorem settle_nwReply {s t : State} (h : calm s = true) (he : t.eng = s.eng) (hg : t.pw.goal = s.pw.goal) (hh : t.nw.held = s.nw.held)
    (hf : t.fw = s.fw) (msg tag status : Nat) (body : List Byte) : settle (nwReply msg tag status body t) = nwReply msg tag status body t := by
  have hn : Noted s.eng (nwReply msg tag status body t).eng := he ▸ noted_counts _ _
  exact settle_still h (hn.calm.trans (calmEng_of_calm h)) hn.hl_mbHeld hn.stopped hn.build hg hh hf

/-- A request that is served, with a good header, acts. -/
theorem exec_request {i : Instr} {s : State} {msg tag : Nat} (hi : exec i s = sysRow (nwAsk i) s) (hm : nwHeader i = some (msg, { tag }))
    (hs : nwServed s = true) (hc : calm s = true) : exec i s = .next (settle (nwBody i s)) := by
  have hr : nwRun i s = nwBody i s := by
    rw [nwRun, hm]
    rfl
  rw [hi, sysRow, nwAsk_served hs (held_of_calm hc) (goal_of_calm hc), hr]

/-- A refused request is answered, counted as refused, and has no other effect. -/
theorem settle_refused {s : State} (h : calm s = true) (msg tag : Nat) {status : Nat} (hs : status ≠ 0) :
    settle (nwReply msg tag status [] s) =
      { s with
        eng := counts [(0x14800, 1), (0x14810, 1)] s.eng
        nw := { s.nw with replies := s.nw.replies ++ [{ msg, tag, status, body := [] }] } } := by
  rw [settle_nwReply h rfl rfl rfl rfl, nwReply, if_neg hs]

/-! ## Power caps -/

theorem capSet_askCap (watts ms : Nat) (s : State) :
    capSet (askCap watts ms s).pw =
      (clampCap s.eng.variant watts, clampWindow (match s.pw.newCap with | some q => q.2 | none => s.pw.capWindow) ms) := by
  cases h : s.pw.newCap <;> simp only [capSet, askCap, h] <;> rfl

/-- Settles O57: the cap asked for is clamped, and the reply gives it. -/
theorem powerCapsAreClamped : Obligations.PowerCapsAreClamped := by
  intro tag watts ms s hs hc
  rw [exec_request rfl rfl hs hc]
  change Host.Outcome.next (settle (nwPowerCap tag watts ms s)) = _
  unfold nwPowerCap
  dsimp only
  rw [settle_nwReply (t := askCap watts ms s) hc rfl rfl rfl rfl, capSet_askCap]
  cases h : s.pw.newCap <;> simp only [askCap, h] <;> rfl

/-! ## Register writes -/

theorem nwWritable_iff (off : Nat) : nwWritable off = true ↔ (0x11000 ≤ off ∧ off < 0x15000) ∨ off / 16 * 16 ∈ counterSlots := by
  rw [nwWritable, Bool.or_eq_true, List.contains_iff_mem, decide_eq_true_eq]
  exact or_congr_left (by omega)

/-- Settles O58: a write outside the blocks and the counters is refused with DENIED. -/
theorem nightwatchWritesArePermitted : Obligations.NightwatchWritesArePermitted := by
  intro tag off v s hs hc h4 hlt
  have hrun : exec (.regWrite { tag } off v) s =
      .next (settle (if !nwWritable off then nwReply 0x11 tag nwDenied [] s else nwReply 0x11 tag 0 [] (regWrite .nightwatch off v.toNat s))) := by
    rw [exec_request rfl rfl hs hc]
    change Host.Outcome.next (settle (nwRegWrite tag off v s)) = _
    rw [nwRegWrite, if_neg (by omega)]
  rw [hrun]
  refine ⟨fun hout hctr => ?_, fun hin => ?_⟩
  · have hw : nwWritable off = false := Bool.eq_false_iff.mpr fun h => ((nwWritable_iff off).mp h).elim hout hctr
    rw [hw, Bool.not_false, if_pos rfl, settle_refused hc _ _ (by decide)]
  · rw [(nwWritable_iff off).mpr hin]
    rfl

/-! ## Power states -/

theorem partnerPaired_iff (e : Eng) : partnerPaired e = false ↔ ∀ p, e.rg.partner = some p → p.state ≠ .paired := by
  unfold partnerPaired
  cases h : e.rg.partner <;> simp

/-- What SET_POWER_STATE does to an engine in A0 and in service, by its checks in order. -/
theorem nwPowerLow_refused {s : State} {tag target st : Nat} {force : Bool} (hc : calm s = true) (hoos : s.fw.oos = false)
    (hrec : s.fw.recovery = false) (hp : s.pw.state = 0) (ht : target = 2 ∨ target = 3) (h0 : st ≠ 0)
    (hst : st = (if s.eng.hl.attach ≠ .detached then 2 else if s.fw.actPending = true ∨ s.fw.actRunning = true then 6
      else if force = false ∧ (∀ p, s.eng.rg.partner = some p → p.state ≠ .paired) then 2 else 0)) :
    nwPowerLow tag target force s = nwReply 0x31 tag st [] s := by
  unfold nwPowerLow
  dsimp only
  rw [hoos, hrec, hp, goal_of_calm hc]
  by_cases ha : s.eng.hl.attach = .detached
  case neg =>
    rw [if_pos ha] at hst
    rw [if_pos (by simp [ha]), hst]
  rw [if_neg (not_not_intro ha)] at hst
  rw [if_neg (by simp [ha])]
  by_cases hb : s.fw.actPending = true ∨ s.fw.actRunning = true
  case pos =>
    rw [if_pos hb] at hst
    rw [if_pos (by simpa using hb), hst]
  rw [if_neg hb] at hst
  rw [if_neg (by simpa using hb), if_neg (by omega), if_neg (by omega)]
  by_cases hf : force = false ∧ ∀ p, s.eng.rg.partner = some p → p.state ≠ .paired
  case neg => exact absurd (hst.trans (if_neg hf)) h0
  rw [if_pos hf] at hst
  rw [if_pos (by simp [hf.1, (partnerPaired_iff s.eng).mpr hf.2]), hst]

/-- Settles O59: each check in its order answers, and nothing else changes. -/
theorem powerStateRequestsAreChecked : Obligations.PowerStateRequestsAreChecked := by
  intro tag target st force s hs hc hoos hrec hp i hst ht h0
  have hi : exec i s = .next (settle (nwPowerLow tag target force s)) := by
    rcases ht with rfl | rfl
    · exact exec_request rfl rfl hs hc
    · exact exec_request rfl rfl hs hc
  rw [hi, nwPowerLow_refused hc hoos hrec hp ht h0 hst, settle_refused hc _ _ h0]

/-! ## JOB_CLEAR -/

theorem counterOf_clearCounter (slot x : Nat) (e : Eng) : counterOf (clearCounter slot e) x = if x = slot then {} else counterOf e x := by
  unfold counterOf clearCounter
  exact tabGet_set {} e.ctr slot x {}

/-- The slots of a list read as cleared; the others keep their counters. -/
theorem counterOf_clearCounters (l : List Nat) (x : Nat) (e : Eng) :
    counterOf (l.foldl (fun e c => clearCounter c e) e) x = if x ∈ l then {} else counterOf e x := by
  induction l generalizing e with
  | nil => rfl
  | cons c t ih =>
    rw [List.foldl_cons, ih, counterOf_clearCounter]
    by_cases hx : x = c <;> simp [hx]

theorem clearCounters_onlyCtr (l : List Nat) (e : Eng) :
    l.foldl (fun e c => clearCounter c e) e = { e with ctr := (l.foldl (fun e c => clearCounter c e) e).ctr } := by
  induction l generalizing e with
  | nil => rfl
  | cons c t ih =>
    rw [List.foldl_cons, ih]
    rfl

theorem imageRoutes_onlyFb (ss : List (Nat × List Byte)) (e : Eng) :
    ∃ fb, imageRoutes ss e = { e with fb } ∧ fb.gen = e.fb.gen ∧ fb.linksUp = e.fb.linksUp := by
  unfold imageRoutes
  dsimp only
  split <;> exact ⟨_, rfl, rfl, rfl⟩

/-- What clearing the job leaves. -/
structure Cleared (e t : Eng) : Prop where
  active : t.ls.active = emptyConf
  pend : t.ls.pend = none
  steps : t.steps = {}
  hl : t.hl = { e.hl with cmds := [] }
  own : t.rg.own = []
  custody : t.rg.custody = []
  standDown : t.rg.standDown = e.rg.standDown
  hotSets : t.store.hotSets = []
  replicas : t.store.replicas = []
  allocs : t.store.allocs = []
  counters : ∀ x, counterOf t x = if x ∈ jobCounters then {} else counterOf e x
  mt : t.mt = e.mt
  st : t.st = e.st
  gen : t.fb.gen = e.fb.gen
  linksUp : t.fb.linksUp = e.fb.linksUp
  stopped : t.stopped = e.stopped
  build : t.build = e.build

theorem cleared_clearJob (ss : List (Nat × List Byte)) (e : Eng) : Cleared e (clearJob ss e) := by
  obtain ⟨fb, hfb, hgen, hlinks⟩ := imageRoutes_onlyFb ss e
  have hctr := fun x => counterOf_clearCounters jobCounters x (imageRoutes ss e)
  unfold clearJob clearJobCounters
  rw [hfb] at hctr ⊢
  rw [clearCounters_onlyCtr] at hctr ⊢
  generalize (jobCounters.foldl (fun e c => clearCounter c e) { e with fb }).ctr = ctr at hctr ⊢
  exact ⟨rfl, rfl, rfl, rfl, rfl, rfl, rfl, rfl, rfl, rfl, hctr, rfl, rfl, hgen, hlinks, rfl, rfl⟩

theorem Cleared.calm {e t : Eng} (h : Cleared e t) (hc : calmEng e = true) : calmEng t = true := by
  unfold calmEng at hc ⊢
  rw [h.stopped, h.mt, h.st, h.hl, h.steps, h.standDown]
  cases hs : e.stopped with
  | true => rfl
  | false =>
    simp only [hs, Bool.false_or, Bool.and_eq_true] at hc ⊢
    obtain ⟨⟨⟨⟨⟨⟨⟨⟨⟨hn, hr⟩, _⟩, _⟩, _⟩, _⟩, _⟩, hd⟩, hsl⟩, hsw⟩ := hc
    exact ⟨⟨⟨⟨⟨⟨⟨⟨⟨hn, hr⟩, rfl⟩, rfl⟩, rfl⟩, rfl⟩, rfl⟩, hd⟩, hsl⟩, hsw⟩

/-- Counting on a counter that is far from full touches only the counters. -/
theorem count_far_onlyCtr {e : Eng} (h : FarBy 1 e) (slot : Nat) : count slot 1 e = { e with ctr := (count slot 1 e).ctr } := by
  rw [count_far h (Nat.le_refl 1)]
  exact bump_onlyCtr slot 1 e

theorem Cleared.count {e t : Eng} (h : Cleared e t) (hf : farFromFull e) {slot : Nat} (hs : slot ∉ jobCounters) :
    (∀ x ∈ jobCounters, counterOf (count slot 1 t) x = {}) ∧ Machine.count slot 1 t = { t with ctr := (Machine.count slot 1 t).ctr } := by
  have hfar : FarBy 1 t := fun x => by
    rw [h.counters]
    split
    · decide
    · exact farBy_of_farFromFull hf (by decide) x
  refine ⟨fun x hx => ?_, count_far_onlyCtr hfar slot⟩
  rw [count_far hfar (Nat.le_refl 1), counterOf_bump_ne (ne_of_mem_of_not_mem hx hs), h.counters, if_pos hx]

theorem canClear_iff (e : Eng) : canClear e = true ↔
    e.hl.attach = .detached ∧ e.steps.openStep = none ∧ e.steps.closing = none ∧ ∀ c ∈ e.hl.cmds, readOnly c.desc = true := by
  simp only [canClear, Bool.and_eq_true, beq_iff_eq, Option.isNone_iff_eq_none, List.all_eq_true, and_assoc]

/-- Settles O60: refused without effect, or the job's state is what clearing leaves. -/
theorem jobClearEndsTheJob : Obligations.JobClearEndsTheJob := by
  intro tag b s hs hc hfar
  have hrun : exec (.jobClear { tag } b) s = .next (settle (nwJobClear tag b s)) := exec_request rfl rfl hs hc
  rw [hrun]
  refine ⟨fun hno => ?_, fun ha ho hcl hr hp => ?_⟩
  · have hcan : canClear s.eng = false := by
      rw [Bool.eq_false_iff, Ne, canClear_iff]
      rintro ⟨ha, ho, _, hr⟩
      rcases hno with h | h | ⟨c, hmem, h⟩
      · exact h ha
      · exact h ho
      · exact absurd (hr c hmem) (by rw [h]; decide)
    rw [nwJobClear, hcan, Bool.not_false, if_pos rfl, settle_refused hc _ _ (by decide)]
  · rw [nwJobClear, (canClear_iff s.eng).mpr ⟨ha, ho, hcl, hr⟩, Bool.not_true, if_neg (by decide), if_neg hp]
    have hclr := cleared_clearJob (usedSections s.fw) s.eng
    have ht : nwReply 0x36 tag 0 [] (onEng (clearJob (usedSections s.fw)) s) =
        { s with
          eng := count 0x14800 1 (clearJob (usedSections s.fw) s.eng)
          nw := { s.nw with replies := s.nw.replies ++ [{ msg := 0x36, tag, status := 0, body := [] }] } } := rfl
    rw [ht]
    generalize clearJob (usedSections s.fw) s.eng = e at hclr ⊢
    obtain ⟨hjob, honly⟩ := hclr.count hfar (slot := 0x14800) (by decide)
    generalize Machine.count 0x14800 1 e = e' at hjob honly ⊢
    have hcalm : calmEng e' = true := by
      rw [honly]
      exact hclr.calm (calmEng_of_calm hc)
    have hset := settle_still (s := s) (t := { s with
      eng := e', nw := { s.nw with replies := s.nw.replies ++ [{ msg := 0x36, tag, status := 0, body := [] }] } }) hc hcalm
      ((congrArg (·.hl.mbHeld) honly).trans (congrArg HostLink.mbHeld hclr.hl)) ((congrArg Eng.stopped honly).trans hclr.stopped)
      ((congrArg Eng.build honly).trans hclr.build) rfl rfl rfl
    refine ⟨_, congrArg Host.Outcome.next hset, ?_⟩
    dsimp only
    have hrings : e.hl.rings = s.eng.hl.rings := by rw [hclr.hl]
    have hcnt : ∀ c ∈ jobCounters, Tab.get {} e'.ctr c = {} := hjob
    rw [honly] at hcnt ⊢
    exact ⟨hclr.active, hclr.pend, hclr.steps, congrArg HostLink.cmds hclr.hl, hclr.own, hclr.custody, hclr.hotSets, hclr.replicas, hclr.allocs,
      hcnt, hrings, hclr.mt, hclr.gen, hclr.linksUp, rfl⟩

end Sys2Proof.Machine

/-! SUPPORT. Records, Almanac entries, stack addresses and settling queues: fields read back, and places name each other (R53, R255, R256,
R294, R369). -/

namespace Sys2Proof.Machine

/-! ## Completion records -/

theorem length_slice {d : List Byte} {o n : Nat} (h : o + n ≤ d.length) : (slice d o n).length = n := by
  rw [slice, List.length_take, List.length_drop, Nat.min_eq_left (by omega)]

theorem num_slice (d : List Byte) (o n : Nat) : num (slice d o n) 0 n = num d o n := by
  rw [num, slice, List.drop_zero, slice, List.take_take, Nat.min_self]
  rfl

theorem slice_append_left {a : List Byte} (b : List Byte) {n : Nat} (h : a.length = n) : slice (a ++ b) 0 n = a := by
  rw [slice, List.drop_zero, ← h, List.take_left]

/-- The last byte of a record: two flags. -/
theorem flags_record (p d : Bool) : flag p 0 + flag d 1 < 4 ∧ (flag p 0 + flag d 1).testBit 0 = p ∧ (flag p 0 + flag d 1).testBit 1 = d := by
  cases p <;> cases d <;> decide

/-- Settles O38: a record is its fields in a row, so each is read back from behind those before it (R369). -/
theorem completionRecordsAreLaidOut : Obligations.CompletionRecordsAreLaidOut := by
  intro c r hdesc hstatus hdetail hcount htable hrow
  have hlen8 := length_slice (d := c.desc) (o := 8) (n := 8) (by omega)
  have hlen1 := length_slice (d := c.desc) (o := 0) (n := 1) (by omega)
  have hop : num (slice c.desc 0 1) 0 1 = opcode c.desc := num_slice c.desc 0 1
  have hphase : num [(1 : Byte)] 0 1 = 1 := rfl
  have hseq := num_leBytes (n := 4) c.seq.isLt
  have hs := num_leBytes (n := 1) hstatus
  have hd := num_leBytes (n := 2) hdetail
  have hc := num_leBytes (n := 6) hcount
  have ht := num_leBytes (n := 2) htable
  have hr := num_leBytes (n := 5) hrow
  have hring := num_leBytes (n := 1) (v := c.ring % 64) (by omega)
  obtain ⟨hlt, hpartner, hdata⟩ := flags_record (r.partner || c.partner) (!r.data.isEmpty)
  have hflags := num_leBytes (n := 1) (Nat.lt_trans hlt (by decide))
  dsimp only
  refine ⟨?_, ?_, ?_⟩
  · simp only [recordBytes, List.length_append, hlen8, hlen1, length_leBytes, List.length_cons, List.length_nil]
  · simp only [recordBytes, List.append_assoc]
    exact slice_append_left _ hlen8
  · simp (disch := simp [hlen8, hlen1]) only [recordBytes, num_append_left, num_append_right, hop, hphase, hseq, hs, hd, hc, ht, hr, hring, hflags,
      hpartner, hdata, hlt, hlen8, hlen1, List.length_append, length_leBytes, List.length_cons, List.length_nil, Nat.reduceAdd,
      Nat.reduceSub, and_self]

/-! ## Almanac entries -/

theorem bit_eq (x lo : Nat) : bit x lo = decide (x / 2 ^ lo % 2 = 1) := Nat.testBit_eq_decide_div_mod_eq

theorem flag_eq (b : Bool) (lo : Nat) : flag b lo = b.toNat * 2 ^ lo := by cases b <;> simp [flag]

theorem alCheck_lt (bits t i : Nat) : alCheck bits t i < 128 := Nat.mod_lt _ (by decide)

/-- Settles O44: the fields lie apart from each other, and the check in the seven bits below them. -/
theorem almanacEntriesReadBack : Obligations.AlmanacEntriesReadBack := by
  intro a t i hv hf hu1 hu2 hc ho
  have hcheck := alCheck_lt a.bits t i
  have hbits : a.bits = a.version * 2 ^ 56 + a.valid.toNat * 2 ^ 55 + a.epoch.toNat * 2 ^ 54 + a.fmt * 2 ^ 50 + (a.units - 1) * 2 ^ 43 +
      a.channel * 2 ^ 32 + a.offset * 2 ^ 7 := by
    simp only [AlEntry.bits, at_, flag_eq]
  have hvalid : a.valid.toNat ≤ 1 := Bool.toNat_le _
  have hepoch : a.epoch.toNat ≤ 1 := Bool.toNat_le _
  have hbit (b : Bool) : decide (b.toNat = 1) = b := by cases b <;> rfl
  have hword : a.word t i = a.bits + alCheck a.bits t i := rfl
  have hlow : a.word t i % 128 = alCheck a.bits t i := by omega
  have hv55 : bit (a.word t i) 55 = a.valid := by
    rw [bit_eq, show a.word t i / 2 ^ 55 % 2 = a.valid.toNat by omega, hbit]
  refine ⟨?_, ?_, by omega⟩
  · have hv54 : bit (a.word t i) 54 = a.epoch := by
      rw [bit_eq, show a.word t i / 2 ^ 54 % 2 = a.epoch.toNat by omega, hbit]
    have h1 : fld (a.word t i) 56 8 = a.version := by unfold fld; omega
    have h2 : fld (a.word t i) 50 4 = a.fmt := by unfold fld; omega
    have h3 : fld (a.word t i) 43 7 + 1 = a.units := by unfold fld; omega
    have h4 : fld (a.word t i) 32 11 = a.channel := by unfold fld; omega
    have h5 : fld (a.word t i) 7 25 = a.offset := by unfold fld; omega
    rw [parseEntry, h1, hv55, hv54, h2, h3, h4, h5]
  · have hhigh : a.word t i - a.word t i % 128 = a.bits := by omega
    rw [entryGood, hv55, hhigh, hlow, beq_self_eq_true, Bool.and_true]

/-! ## Stack addresses -/

/-- A word of eight units of `c` channels, taken apart and put together again. -/
theorem interleave_apart {c ch o : Nat} (h : ch < c) :
    let u := (o / 8 * c + ch) * 8 + o % 8
    u / 8 % c = ch ∧ u / 8 / c * 8 + u % 8 = o := by
  intro u
  have hword : u / 8 = ch + c * (o / 8) := by rw [Nat.mul_comm c]; omega
  rw [hword, Nat.add_mul_mod_self_left, Nat.mod_eq_of_lt h, Nat.add_mul_div_left _ _ (Nat.zero_lt_of_lt h), Nat.div_eq_of_lt h]
  exact ⟨rfl, by omega⟩

theorem unitOf_stackAddr (e : Eng) {ch o : Nat} (h : ch < e.variant.channels) : unitOf e (stackAddr e ch o) = (ch, o) := by
  obtain ⟨hch, ho⟩ := interleave_apart (o := o) h
  unfold unitOf stackAddr
  dsimp only
  rw [Nat.mul_div_cancel _ (by decide), hch, ho]

theorem stackAddr_unitOf (e : Eng) (a : Nat) : stackAddr e (unitOf e a).1 (unitOf e a).2 + a % 32 = a := by
  have hw := Nat.div_add_mod' (a / 32 / 8) e.variant.channels
  unfold unitOf stackAddr
  dsimp only
  rw [show (a / 32 / 8 / e.variant.channels * 8 + a / 32 % 8) / 8 = a / 32 / 8 / e.variant.channels by omega, hw]
  omega

theorem stackAddr_bound (e : Eng) {ch o : Nat} (h : ch < e.variant.channels) (ho : o < 2 ^ 25) :
    stackAddr e ch o + 32 ≤ e.variant.channels * 2 ^ 30 := by
  have hword : o / 8 * e.variant.channels + ch + 1 ≤ 2 ^ 22 * e.variant.channels :=
    calc o / 8 * e.variant.channels + ch + 1 ≤ (o / 8 + 1) * e.variant.channels := by rw [Nat.add_one_mul]; omega
      _ ≤ 2 ^ 22 * e.variant.channels := Nat.mul_le_mul_right _ (by omega)
  unfold stackAddr
  omega

theorem bank_parts {b : Nat} (h : b < 64) : b = b % 4 + 4 * (b / 4 % 4) + 16 * (b / 16 % 4) := by omega

/-- Settles O45: the interleave is a mixed radix, and bank, row and column determine the offset. -/
theorem stackAddressesNameUnits : Obligations.StackAddressesNameUnits := by
  intro e ch o a h
  refine ⟨unitOf_stackAddr e h, stackAddr_unitOf e a, Nat.mod_lt _ (Nat.zero_lt_of_lt h), stackAddr_bound e h, fun hv => ?_, fun ho => ?_⟩
  · rw [stackAddr, hv]
    rfl
  · simp only [bankPlace, fld, Nat.reducePow, Nat.div_one]
    exact ⟨by omega, trivial, Nat.mod_lt _ (by decide), bank_parts (Nat.mod_lt _ (by decide)), fun _ => by omega, fun q hq hb hr hc => by omega⟩

/-! ## Settling queues -/

theorem length_insertItem (x : Item) (l : List Item) : (insertItem x l).length = l.length + 1 := by
  induction l with
  | nil => rfl
  | cons y t ih =>
    rw [insertItem]
    split
    · rfl
    · rw [List.length_cons, ih, List.length_cons]

theorem mem_insertItem {x y : Item} {l : List Item} : y ∈ insertItem x l ↔ y = x ∨ y ∈ l := by
  induction l with
  | nil => simp [insertItem]
  | cons z t ih =>
    rw [insertItem]
    split
    · exact List.mem_cons
    · rw [List.mem_cons, ih, List.mem_cons, or_left_comm]

theorem sorted_insertItem (x : Item) {l : List Item} (h : l.Pairwise (fun a b => a.key ≤ b.key)) :
    (insertItem x l).Pairwise (fun a b => a.key ≤ b.key) := by
  induction l with
  | nil => exact List.pairwise_singleton _ x
  | cons y t ih =>
    obtain ⟨hy, ht⟩ := List.pairwise_cons.mp h
    rw [insertItem]
    split
    · next hlt =>
      refine List.pairwise_cons.mpr ⟨fun z hz => ?_, h⟩
      rcases List.mem_cons.mp hz with rfl | hz
      · exact Nat.le_of_lt hlt
      · exact Nat.le_trans (Nat.le_of_lt hlt) (hy z hz)
    · next hge =>
      refine List.pairwise_cons.mpr ⟨fun z hz => ?_, ih ht⟩
      rcases mem_insertItem.mp hz with rfl | hz
      · exact Nat.not_lt.mp hge
      · exact hy z hz

/-- An item goes behind those of its key. -/
theorem filter_insertItem (x : Item) {l : List Item} (h : l.Pairwise (fun a b => a.key ≤ b.key)) (k : Nat) :
    (insertItem x l).filter (fun y => y.key == k) = l.filter (fun y => y.key == k) ++ if x.key = k then [x] else [] := by
  induction l with
  | nil => by_cases hk : x.key = k <;> simp [insertItem, hk]
  | cons y t ih =>
    obtain ⟨hy, ht⟩ := List.pairwise_cons.mp h
    rw [insertItem]
    split
    · next hlt =>
      by_cases hk : x.key = k
      · have hnone : (y :: t).filter (fun z => z.key == k) = [] := by
          refine List.filter_eq_nil_iff.mpr fun z hz => ?_
          have hle : y.key ≤ z.key := by
            rcases List.mem_cons.mp hz with rfl | hz
            · exact Nat.le_refl _
            · exact hy z hz
          simp only [beq_iff_eq]
          omega
        rw [List.filter_cons_of_pos (by simpa using hk), hnone, if_pos hk]
        rfl
      · rw [List.filter_cons_of_neg (by simpa using hk), if_neg hk, List.append_nil]
    · rw [List.filter_cons, List.filter_cons, ih ht]
      split <;> rfl

/-- Settles O47: the new item goes behind those of keys up to its own. -/
theorem settlingQueuesSort : Obligations.SettlingQueuesSort :=
  fun x l h => ⟨sorted_insertItem x h, length_insertItem x l, filter_insertItem x h⟩

end Sys2Proof.Machine

/-! SUPPORT. Events: where a record goes while no counter saturates, and the held records that follow once there is room (R375, R525). -/

namespace Sys2Proof.Machine

/-! ## One record -/

/-- The address of the event ring's entry `w`. -/
def eventEntry (q : Ring) (w : Word) : Nat := q.base + 32 * (w.toNat % 2 ^ q.sizeLog2)

/-- The data path with a record in the event ring's next entry. -/
def entryPut (bs : List Byte) (e : Eng) : Eng :=
  setRing 128 (fun q => { q with wr := q.wr + 1 })
    { hostStore (eventEntry (ring e 128) (ring e 128).wr) bs e with
      hl := { e.hl with unacked := e.hl.unacked ++ [.record 128 (ring e 128).wr false] } }

/-- What writing a record counts. -/
def entryCounts : List (Nat × Nat) := [(Ctr.hlEvents, 1), (Ctr.hlBytesOut, 32), (Ctr.ctJobHostBytes, 32)]

theorem totalAt_of_notMem {l : List (Nat × Nat)} {x : Nat} (h : x ∉ l.map (·.1)) : totalAt l x = 0 := by
  induction l with
  | nil => rfl
  | cons p t ih =>
    obtain ⟨hx, ht⟩ := not_or.mp (fun hm => h (List.mem_cons.mpr hm))
    have hhead : (if x = p.1 then p.2 else 0) = 0 := if_neg hx
    rw [totalAt, List.map_cons, List.sum_cons, hhead, Nat.zero_add]
    exact ih ht

/-- The data path changed as `f` says, and counted in the slots of a list without saturating one. -/
structure Counted (k : Nat) (l : List (Nat × Nat)) (e u : Eng) (r : Eng × List Nat) : Prop where
  sats : r.2 = []
  far : FarBy k r.1
  only : r.1 = { u with ctr := r.1.ctr }
  value : ∀ x, (counterOf r.1 x).value = (counterOf e x).value + totalAt l x

theorem counted_bumps {k : Nat} {l : List (Nat × Nat)} {e u : Eng} (h : FarBy (k + total l) e) (hu : u.ctr = e.ctr) :
    Counted k l e u (bumps l u) := by
  have hc (x : Nat) : counterOf u x = counterOf e x := by rw [counterOf, hu]; rfl
  obtain ⟨hsat, hfar, hval⟩ := bumps_far (k := k + total l) (l := l) (e := u) (fun x => (hc x).symm ▸ h x) (Nat.le_add_left _ _)
  exact ⟨hsat, Nat.add_sub_cancel k (total l) ▸ hfar, bumps_onlyCtr l u, fun x => hc x ▸ hval x⟩

/-- What the Nightwatch queue holds after a record, and what is counted. -/
theorem counted_putNwEvent {k : Nat} {e : Eng} (bs : List Byte) (h : FarBy (k + 1) e) :
    Counted k (if e.nwEvents.length < 64 then [] else [(Ctr.nwEventsLost, 1)]) e
      { e with nwEvents := if e.nwEvents.length < 64 then e.nwEvents ++ [bs] else e.nwEvents } (putNwEvent bs e) := by
  unfold putNwEvent
  split
  · exact ⟨rfl, h.le (Nat.le_succ k), rfl, fun _ => rfl⟩
  · exact counted_bumps h rfl

/-- The event ring takes a record now: it has room, and none is held before it. -/
def TakesRecord (e : Eng) : Prop := eventRoom e = true ∧ e.hl.evHeld = [] ∧ e.hl.evLost = 0

theorem takesRecord_iff (e : Eng) : (eventRoom e && e.hl.evHeld.isEmpty && e.hl.evLost == 0) = true ↔ TakesRecord e := by
  simp only [TakesRecord, Bool.and_eq_true, List.isEmpty_iff, beq_iff_eq, and_assoc]

theorem counted_putEventEntry {k : Nat} {e : Eng} (bs : List Byte) (h : FarBy (k + 65) e) :
    Counted k entryCounts e (entryPut bs e) (putEventEntry bs e) := counted_bumps h rfl

theorem putHostEvent_takes {e : Eng} (bs : List Byte) (h : TakesRecord e) : putHostEvent bs e = putEventEntry bs e := by
  rw [putHostEvent, if_pos ((takesRecord_iff e).mpr h)]

/-- What the host link holds after a record it cannot write. -/
def heldLink (bs : List Byte) (h : HostLink) : HostLink :=
  { h with
    evHeld := if h.evHeld.length < 256 then h.evHeld ++ [bs] else h.evHeld
    evLost := h.evLost + if h.evHeld.length < 256 then 0 else 1 }

theorem counted_putHostEvent_held {k : Nat} {e : Eng} (bs : List Byte) (h : FarBy (k + 1) e) (hno : ¬TakesRecord e) :
    Counted k (if e.hl.evHeld.length < 256 then [] else [(Ctr.hlEventsLost, 1)]) e { e with hl := heldLink bs e.hl } (putHostEvent bs e) := by
  unfold heldLink
  rw [putHostEvent, if_neg (mt (takesRecord_iff e).mp hno)]
  split
  · exact ⟨rfl, h.le (Nat.le_succ k), rfl, fun _ => rfl⟩
  · exact counted_bumps h rfl

theorem postEvents_nil (n : Nat) (e : Eng) : postEvents n [] e = e := by cases n <;> rfl

/-- An event whose counting saturates nothing raises no other. -/
theorem raiseEvent_of_noSats {v : Event} {e : Eng} (hn : (putNwEvent (eventBytes e v) e).2 = [])
    (hh : (putHostEvent (eventBytes e v) (putNwEvent (eventBytes e v) e).1).2 = []) :
    raiseEvent v e = (putHostEvent (eventBytes e v) (putNwEvent (eventBytes e v) e).1).1 := by
  have h2 : (putEvents [v] e).2 = [] := by
    change ((putNwEvent (eventBytes e v) e).2 ++ (putHostEvent (eventBytes e v) (putNwEvent (eventBytes e v) e).1).2) ++ [] = []
    rw [hn, hh]
    rfl
  unfold raiseEvent postEvents
  dsimp only
  rw [h2]
  rfl

/-! ## The event ring's entries -/

theorem length_eventBytes (e : Eng) (v : Event) : (eventBytes e v).length = 32 := by
  simp only [eventBytes, List.length_append, length_leBytes, List.length_cons, List.length_nil]

/-- Records in the event ring's entries from `w` on. -/
def putRecords (q : Ring) : Word → List (List Byte) → List Host.Cell → List Host.Cell
  | _, [], m => m
  | w, b :: t, m => putRecords q (w + 1) t (memPut 0 m (eventEntry q w) b)

theorem memGet_congr_memRead {d : Byte} {m m' : List Host.Cell} {a n : Nat} (h : ∀ x, a ≤ x → x < a + n → memGet d m x = memGet d m' x) :
    memRead d m a n = memRead d m' a n := by
  induction n generalizing a with
  | zero => rfl
  | succ n ih => rw [memRead, memRead, h a (Nat.le_refl a) (by omega), ih fun x hx hlt => h x (by omega) (by omega)]

/-- Fewer entries than the ring has lie apart from each other. -/
theorem eventEntry_apart {q : Ring} {w : Word} {j : Nat} (hs : q.sizeLog2 ≤ 16) (h0 : 0 < j) (hj : j < 2 ^ q.sizeLog2) :
    eventEntry q (w + BitVec.ofNat 32 j) + 32 ≤ eventEntry q w ∨ eventEntry q w + 32 ≤ eventEntry q (w + BitVec.ofNat 32 j) := by
  have hpow : 2 ^ q.sizeLog2 ∣ 2 ^ 32 := Nat.pow_dvd_pow 2 (by omega)
  have hadd : (w + BitVec.ofNat 32 j).toNat % 2 ^ q.sizeLog2 = (w.toNat + j) % 2 ^ q.sizeLog2 := by
    rw [BitVec.toNat_add, BitVec.toNat_ofNat, Nat.add_mod_mod, Nat.mod_mod_of_dvd _ hpow]
  have hne : (w + BitVec.ofNat 32 j).toNat % 2 ^ q.sizeLog2 ≠ w.toNat % 2 ^ q.sizeLog2 := by
    rw [hadd]
    intro h
    have : j % 2 ^ q.sizeLog2 = 0 := Nat.sub_mod_eq_zero_of_mod_eq h ▸ by rw [Nat.add_sub_cancel_left]
    rw [Nat.mod_eq_of_lt hj] at this
    omega
  unfold eventEntry
  omega

theorem word_succ_add (w : Word) (j : Nat) : w + 1 + BitVec.ofNat 32 j = w + BitVec.ofNat 32 (j + 1) := by
  rw [BitVec.ofNat_add, BitVec.add_assoc, BitVec.add_comm 1]
  rfl

/-- A byte outside the entries stays. -/
theorem memGet_putRecords {q : Ring} {l : List (List Byte)} {w : Word} {m : List Host.Cell} {x : Nat} (hw : Memory.wf 0 m = true)
    (hl : ∀ b ∈ l, b.length = 32)
    (hx : ∀ j < l.length, x < eventEntry q (w + BitVec.ofNat 32 j) ∨ eventEntry q (w + BitVec.ofNat 32 j) + 32 ≤ x) :
    memGet 0 (putRecords q w l m) x = memGet 0 m x := by
  induction l generalizing w m with
  | nil => rfl
  | cons b t ih =>
    have hfirst := hx 0 (Nat.succ_pos _)
    rw [BitVec.add_zero] at hfirst
    rw [putRecords, ih (memPut_wf _ _ hw) (fun c hc => hl c (List.mem_cons_of_mem b hc)) fun j hj => by
      rw [word_succ_add]
      exact hx (j + 1) (Nat.succ_lt_succ hj)]
    exact memGet_memPut_out hw (by rwa [hl b List.mem_cons_self])

/-- Each record reads back from its entry, where the ring has that many. -/
theorem memRead_putRecords {q : Ring} {l : List (List Byte)} {w : Word} {m : List Host.Cell} (hw : Memory.wf 0 m = true)
    (hl : ∀ b ∈ l, b.length = 32) (hs : q.sizeLog2 ≤ 16) (hfit : l.length ≤ 2 ^ q.sizeLog2) {k : Nat} {b : List Byte} (hk : l[k]? = some b) :
    memRead 0 (putRecords q w l m) (eventEntry q (w + BitVec.ofNat 32 k)) 32 = b := by
  induction l generalizing w m k with
  | nil => cases hk
  | cons c t ih =>
    have hw' := memPut_wf (eventEntry q w) c hw
    have ht : ∀ b ∈ t, b.length = 32 := fun b hb => hl b (List.mem_cons_of_mem c hb)
    rw [List.length_cons] at hfit
    cases k with
    | zero =>
      obtain rfl : c = b := Option.some.inj hk
      have hstay : memRead 0 (putRecords q (w + 1) t (memPut 0 m (eventEntry q w) c)) (eventEntry q w) 32 =
          memRead 0 (memPut 0 m (eventEntry q w) c) (eventEntry q w) 32 :=
        memGet_congr_memRead fun x hx hlt => memGet_putRecords hw' ht fun j hj => by
          rw [word_succ_add]
          have := eventEntry_apart (w := w) (j := j + 1) hs (Nat.succ_pos j) (by omega)
          omega
      have hread := memRead_memPut hw (eventEntry q w) c
      rw [hl c List.mem_cons_self] at hread
      rw [putRecords, BitVec.add_zero, hstay, hread]
    | succ k =>
      rw [putRecords, ← word_succ_add]
      exact ih hw' ht (by omega) hk

/-! ## Held records -/

/-- The event ring has room for `n` records. -/
structure RoomFor (n : Nat) (e : Eng) : Prop where
  attached : attached e = true
  runs : (ring e 128).runs = true
  small : (ring e 128).sizeLog2 ≤ 16
  free : n ≤ (ring e 128).free

theorem RoomFor.room {n : Nat} {e : Eng} (h : RoomFor (n + 1) e) : eventRoom e = true := by
  rw [eventRoom, h.attached, h.runs]
  exact decide_eq_true (Nat.lt_of_lt_of_le (Nat.succ_pos n) h.free)

theorem free_step {q : Ring} (hs : q.sizeLog2 ≤ 16) {n : Nat} (h : n + 1 ≤ q.free) : n ≤ ({ q with wr := q.wr + 1 } : Ring).free := by
  have hpow : 2 ^ q.sizeLog2 ≤ 2 ^ 16 := Nat.pow_le_pow_right (by decide) hs
  unfold Ring.free Ring.size at h ⊢
  dsimp only at h ⊢
  have hstep : (q.wr + 1 - q.cons).toNat ≤ (q.wr - q.cons).toNat + 1 := by
    have hsum : q.wr + 1 - q.cons = (q.wr - q.cons) + 1 := by bv_omega
    rw [hsum, BitVec.toNat_add]
    exact Nat.mod_le _ _
  omega

/-- The ring after a record: the next entry is one further on. -/
theorem ring_entryPut (bs : List Byte) (e : Eng) : ring (entryPut bs e) 128 = { ring e 128 with wr := (ring e 128).wr + 1 } := by
  rw [entryPut, ring_setRing, if_pos rfl]
  rfl

/-- One step of following: a record goes from the held ones into the ring, and the rest follows. -/
theorem RoomFor.step {n : Nat} {e u : Eng} {bs : List Byte} (h : RoomFor (n + 1) e) (hu : u = { entryPut bs e with ctr := u.ctr }) : RoomFor n u := by
  have hring : ring u 128 = { ring e 128 with wr := (ring e 128).wr + 1 } := by
    rw [hu]
    exact ring_entryPut bs e
  exact ⟨by rw [hu]; exact h.attached, by rw [hring]; exact h.runs, by rw [hring]; exact h.small, by rw [hring]; exact free_step h.small h.free⟩

/-- What following leaves: nothing held, and the records in the ring's entries. -/
structure Followed (l : List (List Byte)) (e t : Eng) : Prop where
  held : t.hl.evHeld = []
  lost : t.hl.evLost = 0
  host : t.host = putRecords (ring e 128) (ring e 128).wr l e.host

/-- The record that says how many were dropped. -/
def lostRecord (e : Eng) : List Byte := eventBytes e { kind := Kind.eventsLost, arg0 := e.hl.evLost }

theorem putRecords_congr {q q' : Ring} (hb : q'.base = q.base) (hs : q'.sizeLog2 = q.sizeLog2) (w : Word) (l : List (List Byte))
    (m : List Host.Cell) : putRecords q' w l m = putRecords q w l m := by
  induction l generalizing w m with
  | nil => rfl
  | cons b t ih => rw [putRecords, putRecords, ih, eventEntry, hb, hs]; rfl

theorem flushHeldF_held {f : Nat} {e : Eng} {bs : List Byte} {t : List (List Byte)} (hroom : eventRoom e = true) (hh : e.hl.evHeld = bs :: t)
    (hs : (putEventEntry bs { e with hl := { e.hl with evHeld := t } }).2 = []) :
    flushHeldF (f + 1) e = flushHeldF f (putEventEntry bs { e with hl := { e.hl with evHeld := t } }).1 := by
  rw [flushHeldF, hroom, Bool.not_true, if_neg (by decide), hh]
  dsimp only
  rw [hs, List.map_nil, postEvents_nil]

theorem flushHeldF_lost {f : Nat} {e : Eng} (hroom : eventRoom e = true) (hh : e.hl.evHeld = []) (hl : e.hl.evLost ≠ 0)
    (hs : (putEventEntry (lostRecord e) { e with hl := { e.hl with evLost := 0 } }).2 = []) :
    flushHeldF (f + 1) e = (putEventEntry (lostRecord e) { e with hl := { e.hl with evLost := 0 } }).1 := by
  rw [flushHeldF, hroom, Bool.not_true, if_neg (by decide), hh]
  dsimp only
  rw [if_neg hl]
  unfold lostRecord at hs ⊢
  rw [hs, List.map_nil, postEvents_nil]

/-- The held records follow in order, and then the count of those dropped. -/
theorem followed_flushHeldF {f : Nat} {e : Eng} (hf : e.hl.evHeld.length < f) (hfar : FarBy (65 * f) e) (hlost : e.hl.evLost ≠ 0)
    (hroom : RoomFor (e.hl.evHeld.length + 1) e) : Followed (e.hl.evHeld ++ [lostRecord e]) e (flushHeldF f e) := by
  induction f generalizing e with
  | zero => exact absurd hf (Nat.not_lt_zero _)
  | succ f ih =>
    rw [Nat.mul_succ] at hfar
    cases hh : e.hl.evHeld with
    | nil =>
      have hput := counted_putEventEntry (k := 65 * f) (lostRecord e) (e := { e with hl := { e.hl with evLost := 0 } }) hfar
      rw [flushHeldF_lost hroom.room hh hlost hput.sats]
      generalize putEventEntry (lostRecord e) { e with hl := { e.hl with evLost := 0 } } = r at hput ⊢
      exact ⟨by rw [hput.only]; exact hh, by rw [hput.only]; rfl, by rw [hput.only]; rfl⟩
    | cons bs t =>
      have hput := counted_putEventEntry (k := 65 * f) bs (e := { e with hl := { e.hl with evHeld := t } }) hfar
      rw [hh] at hf hroom
      have hroom' : RoomFor (t.length + 1 + 1) { e with hl := { e.hl with evHeld := t } } := ⟨hroom.attached, hroom.runs, hroom.small, hroom.free⟩
      rw [flushHeldF_held hroom.room hh hput.sats]
      generalize putEventEntry bs { e with hl := { e.hl with evHeld := t } } = r at hput ⊢
      obtain ⟨-, far, only, -⟩ := hput
      have hheld : r.1.hl.evHeld = t := by rw [only]; rfl
      have hlost' : r.1.hl.evLost = e.hl.evLost := by rw [only]; rfl
      have hring : ring r.1 128 = { ring e 128 with wr := (ring e 128).wr + 1 } := by
        rw [only]
        exact ring_entryPut bs { e with hl := { e.hl with evHeld := t } }
      have hhost : r.1.host = memPut 0 e.host (eventEntry (ring e 128) (ring e 128).wr) bs := by rw [only]; rfl
      have hrecord : lostRecord r.1 = lostRecord e := by
        rw [lostRecord, hlost', only]
        rfl
      have hnext := ih (e := r.1) (by rw [hheld]; exact Nat.lt_of_succ_lt_succ hf) far (by rwa [hlost'])
        (by rw [hheld]; exact hroom'.step only)
      rw [hheld, hrecord] at hnext
      refine ⟨hnext.held, hnext.lost, ?_⟩
      rw [hnext.host, hring, hhost]
      exact putRecords_congr (q := ring e 128) (q' := { ring e 128 with wr := (ring e 128).wr + 1 }) rfl rfl _ _ _

/-! ## Events in order -/

theorem ring_congr {e u : Eng} (h : u.hl.rings = e.hl.rings) (k : Nat) : ring u k = ring e k := by rw [ring, h, ring]

/-- What a counter rose by. -/
def rise (e t : Eng) (c : Nat) : Nat := (counterOf t c).value - (counterOf e c).value

theorem rise_of_counted {k j : Nat} {l l' : List (Nat × Nat)} {e u u' : Eng} {r r' : Eng × List Nat} (h : Counted k l e u r)
    (h' : Counted j l' r.1 u' r') (x : Nat) : rise e r'.1 x = totalAt l x + totalAt l' x := by
  rw [rise, h'.value, h.value, Nat.add_assoc, Nat.add_sub_cancel_left]

/-- An event whose record the event ring takes. -/
theorem raiseEvent_takes (v : Event) {e : Eng} (h : farFromFull e) (hroom : TakesRecord e) :
    (∃ ctr, raiseEvent v e =
        { entryPut (eventBytes e v) { e with nwEvents := if e.nwEvents.length < 64 then e.nwEvents ++ [eventBytes e v] else e.nwEvents } with ctr }) ∧
      ring (raiseEvent v e) 128 = { ring e 128 with wr := (ring e 128).wr + 1 } ∧
      rise e (raiseEvent v e) 0x14820 = if e.nwEvents.length < 64 then 0 else 1 := by
  have hn := counted_putNwEvent (k := 65) (eventBytes e v) (farBy_of_farFromFull h (by decide))
  have hroom' : TakesRecord (putNwEvent (eventBytes e v) e).1 := by rw [hn.only]; exact hroom
  have hh := counted_putEventEntry (k := 0) (eventBytes e v) hn.far
  have ht : raiseEvent v e = (putEventEntry (eventBytes e v) (putNwEvent (eventBytes e v) e).1).1 := by
    rw [← putHostEvent_takes _ hroom']
    exact raiseEvent_of_noSats hn.sats (by rw [putHostEvent_takes _ hroom']; exact hh.sats)
  rw [ht]
  refine ⟨⟨_, hh.only.trans (by rw [hn.only]; rfl)⟩, ?_, ?_⟩
  · have hlink : (putEventEntry (eventBytes e v) (putNwEvent (eventBytes e v) e).1).1.hl.rings =
        (entryPut (eventBytes e v) (putNwEvent (eventBytes e v) e).1).hl.rings := by rw [hh.only]
    rw [ring_congr hlink, ring_entryPut, ring_congr (e := e) (by rw [hn.only])]
  · rw [rise_of_counted hn hh]
    split <;> rfl

/-- An event whose record is held, or dropped and counted. -/
theorem raiseEvent_holds (v : Event) {e : Eng} (h : farFromFull e) (hroom : ¬TakesRecord e) :
    ∃ ctr, raiseEvent v e =
        { e with
          nwEvents := if e.nwEvents.length < 64 then e.nwEvents ++ [eventBytes e v] else e.nwEvents, hl := heldLink (eventBytes e v) e.hl, ctr } ∧
      rise e (raiseEvent v e) 0x14820 = (if e.nwEvents.length < 64 then 0 else 1) ∧
      rise e (raiseEvent v e) 0x1880 = if e.hl.evHeld.length < 256 then 0 else 1 := by
  have hn := counted_putNwEvent (k := 65) (eventBytes e v) (farBy_of_farFromFull h (by decide))
  have hroom' : ¬TakesRecord (putNwEvent (eventBytes e v) e).1 := by rw [hn.only]; exact hroom
  have hh := counted_putHostEvent_held (k := 0) (eventBytes e v) (hn.far.le (by decide)) hroom'
  have hheld : (putNwEvent (eventBytes e v) e).1.hl.evHeld = e.hl.evHeld := by rw [hn.only]
  rw [raiseEvent_of_noSats hn.sats hh.sats]
  refine ⟨_, hh.only.trans (by rw [hn.only]), ?_, ?_⟩
  · rw [rise_of_counted hn hh]
    split <;> split <;> rfl
  · rw [rise_of_counted hn hh, hheld]
    split <;> split <;> rfl

/-- Settles O39: by the queue's room, the ring's room, and one record after another of those held. -/
theorem eventsAreHeldInOrder : Obligations.EventsAreHeldInOrder := by
  refine ⟨fun v e h => ?_, fun e hfar hw hatt hruns hsmall h256 h32 hlost hfree => ?_⟩
  · dsimp only
    by_cases hroom : TakesRecord e
    · obtain ⟨⟨ctr, ht⟩, hring, hlost⟩ := raiseEvent_takes v h hroom
      generalize raiseEvent v e = t at ht hring hlost ⊢
      unfold rise counterOf at hlost
      refine ⟨by rw [ht]; rfl, hlost, fun _ => ⟨by rw [ht]; rfl, by rw [hring], by rw [ht]; exact hroom.2.1⟩, fun hno => absurd hroom hno⟩
    · obtain ⟨ctr, ht, hlost, hheld⟩ := raiseEvent_holds v h hroom
      generalize raiseEvent v e = t at ht hlost hheld ⊢
      unfold rise counterOf at hlost hheld
      exact ⟨by rw [ht], hlost, fun hyes => absurd hyes hroom, fun _ => ⟨by rw [ht], by rw [ht]; rfl, by rw [ht]; rfl, by rw [ht]; rfl, hheld⟩⟩
  · have hfollowed := followed_flushHeldF (f := 257) (by omega) (farBy_of_farFromFull hfar (by decide)) hlost ⟨hatt, hruns, hsmall, hfree⟩
    refine ⟨hfollowed.held, hfollowed.lost, fun k b hk => ?_⟩
    have hsize : (ring e 128).free ≤ 2 ^ (ring e 128).sizeLog2 := Nat.sub_le _ _
    rw [hostRead, flushHeld, hfollowed.host]
    refine memRead_putRecords hw (fun c hc => ?_) hsmall (by rw [List.length_append, List.length_singleton]; omega) hk
    rcases List.mem_append.mp hc with hc | hc
    · exact h32 c hc
    · rw [List.mem_singleton.mp hc]
      exact length_eventBytes e _

end Sys2Proof.Machine

/-! SUPPORT. Doorbells near full counters, and the messages of vectors (R352, R376, R539). -/

namespace Sys2Proof.Machine

/-! ## A doorbell whose own record finds no room -/

/-- An engine with a host attached and room in the event ring, with 62 records on Nightwatch and two counters one event from full. -/
def nearFull : State :=
  { State.reset with
    eng := { State.reset.eng with
      stopped := false
      hl := { attach := .attached, rings := [(0, { enable := true }), (128, { enable := true })] }
      ctr := [(Ctr.hlRingErrors, { value := 2 ^ 64 - 2 }), (Ctr.hlEvents, { value := 2 ^ 64 - 2 })]
      nwEvents := List.replicate 62 []
      rg := { state := .solo } }
    fw := { State.reset.fw with resetRung := 0 } }

theorem nearFull_calm : ioUp nearFull = true ∧ calm nearFull = true := by decide +kernel

/-- Both counters saturate as the ring falls in error, and their two records take the last room on Nightwatch. -/
theorem nearFull_dropsRingError :
    eventBytes nearFull.eng { kind := 0x000D, arg1 := 0 } ∉ (settle (onEng (opSubDoorbell 0 65) nearFull)).eng.nwEvents := by decide +kernel

/-- Refutes O33: the ring's error counts in HL_RING_ERRORS, and near full counters that alone raises two COUNTER_SAT records, which fill the
Nightwatch queue of an engine with 62 records before the RING_ERROR record comes. -/
theorem not_doorbellsLatchTheirIndex : ¬ Obligations.DoorbellsLatchTheirIndex := by
  intro h
  obtain ⟨hio, hc⟩ := nearFull_calm
  obtain ⟨t, ht, -, hmem, -⟩ := ((h 0 65 nearFull (by decide) hio hc rfl rfl).2 rfl rfl (by decide)).2 (by decide) (by decide)
  have hrun : exec (doorbell 0 65) nearFull = .next (settle (onEng (opSubDoorbell 0 65) nearFull)) := ioRow_up hio _
  obtain rfl : settle (onEng (opSubDoorbell 0 65) nearFull) = t := Host.Outcome.next.inj (hrun.symm.trans ht)
  exact nearFull_dropsRingError hmem

/-! ## Vectors -/

/-- The data path with a vector's message written. -/
def messagePut (v : Nat) (e : Eng) : Eng :=
  { e with
    host := memPut 0 e.host (Tab.get {} e.hl.irqs v).addr (leBytes 4 (Tab.get {} e.hl.irqs v).data.toNat)
    hl := { e.hl with unacked := e.hl.unacked ++ [WriteRef.irq] } }

/-- Counts that saturate nothing touch only the counters. -/
theorem counts_far_onlyCtr {k : Nat} {l : List (Nat × Nat)} {e : Eng} (h : FarBy k e) (hl : total l ≤ k) :
    counts l e = { e with ctr := (counts l e).ctr } := by
  rw [counts_far h hl]
  exact bumps_onlyCtr l e

theorem irqSend_far (v : Nat) {e : Eng} (h : FarBy 9 e) : ∃ ctr, irqSend v e = { messagePut v e with ctr } := by
  have hcounts : irqSend v e = counts [(Ctr.hlBytesOut, 4), (Ctr.ctJobHostBytes, 4), (Ctr.hlIrqs, 1)] (messagePut v e) := by
    unfold irqSend hostWrite
    dsimp only
    rw [length_leBytes]
    rfl
  exact ⟨_, hcounts.trans (counts_far_onlyCtr (k := 9) (e := messagePut v e) h (by decide))⟩

/-- A vector as HL_IRQ_CTRL leaves it. -/
def irqSet (value : Nat) (send : Bool) (q : Irq) : Irq := { q with mask := bit value 0, pending := q.pending && !send }

/-- HL_IRQ_CTRL: the message goes out where MASK is cleared, PENDING is set and a host is attached. -/
theorem irqCtrl_far (v value : Nat) {e : Eng} (h : FarBy 9 e) {send : Bool}
    (hsend : (!bit value 0 && (Tab.get {} e.hl.irqs v).pending && attached e) = send) : ∃ ctr host unacked, irqCtrl v value e =
      { e with hl := { e.hl with irqs := Tab.set e.hl.irqs v (irqSet value send (Tab.get {} e.hl.irqs v)), unacked }, host, ctr } ∧
      (send = true → unacked = e.hl.unacked ++ [WriteRef.irq] ∧
        host = memPut 0 e.host (Tab.get {} e.hl.irqs v).addr (leBytes 4 (Tab.get {} e.hl.irqs v).data.toNat)) ∧
      (send = false → unacked = e.hl.unacked ∧ host = e.host) := by
  unfold irqCtrl
  dsimp only
  rw [hsend]
  cases send with
  | false => exact ⟨e.ctr, e.host, e.hl.unacked, rfl, nofun, fun _ => ⟨rfl, rfl⟩⟩
  | true =>
    obtain ⟨ctr, hirq⟩ := irqSend_far v
      (e := { e with hl := { e.hl with irqs := Tab.set e.hl.irqs v (irqSet value true (Tab.get {} e.hl.irqs v)) } }) h
    have hq : Tab.get {} (Tab.set e.hl.irqs v (irqSet value true (Tab.get {} e.hl.irqs v))) v = irqSet value true (Tab.get {} e.hl.irqs v) := by
      rw [tabGet_set, if_pos rfl]
    have hhost := congrArg (fun q : Irq => memPut 0 e.host q.addr (leBytes 4 q.data.toNat)) hq
    exact ⟨ctr, _, _, hirq, fun _ => ⟨rfl, hhost⟩, nofun⟩

/-- Settles O36: by whether the message goes out. -/
theorem vectorsHoldWhatIsMasked : Obligations.VectorsHoldWhatIsMasked := by
  intro v s hio hc hfar n q send
  have hrun : exec (.hlIrqCtrlWrite v) s = .next (settle (onEng (irqCtrl n v.toNat) s)) := by
    rw [exec_registerRow rfl, writeRow, ioRow_up hio]
    rfl
  have hsend : (!bit v.toNat 0 && q.pending && attached s.eng) = decide send := by
    rw [Bool.eq_iff_iff, decide_eq_true_eq]
    simp only [send, Bool.and_eq_true, Bool.not_eq_true', attached, beq_iff_eq, bit, and_assoc]
  obtain ⟨ctr, host, unacked, ht, hyes, hno⟩ := irqCtrl_far n v.toNat (farBy_of_farFromFull hfar (by decide)) hsend
  have hnoted : Noted s.eng (irqCtrl n v.toNat s.eng) := by
    rw [ht]
    exact ⟨ctr, s.eng.nwEvents, host, s.eng.hl.rings, _, unacked, s.eng.hl.evHeld, s.eng.hl.evLost, rfl⟩
  refine ⟨_, hrun, ?_⟩
  rw [settle_noted hc hnoted, onEng_eng, ht]
  refine ⟨⟨rfl, rfl, rfl, rfl, rfl, rfl, rfl, rfl, rfl, rfl⟩, ⟨rfl, rfl, rfl, rfl⟩, rfl, fun k => ?_, fun hs => hyes (decide_eq_true hs),
    fun hs => hno (decide_eq_false hs)⟩
  exact tabGet_set {} s.eng.hl.irqs n k _

end Sys2Proof.Machine

/-! SUPPORT. Attaching: the checks of ATTACH and its reply (R379, R383). -/

namespace Sys2Proof.Machine

/-! ## Records that are written -/

/-- `u` differs from `e` at most in what noting can change and in the commands on record, none of which goes on by itself if none did. -/
def Quiet (e u : Eng) : Prop := ∃ cs, Recorded cs e u ∧ ((∀ c ∈ e.hl.cmds, Idle c) → ∀ c ∈ cs, Idle c)

theorem Noted.quiet {e u : Eng} (h : Noted e u) : Quiet e u := ⟨e.hl.cmds, h.recorded, id⟩

theorem Quiet.trans {a b c : Eng} (h : Quiet a b) (k : Quiet b c) : Quiet a c := by
  obtain ⟨cs, hr, hi⟩ := h
  obtain ⟨ds, kr, ki⟩ := k
  exact ⟨ds, hr.trans kr, fun ha => ki fun c hc => hi ha c (hr.cmds ▸ hc)⟩

theorem quiet_map {e u : Eng} {f : RunCmd → RunCmd} (h : Recorded (e.hl.cmds.map f) e u) (hf : ∀ c, Idle c → Idle (f c)) : Quiet e u :=
  ⟨_, h, fun hi c hc => by
    obtain ⟨c', hc', rfl⟩ := List.mem_map.mp hc
    exact hf c' (hi c' hc')⟩

theorem noted_putRecordEntries (q : Nat) (first : Word) (irq : Bool) (l : List (List Byte)) (e : Eng) :
    Noted e (putRecordEntries q first irq l e) := by
  induction l generalizing e with
  | nil => exact .rfl e
  | cons bs t ih => exact ((noted_hostWrite ..).trans (noted_setRing ..)).trans (ih _)

theorem quiet_setCmd (id : Nat) {f : RunCmd → RunCmd} (hf : ∀ c, Idle c → Idle (f c)) (e : Eng) : Quiet e (setCmd id f e) :=
  quiet_map (recorded_setCmd id f e) fun c hc => by
    split
    · exact hf c hc
    · exact hc

theorem quiet_settleFences (e : Eng) : Quiet e (settleFences e) := quiet_map (recorded_settleFences e) fun _ => idle_fenceSettled

theorem quiet_writeRecord (c : RunCmd) (e : Eng) : Quiet e (writeRecord c e) := by
  unfold writeRecord
  split
  · exact (Noted.rfl e).quiet
  · split
    · dsimp only
      refine .trans (.trans (.trans ?_ (quiet_setCmd _ ?_ _)) (noted_counts _ _).quiet) (quiet_settleFences _)
      · exact (noted_putRecordEntries ..).quiet
      · exact fun _ hc => hc
    · exact (Noted.rfl e).quiet

theorem quiet_writeCarried (e : Eng) : Quiet e (writeCarried e) := by
  have hfold (l : List RunCmd) (u : Eng) : Quiet u (l.foldl (fun e c => writeRecord c e) u) := by
    induction l generalizing u with
    | nil => exact (Noted.rfl u).quiet
    | cons c t ih => exact (quiet_writeRecord c u).trans (ih _)
  exact hfold _ e

/-- A calm engine settles to itself after a quiet change of a data path that is calm. -/
theorem settle_quiet {s : State} {e u : Eng} (h : calm s = true) (hq : Quiet e u) (he : calmEng e = true) (hm : e.hl.mbHeld = s.eng.hl.mbHeld)
    (hs : e.stopped = s.eng.stopped) (hb : e.build = s.eng.build) : settle { s with eng := u } = { s with eng := u } := by
  obtain ⟨cs, hr, hi⟩ := hq
  have hcalm := hr.calmEng he hi
  obtain ⟨_, _, hn⟩ := hr
  exact settle_still h hcalm (hn.hl_mbHeld.trans hm) (hn.stopped.trans hs) (hn.build.trans hb) rfl rfl rfl

/-! ## Replies -/

/-- The header of a reply without a body, to its status. -/
theorem memRead_mbReply {e : Eng} (w : Memory.wf 0 e.hl.mailbox = true) (ty tag st : Nat) :
    memRead 0 (mbReply ty tag st [] e).hl.mailbox 0x800 9 = leBytes 1 ty ++ [1, 1, 0, 0, 0] ++ leBytes 2 tag ++ leBytes 1 st := by
  rw [mbReply, (noted_irqSignal _ _).hl_mailbox]
  have hall := memRead_memPut (memPut_wf 0x810 [] w) 0x800 (leBytes 1 ty ++ [1, 1, 0] ++ leBytes 2 0 ++ leBytes 2 tag ++ leBytes 1 st ++ zeros 7)
  have hsplit := memRead_add 0 (memPut 0 (memPut 0 e.hl.mailbox 0x810 []) 0x800
    (leBytes 1 ty ++ [1, 1, 0] ++ leBytes 2 0 ++ leBytes 2 tag ++ leBytes 1 st ++ zeros 7)) 0x800 9 7
  have hlen : (leBytes 1 ty ++ [1, 1, 0] ++ leBytes 2 0 ++ leBytes 2 tag ++ leBytes 1 st ++ zeros 7).length = 16 := rfl
  rw [hlen, hsplit] at hall
  exact (List.append_inj hall (length_memRead 0 _ 0x800 9)).1

/-! ## ATTACH -/

/-- The data path that a reply to ATTACH finds. -/
def attaching (ms : Nat) (e : Eng) : Eng :=
  setAttach .attached e.hl.cause { e with hl := { e.hl with heartbeatMs := ms, lastBeat := e.tick, drain := none } }

/-- The first of three cases that applies gives its status, and none gives no refusal. -/
theorem firstCase_eq {A B C : Prop} [Decidable A] [Decidable B] [Decidable C] {st : Nat}
    (h : st = if A then 2 else if B then 5 else if C then 9 else 0) :
    (if A then some 2 else if B then some 5 else if C then some 9 else none) = if st = 0 then none else some st := by
  subst h
  by_cases hA : A
  · simp [hA]
  · by_cases hB : B
    · simp [hA, hB]
    · by_cases hC : C <;> simp [hA, hB, hC]

theorem attachFail_eq (oos : Bool) (ms : Nat) (e : Eng) : attachFail oos ms e =
    if e.hl.attach ≠ .detached ∨ e.hl.helloSeen = false ∨ oos = true then some 2
    else if e.hl.statusBase = 0 ∨ (List.range 64).any (fun k => (ring e k).enable && !(ring e (64 + (ring e k).cq)).enable) = true ∨
        e.hl.cmds.any (fun c => c.carried) = true ∧ (ring e 64).enable = false then some 5
    else if 10000 < ms then some 9 else none := by
  unfold attachFail hostUp
  simp only [bne_iff_ne, Bool.not_eq_true']

theorem opAttach_refused {oos : Bool} {tag ms st : Nat} {e : Eng} (h : attachFail oos ms e = some st) :
    opAttach oos tag ms e = mbReply 2 tag st [] e := by
  rw [opAttach, h]

theorem opAttach_attaches {oos : Bool} {tag ms : Nat} {e : Eng} (h : attachFail oos ms e = none) :
    opAttach oos tag ms e = flushHeld (writeCarried (mbReply 2 tag 0 [] (attaching ms e))) := by
  rw [opAttach, h]
  rfl

theorem noted_mbReply (ty tag st : Nat) (body : List Byte) (e : Eng) : ∃ mailbox,
    Noted { e with hl := { e.hl with mailbox } } (mbReply ty tag st body e) := ⟨_, noted_irqSignal _ _⟩

/-- What every answer to ATTACH leaves of a data path. -/
structure AttachAnswered (tag st : Nat) (s : State) (u t : Eng) : Prop where
  settled : settle { s with eng := t } = { s with eng := t }
  attach : t.hl.attach = u.hl.attach
  heartbeatMs : t.hl.heartbeatMs = u.hl.heartbeatMs
  lastBeat : t.hl.lastBeat = u.hl.lastBeat
  reply : memRead 0 t.hl.mailbox 0x800 9 = leBytes 1 2 ++ [1, 1, 0, 0, 0] ++ leBytes 2 tag ++ leBytes 1 st
  work : SameWork s.eng t

theorem attachAnswered_of_quiet {tag st : Nat} {s : State} {u t : Eng} {hl : HostLink} (hc : calm s = true) (hw : Memory.wf 0 hl.mailbox = true)
    (hcmds : hl.cmds = s.eng.hl.cmds) (hm : hl.mbHeld = s.eng.hl.mbHeld) (hu : u = { s.eng with hl }) (ht : Quiet (mbReply 2 tag st [] u) t) :
    AttachAnswered tag st s u t := by
  have hcalm : calmEng u = true := by
    have := calmEng_of_calm hc
    unfold calmEng at this ⊢
    rw [hu]
    dsimp only
    rwa [hcmds]
  have hread := memRead_mbReply (e := u) (by rw [hu]; exact hw) 2 tag st
  obtain ⟨mailbox, hn⟩ := noted_mbReply 2 tag st [] u
  generalize mbReply 2 tag st [] u = r at ht hread hn
  have hq := hn.quiet.trans ht
  have hset := settle_quiet hc hq hcalm (by rw [hu]; exact hm) (by rw [hu]) (by rw [hu])
  obtain ⟨cs, _, _, hr⟩ := hq.imp fun _ h => h.1
  obtain ⟨_, _, _, kr⟩ := ht.imp fun _ h => h.1
  exact ⟨hset, hr.hl_attach, hr.hl_heartbeatMs, hr.hl_lastBeat, by rw [kr.hl_mailbox]; exact hread,
    by rw [SameWork, hr.store, hr.steps, hr.setup, hr.qu, hr.st, hr.ix, hr.fb, hr.ls, hr.rg, hr.mt, hu]
       exact ⟨rfl, rfl, rfl, rfl, rfl, rfl, rfl, rfl, rfl, rfl⟩⟩

theorem mailboxServed_mbWrite (o : Nat) (bs : List Byte) (s : State) : mailboxServed (onEng (mbWrite o bs) s) = mailboxServed s := rfl

theorem mbMessage_served {s : State} (h : mailboxServed s = true) (ty tag : Nat) (body : List Byte) (op : State → State) :
    mbMessage ty tag body op s = op (onEng (mbWrite 0 (mbRequest ty tag body)) s) := by
  rw [mbMessage]
  dsimp only
  rw [mailboxServed_mbWrite, if_pos h]

/-- Settles O34: the checks in their order refuse, or the state becomes ATTACHED. -/
theorem attachIsChecked : Obligations.AttachIsChecked := by
  intro tag ms st s _ _ hio hmb hc hw hst
  have hrun : exec (.attach tag ms) s =
      .next (settle (onEng (opAttach s.fw.oos tag ms) (onEng (mbWrite 0 (mbRequest 2 tag (leBytes 2 ms ++ zeros 14))) s))) := by
    change ioRow (mbMessage 2 tag (leBytes 2 ms ++ zeros 14) (fun s => onEng (opAttach s.fw.oos tag ms) s)) s = _
    rw [ioRow_up hio, mbMessage_served hmb]
    rfl
  rw [hrun]
  have hw1 := memPut_wf 0 (mbRequest 2 tag (leBytes 2 ms ++ zeros 14)) hw
  have hfail := attachFail_eq s.fw.oos ms (mbWrite 0 (mbRequest 2 tag (leBytes 2 ms ++ zeros 14)) s.eng)
  unfold mbWrite at hfail
  unfold onEng mbWrite
  generalize memPut 0 s.eng.hl.mailbox 0 (mbRequest 2 tag (leBytes 2 ms ++ zeros 14)) = mailbox at hw1 hfail ⊢
  have hfail' : attachFail s.fw.oos ms { s.eng with hl := { s.eng.hl with mailbox } } = if st = 0 then none else some st := by
    rw [hfail]
    exact firstCase_eq hst
  dsimp only
  by_cases h0 : st = 0
  · rw [if_pos h0] at hfail'
    rw [opAttach_attaches hfail']
    have ha := attachAnswered_of_quiet (tag := tag) (st := 0)
      (hl := { s.eng.hl with mailbox, attach := .attached, helloSeen := false, heartbeatMs := ms, lastBeat := s.eng.tick, drain := none })
      hc hw1 rfl rfl rfl ((quiet_writeCarried _).trans (noted_flushHeld _).quiet)
    refine ⟨_, congrArg Host.Outcome.next ha.settled, ?_⟩
    dsimp only
    rw [if_pos h0, h0]
    exact ⟨ha.attach, fun _ => ⟨ha.heartbeatMs, ha.lastBeat⟩, ha.reply, ha.work, rfl, rfl, rfl, rfl⟩
  · rw [if_neg h0] at hfail'
    rw [opAttach_refused hfail']
    have ha := attachAnswered_of_quiet (tag := tag) (st := st) (hl := { s.eng.hl with mailbox }) hc hw1 rfl rfl rfl (Noted.rfl _).quiet
    refine ⟨_, congrArg Host.Outcome.next ha.settled, ?_⟩
    dsimp only
    rw [if_neg h0]
    exact ⟨ha.attach, fun h => absurd h h0, ha.reply, ha.work, rfl, rfl, rfl, rfl⟩

end Sys2Proof.Machine

/-! SUPPORT. The loss of the host: the rings it disables and the commands it carries (R384 to R387). -/

namespace Sys2Proof.Machine

/-! ## Rings that keep their set-up -/

/-- Every ring keeps all but its write index. -/
def OnlyWr (e u : Eng) : Prop := ∀ k, ∃ wr, ring u k = { ring e k with wr }

theorem OnlyWr.of_rings {e u : Eng} (h : u.hl.rings = e.hl.rings) : OnlyWr e u := fun k => ⟨(ring e k).wr, ring_congr h k⟩

theorem OnlyWr.trans {a b c : Eng} (h : OnlyWr a b) (j : OnlyWr b c) : OnlyWr a c := fun k => by
  obtain ⟨x, hx⟩ := h k
  obtain ⟨y, hy⟩ := j k
  exact ⟨y, by rw [hy, hx]⟩

theorem onlyWr_bumps (l : List (Nat × Nat)) (e : Eng) : OnlyWr e (bumps l e).1 := .of_rings (by rw [bumps_onlyCtr])

theorem onlyWr_entryPut (bs : List Byte) (e : Eng) : OnlyWr e (entryPut bs e) := fun k => by
  by_cases hk : k = 128
  · subst hk
    exact ⟨_, ring_entryPut bs e⟩
  · refine ⟨(ring e k).wr, ?_⟩
    rw [entryPut, ring_setRing, if_neg hk]
    rfl

theorem onlyWr_putEvent (v : Event) (e : Eng) : OnlyWr e (putEvent v e).1 := by
  have hn : OnlyWr e (putNwEvent (eventBytes e v) e).1 := by
    unfold putNwEvent
    split
    · exact .of_rings rfl
    · exact onlyWr_bumps _ e
  have hh (u : Eng) (bs : List Byte) : OnlyWr u (putHostEvent bs u).1 := by
    unfold putHostEvent
    split
    · exact (onlyWr_entryPut bs u).trans (onlyWr_bumps _ _)
    · split
      · exact .of_rings rfl
      · exact .trans (.of_rings rfl) (onlyWr_bumps _ { u with hl := { u.hl with evLost := u.hl.evLost + 1 } })
  exact hn.trans (hh _ _)

theorem onlyWr_putEvents (l : List Event) (e : Eng) : OnlyWr e (putEvents l e).1 := by
  induction l generalizing e with
  | nil => exact .of_rings rfl
  | cons v t ih => exact (onlyWr_putEvent v e).trans (ih _)

theorem onlyWr_postEvents (n : Nat) (l : List Event) (e : Eng) : OnlyWr e (postEvents n l e) := by
  induction n generalizing l e with
  | zero => exact .of_rings rfl
  | succ n ih =>
    unfold postEvents
    dsimp only
    split
    · exact onlyWr_putEvents l e
    · exact (onlyWr_putEvents l e).trans (ih _ _)

theorem onlyWr_count (slot n : Nat) (e : Eng) : OnlyWr e (count slot n e) := by
  have hb : OnlyWr e (bump slot n e).1 := .of_rings (by rw [bump_onlyCtr])
  unfold count
  dsimp only
  split
  · exact hb.trans (onlyWr_postEvents 8 _ _)
  · exact hb

/-- Without a host no vector sends. -/
theorem irqSignal_detached {e : Eng} (h : e.hl.attach = .detached) (v : Nat) : (irqSignal v e).hl.rings = e.hl.rings := by
  unfold irqSignal attached
  rw [h]
  split <;> rfl

/-! ## Heads given up -/

/-- `u` is `e` with heads of rings given up, and their journaling. -/
structure HeadsDropped (e u : Eng) : Prop where
  only : ∃ rings fb rg, u = { e with hl := { e.hl with rings }, fb, rg } ∧ rg.standDown = e.rg.standDown
  ring : ∀ k, ∃ head, ring u k = { ring e k with head }

theorem HeadsDropped.refl (e : Eng) : HeadsDropped e e := ⟨⟨_, _, _, rfl, rfl⟩, fun _ => ⟨_, rfl⟩⟩

theorem HeadsDropped.trans {a b c : Eng} (h : HeadsDropped a b) (j : HeadsDropped b c) : HeadsDropped a c := by
  obtain ⟨⟨_, _, _, rfl, hs⟩, hr⟩ := h
  obtain ⟨⟨rings, fb, rg, rfl, js⟩, jr⟩ := j
  refine ⟨⟨rings, fb, rg, rfl, js.trans hs⟩, fun k => ?_⟩
  obtain ⟨x, hx⟩ := hr k
  obtain ⟨y, hy⟩ := jr k
  exact ⟨y, by rw [hy, hx]⟩

/-- A change of the fabric and the pair that keeps standing down. -/
theorem HeadsDropped.of_pair {e : Eng} (fb : Fabric) {rg : Ridge} (h : rg.standDown = e.rg.standDown) : HeadsDropped e { e with fb, rg } :=
  ⟨⟨e.hl.rings, fb, rg, rfl, h⟩, fun k => ⟨(Machine.ring e k).head, rfl⟩⟩

theorem headsDropped_sendRidge (b : Body) (e : Eng) : HeadsDropped e (sendRidge b e) := by
  unfold sendRidge
  split
  · split
    · exact .refl e
    · exact .of_pair e.fb rfl
  · exact .of_pair _ rfl

theorem headsDropped_tellCustody (j : JournalBody) (e : Eng) : HeadsDropped e (tellCustody j e) := by
  unfold tellCustody
  split
  · exact headsDropped_sendRidge _ e
  · exact .refl e

theorem headsDropped_dropJournal (p : JournalBody → Bool) (e : Eng) : HeadsDropped e (dropJournal p e) := by
  have hfold (l : List JournalBody) (u : Eng) :
      HeadsDropped u (l.foldl (fun e j => tellCustody { j with desc := [], inputs := [], done := true } e) u) := by
    induction l generalizing u with
    | nil => exact .refl u
    | cons j t ih => exact (headsDropped_tellCustody _ u).trans (ih _)
  unfold dropJournal
  refine .trans ?_ (hfold _ _)
  exact .of_pair e.fb rfl

theorem headsDropped_dropHead (r : Nat) (e : Eng) : HeadsDropped e (dropHead r e) := by
  have hset (u : Eng) : HeadsDropped u (setRing r (fun q => { q with head := none }) u) := by
    refine ⟨⟨_, u.fb, u.rg, rfl, rfl⟩, fun k => ?_⟩
    rw [ring_setRing]
    split
    · exact ⟨none, rfl⟩
    · exact ⟨_, rfl⟩
  unfold dropHead
  split
  · exact .refl e
  · refine .trans ?_ (hset _)
    split
    · exact headsDropped_dropJournal _ e
    · exact .refl e

theorem headsDropped_dropHeads (l : List Nat) (e : Eng) : HeadsDropped e (l.foldl (fun e r => dropHead r e) e) := by
  induction l generalizing e with
  | nil => exact .refl e
  | cons r t ih => exact (headsDropped_dropHead r e).trans (ih _)

/-! ## Commands carried -/

/-- Streams in which no slot and no swap goes on. -/
def NoStreams (e : Eng) : Prop := e.st.slots = [] ∧ e.st.swaps = []

/-- `u` is `e` with what commands hold on streams, accumulators and the fabric given up. -/
structure HoldsDropped (e u : Eng) : Prop where
  only : ∃ st ix fb, u = { e with st, ix, fb }
  streams : NoStreams e → NoStreams u

theorem HoldsDropped.refl (e : Eng) : HoldsDropped e e := ⟨⟨_, _, _, rfl⟩, id⟩

theorem HoldsDropped.trans {a b c : Eng} (h : HoldsDropped a b) (j : HoldsDropped b c) : HoldsDropped a c := by
  obtain ⟨⟨_, _, _, rfl⟩, hs⟩ := h
  obtain ⟨⟨st, ix, fb, rfl⟩, js⟩ := j
  exact ⟨⟨st, ix, fb, rfl⟩, js ∘ hs⟩

theorem HoldsDropped.of_st {e : Eng} (st : Streams) (h : NoStreams e → st.slots = [] ∧ st.swaps = []) : HoldsDropped e { e with st } :=
  ⟨⟨st, e.ix, e.fb, rfl⟩, h⟩

theorem HoldsDropped.of_ix {e : Eng} (ix : Interact) : HoldsDropped e { e with ix } := ⟨⟨e.st, ix, e.fb, rfl⟩, id⟩

theorem holdsDropped_takeShadow (d : DrainWait) (e : Eng) : HoldsDropped e (takeShadow e d) := by
  unfold takeShadow
  split <;> exact .of_ix _

theorem holdsDropped_feedShadows (e : Eng) : HoldsDropped e (feedShadows e) := by
  have hfold (l : List DrainWait) (u : Eng) : HoldsDropped u (l.foldl takeShadow u) := by
    induction l generalizing u with
    | nil => exact .refl u
    | cons d t ih => exact (holdsDropped_takeShadow d u).trans (ih _)
  unfold feedShadows
  refine .trans ?_ (hfold _ _)
  exact .of_ix _

theorem holdsDropped_dropDrains (id : Nat) (e : Eng) : HoldsDropped e (dropDrains id e) := by
  unfold dropDrains
  refine .trans ?_ (holdsDropped_feedShadows _)
  exact .of_ix _

theorem holdsDropped_releaseQueues (l : List Nat) (e : Eng) : HoldsDropped e (l.foldl (fun e n => releaseQueues n e) e) := by
  induction l generalizing e with
  | nil => exact .refl e
  | cons n t ih =>
    refine .trans ?_ (ih _)
    exact ⟨⟨_, e.ix, e.fb, rfl⟩, id⟩

/-- The runs, pairings and swaps of a command end. -/
def cutRuns (id : Nat) (e : Eng) : Eng :=
  { e with
    st := { e.st with
      slots := e.st.slots.map (fun s => (s.1, { s.2 with
        run := s.2.run.filter (fun r => r.cmdId != id), waiting := s.2.waiting.filter (fun r => r.cmdId != id)
        owner := s.2.owner.filter (· != id), split := s.2.split.filter (fun x => x.cmdId != id) }))
      swaps := e.st.swaps.filter (fun s => s.1 != id) } }

theorem dropCmd_eq (id : Nat) (e : Eng) : ∃ gone : List Nat,
    dropCmd id e = dropDrains id (cutRuns id (gone.foldl (fun e n => releaseQueues n e) (dropReqs (fun q => q.cmdId == id) e))) := ⟨_, rfl⟩

theorem holdsDropped_cutRuns (id : Nat) (e : Eng) : HoldsDropped e (cutRuns id e) :=
  .of_st _ fun h => by
    obtain ⟨hsl, hsw⟩ := h
    exact ⟨by rw [hsl]; rfl, by rw [hsw]; rfl⟩

theorem holdsDropped_dropCmd (id : Nat) (e : Eng) : HoldsDropped e (dropCmd id e) := by
  obtain ⟨gone, h⟩ := dropCmd_eq id e
  have hreqs : HoldsDropped e (dropReqs (fun q => q.cmdId == id) e) := ⟨⟨e.st, e.ix, _, rfl⟩, fun h => h⟩
  rw [h]
  exact ((hreqs.trans (holdsDropped_releaseQueues gone _)).trans (holdsDropped_cutRuns id _)).trans (holdsDropped_dropDrains id _)

theorem holdsDropped_dropCmds (l : List Nat) (e : Eng) : HoldsDropped e (reslot (l.foldl (fun e id => dropCmd id e) e)) := by
  have hfold (l : List Nat) (u : Eng) : HoldsDropped u (l.foldl (fun e id => dropCmd id e) u) := by
    induction l generalizing u with
    | nil => exact .refl u
    | cons id t ih => exact (holdsDropped_dropCmd id u).trans (ih _)
  refine (hfold l e).trans ⟨⟨_, _, _, rfl⟩, fun h => ?_⟩
  obtain ⟨hsl, hsw⟩ := h
  exact ⟨by rw [reslot]; dsimp only; rw [hsl]; rfl, hsw⟩

/-- A command as the loss of the host carries it. -/
def carriedCmd (e : Eng) (c : RunCmd) : RunCmd :=
  if readOnly c.desc then
    { c with
      carried := true, recIdx := none, work := .none, skyHalt := []
      done := some { status := Status.hostLost, errTable := (cmdSlot e c).1, errRow := (cmdSlot e c).2 } }
  else { c with carried := true, recIdx := none }

theorem carryCmds_eq (e : Eng) : ∃ u, HoldsDropped e u ∧ carryCmds e = { u with hl := { u.hl with cmds := e.hl.cmds.map (carriedCmd e) } } := by
  have hd := holdsDropped_dropCmds ((e.hl.cmds.filter (fun c => readOnly c.desc && !c.carried)).map (·.id)) e
  refine ⟨_, hd, ?_⟩
  unfold carryCmds
  dsimp only
  generalize reslot _ = u at hd ⊢
  obtain ⟨⟨_, _, _, rfl⟩, -⟩ := hd
  rfl

theorem idle_carriedCmd {e : Eng} {c : RunCmd} (h : Idle c) : Idle (carriedCmd e c) := by
  unfold carriedCmd
  split
  · exact ⟨Work.noConfusion, h.2⟩
  · exact h

theorem cmdSlot_congr {e u : Eng} (h : u.st = e.st) (c : RunCmd) : cmdSlot u c = cmdSlot e c := by
  unfold cmdSlot recSlot slotGen stSlot
  rw [h]

theorem carriedCmd_congr {e u : Eng} (h : u.st = e.st) : carriedCmd u = carriedCmd e := by
  funext c
  unfold carriedCmd
  rw [cmdSlot_congr h]

/-! ## The host is lost -/

/-- A function that keeps the default acts on what every key reads. -/
theorem tabGet_map {α : Type} {d : α} {g : α → α} (hd : g d = d) (t : Tab α) (k : Nat) :
    Tab.get d (t.map (fun p => (p.1, g p.2))) k = g (Tab.get d t k) := by
  induction t with
  | nil => exact hd.symm
  | cons p t ih =>
    change (if k = p.1 then g p.2 else if k < p.1 then d else Tab.get d (t.map (fun p => (p.1, g p.2))) k) =
      g (if k = p.1 then p.2 else if k < p.1 then d else Tab.get d t k)
    split
    · rfl
    · split
      · exact hd.symm
      · exact ih

/-- A ring as the loss of the host leaves it. -/
def ringOff (q : Ring) : Ring := { q with enable := false, draining := false }

/-- Every ring disabled. -/
def ringsOff (e : Eng) : Eng := { e with hl := { e.hl with rings := e.hl.rings.map (fun r => (r.1, ringOff r.2)) } }

theorem ring_ringsOff (e : Eng) (k : Nat) : ring (ringsOff e) k = ringOff (ring e k) := tabGet_map rfl e.hl.rings k

theorem refuseSky_none {e : Eng} (h : e.hl.unacked = []) : refuseSky e = e := by
  unfold refuseSky
  rw [h]
  change { e with hl := { e.hl with unacked := [] } } = e
  rw [← h]

theorem abortAllFaults_none {e : Eng} (h : e.mt.faults = []) : abortAllFaults e = e := by
  have hstep (id : Nat) : (if (faultEntry e id).pending then abortFault id e else e) = e := by
    rw [faultEntry, h]
    rfl
  have hfold (l : List Nat) : l.foldl (fun e id => if (faultEntry e id).pending then abortFault id e else e) e = e := by
    induction l with
    | nil => rfl
    | cons id t ih => rw [List.foldl_cons, hstep, ih]
  exact hfold _

/-- The heads of the submission rings given up. -/
def headsGone (e : Eng) : Eng := (List.range 64).foldl (fun e r => dropHead r e) e

theorem headsDropped_headsGone (e : Eng) : HeadsDropped e (headsGone e) := headsDropped_dropHeads (List.range 64) e

/-- The data path as the host is lost, before the loss is counted and a DETACH is answered. -/
def losing (cause : Nat) (e : Eng) : Eng := setAttach .detached cause (carryCmds (ringsOff (headsGone e)))

theorem losing_eq (cause : Nat) (e : Eng) : ∃ rings st ix fb rg, losing cause e =
    { e with
      hl := { e.hl with rings, cmds := e.hl.cmds.map (carriedCmd e), attach := .detached, cause, helloSeen := false }, st, ix, fb, rg } ∧
    rg.standDown = e.rg.standDown ∧ (NoStreams e → st.slots = [] ∧ st.swaps = []) := by
  obtain ⟨⟨rings, fb, rg, h1, hs⟩, -⟩ := headsDropped_headsGone e
  unfold losing
  rw [h1]
  obtain ⟨u, ⟨⟨st, ix, fb', rfl⟩, hst⟩, hcarry⟩ := carryCmds_eq (ringsOff { e with hl := { e.hl with rings }, fb, rg })
  have hslot : carriedCmd (ringsOff { e with hl := { e.hl with rings }, fb, rg }) = carriedCmd e := carriedCmd_congr rfl
  rw [hcarry, hslot]
  exact ⟨_, st, ix, fb', rg, rfl, hs, fun h => hst h⟩

theorem ring_losing (cause : Nat) (e : Eng) (k : Nat) : ∃ head, ring (losing cause e) k = ringOff { ring e k with head } := by
  obtain ⟨head, hr⟩ := (headsDropped_headsGone e).ring k
  refine ⟨head, ?_⟩
  rw [← hr, ← ring_ringsOff]
  have hrings : (losing cause e).hl.rings = (ringsOff (headsGone e)).hl.rings := by
    unfold losing
    generalize ringsOff (headsGone e) = v
    obtain ⟨u, ⟨⟨_, _, _, rfl⟩, -⟩, hcarry⟩ := carryCmds_eq v
    rw [hcarry]
    rfl
  exact ring_congr hrings k

theorem hostLoss_attached {cause : Nat} {e : Eng} (hup : e.hl.attach ≠ .detached) : hostLoss cause e =
    drainReply (abortAllFaults (count Ctr.hlHostLosses 1 (setAttach .detached cause (carryCmds (refuseSky (ringsOff (headsGone e))))))) := by
  have hdown : (!hostUp e) = false := by simp [hostUp, hup]
  unfold hostLoss headsGone
  rw [if_neg (by rw [hdown]; decide)]
  generalize (List.range 64).foldl (fun e r => dropHead r e) e = v
  dsimp only [ringsOff, ringOff]

theorem hostLoss_eq {cause : Nat} {e : Eng} (hup : e.hl.attach ≠ .detached) (hu : e.hl.unacked = []) (hf : e.mt.faults = []) :
    hostLoss cause e = drainReply (count Ctr.hlHostLosses 1 (losing cause e)) := by
  have hoff : (ringsOff (headsGone e)).hl.unacked = [] := by
    obtain ⟨⟨_, _, _, h, -⟩, -⟩ := headsDropped_headsGone e
    rw [h]
    exact hu
  have hmt : (count Ctr.hlHostLosses 1 (losing cause e)).mt.faults = [] := by
    obtain ⟨_, _, _, _, _, h, -⟩ := losing_eq cause e
    rw [(noted_count _ _ _).mt, h]
    exact hf
  rw [hostLoss_attached hup, refuseSky_none hoff]
  change drainReply (abortAllFaults (count Ctr.hlHostLosses 1 (losing cause e))) = _
  rw [abortAllFaults_none hmt]

/-- A reply changes no ring while no host is attached, and neither does that to a DETACH in progress. -/
theorem mbReply_detached {e : Eng} (h : e.hl.attach = .detached) (ty tag st : Nat) (body : List Byte) :
    (mbReply ty tag st body e).hl.rings = e.hl.rings := by
  unfold mbReply
  dsimp only
  generalize memPut 0 (memPut 0 e.hl.mailbox 0x810 body) 0x800 _ = mailbox
  exact irqSignal_detached (e := { e with hl := { e.hl with mailbox } }) h _

theorem drainReply_detached {e : Eng} (h : e.hl.attach = .detached) : (drainReply e).hl.rings = e.hl.rings ∧
    ∃ mailbox drain, Noted { e with hl := { e.hl with mailbox, drain } } (drainReply e) := by
  unfold drainReply
  split
  · next d _ =>
    have hrings := mbReply_detached (e := { e with hl := { e.hl with drain := none } }) h 3 d.1 0 (leBytes 1 e.hl.cause ++ zeros 15)
    obtain ⟨mailbox, hn⟩ := noted_mbReply 3 d.1 0 (leBytes 1 e.hl.cause ++ zeros 15) { e with hl := { e.hl with drain := none } }
    exact ⟨hrings, mailbox, none, hn⟩
  · exact ⟨rfl, e.hl.mailbox, e.hl.drain, .rfl _⟩

/-- What the loss of the host leaves. -/
structure HostGone (cause : Nat) (e t : Eng) : Prop where
  attach : t.hl.attach = .detached
  why : t.hl.cause = cause
  ring : ∀ k, ∃ head wr, ring t k = { ringOff (ring e k) with head, wr }
  cmds : t.hl.cmds = e.hl.cmds.map (carriedCmd e)
  calm : calmEng e = true → calmEng t = true
  mbHeld : t.hl.mbHeld = e.hl.mbHeld
  stopped : t.stopped = e.stopped
  build : t.build = e.build

theorem calmEng_losing {cause : Nat} {e : Eng} (h : calmEng e = true) : calmEng (losing cause e) = true := by
  obtain ⟨rings, st, ix, fb, rg, hl, hs, hst⟩ := losing_eq cause e
  rw [hl]
  unfold calmEng at h ⊢
  simp only [Bool.or_eq_true, Bool.and_eq_true, List.isEmpty_iff, Bool.not_eq_true', List.any_eq_false, beq_iff_eq, Bool.not_eq_true] at h ⊢
  refine h.imp_right fun h => ?_
  obtain ⟨⟨⟨⟨⟨⟨⟨⟨⟨hn, hr⟩, hb⟩, hy⟩, hc⟩, hf⟩, hg⟩, hd⟩, hsl⟩, hsw⟩ := h
  obtain ⟨hsl', hsw'⟩ := hst ⟨hsl, hsw⟩
  have hidle : ∀ c ∈ e.hl.cmds.map (carriedCmd e), Idle c := fun c hc => by
    obtain ⟨c', hc', rfl⟩ := List.mem_map.mp hc
    exact idle_carriedCmd ⟨hb c' hc', hy c' hc'⟩
  exact ⟨⟨⟨⟨⟨⟨⟨⟨⟨hn, hr⟩, fun c hc => (hidle c hc).1⟩, fun c hc => (hidle c hc).2⟩, hc⟩, hf⟩, hg⟩, hs.trans hd⟩, hsl'⟩, hsw'⟩

theorem hostGone {cause : Nat} {e : Eng} (hup : e.hl.attach ≠ .detached) (hu : e.hl.unacked = []) (hf : e.mt.faults = []) :
    HostGone cause e (hostLoss cause e) := by
  rw [hostLoss_eq hup hu hf]
  have hring := ring_losing cause e
  have hcalm := calmEng_losing (cause := cause) (e := e)
  obtain ⟨rings, st, ix, fb, rg, hl, -, -⟩ := losing_eq cause e
  have hn := noted_count Ctr.hlHostLosses 1 (losing cause e)
  have hw := onlyWr_count Ctr.hlHostLosses 1 (losing cause e)
  generalize count Ctr.hlHostLosses 1 (losing cause e) = u at hn hw ⊢
  have hdet : u.hl.attach = .detached := by rw [hn.hl_attach, hl]
  obtain ⟨hrings, mailbox, drain, hd⟩ := drainReply_detached hdet
  generalize drainReply u = t at hrings hd ⊢
  refine ⟨hd.hl_attach.trans hdet, hd.hl_cause.trans ?_, fun k => ?_, hd.hl_cmds.trans ?_, fun h => hd.calm.trans ?_, hd.hl_mbHeld.trans ?_,
    hd.stopped.trans ?_, hd.build.trans ?_⟩
  · exact hn.hl_cause.trans (by rw [hl])
  · obtain ⟨head, hr⟩ := hring k
    obtain ⟨wr, hk⟩ := hw k
    exact ⟨head, wr, by rw [ring_congr hrings, hk, hr]; rfl⟩
  · exact hn.hl_cmds.trans (by rw [hl])
  · exact hn.calm.trans (hcalm h)
  · exact hn.hl_mbHeld.trans (by rw [hl])
  · exact hn.stopped.trans (by rw [hl])
  · exact hn.build.trans (by rw [hl])

/-- The three ways to lose the host are the one loss. -/
theorem exec_hostLoss {i : Instr} {cause : Nat} {s : State} (hio : ioUp s = true)
    (hi : (i = .hostLinkReset ∧ cause = 3) ∨ (i = .heartbeatTimeout ∧ cause = 4 ∧ s.eng.hl.attach = .attached ∧ s.eng.hl.heartbeatMs ≠ 0) ∨
      (i = .drainTimeout ∧ cause = 2 ∧ s.eng.hl.attach = .detaching)) : exec i s = .next (settle (onEng (hostLoss cause) s)) := by
  rcases hi with ⟨rfl, rfl⟩ | ⟨rfl, rfl, ha, hb⟩ | ⟨rfl, rfl, ha⟩
  · rw [exec_ioOf rfl, ioRow_up hio]
  · rw [exec_ioOf rfl, ioRow_up hio]
    refine congrArg (Host.Outcome.next ∘ settle) (onEng_congr ?_)
    rw [opHeartbeatTimeout, if_pos (by simp [attached, ha, hb])]
  · rw [exec_ioOf rfl, ioRow_up hio]
    refine congrArg (Host.Outcome.next ∘ settle) (onEng_congr ?_)
    rw [opDrainTimeout, if_pos (by simp [ha])]

/-- Settles O35: the loss disables the rings and carries the commands, and nothing of it goes on by itself. -/
theorem hostLossCarriesCommands : Obligations.HostLossCarriesCommands := by
  intro i cause s hio _ hc hi
  rw [exec_hostLoss hio hi]
  refine ⟨fun ha => ?_, fun ha hu hf => ?_⟩
  · have hnone : hostLoss cause s.eng = s.eng := by simp [hostLoss, hostUp, ha]
    have hstay : onEng (hostLoss cause) s = s := by rw [onEng, hnone]
    rw [hstay, settle_calm hc]
  · have hgone := hostGone (cause := cause) ha hu hf
    have hset := settle_still (t := onEng (hostLoss cause) s) hc (hgone.calm (calmEng_of_calm hc)) hgone.mbHeld hgone.stopped hgone.build rfl rfl rfl
    refine ⟨_, congrArg Host.Outcome.next hset, hgone.attach, hgone.why, fun k => ?_, hgone.cmds⟩
    obtain ⟨head, wr, hk⟩ := hgone.ring k
    rw [onEng_eng, hk]
    exact ⟨rfl, rfl, rfl, rfl, rfl, rfl⟩

end Sys2Proof.Machine

/-! SUPPORT. Translation: what sending a packet, beginning walks and telling waiters of their faults change (R323, R326, R330). -/

namespace Sys2Proof.Machine

/-! ## Packets sent -/

/-- `u` differs from `e` at most in the fabric and in what noting can change. -/
def Sent (e u : Eng) : Prop := ∃ fb, Noted { e with fb } u

theorem Noted.sent {e u : Eng} (h : Noted e u) : Sent e u := ⟨e.fb, h⟩

theorem Sent.trans {a b c : Eng} (h : Sent a b) (k : Sent b c) : Sent a c := by
  obtain ⟨_, _, _, _, _, _, _, _, _, rfl⟩ := h
  obtain ⟨fb, x1, x2, x3, x4, x5, x6, x7, x8, rfl⟩ := k
  exact ⟨fb, x1, x2, x3, x4, x5, x6, x7, x8, rfl⟩

theorem Sent.of_fb {e : Eng} (fb : Fabric) : Sent e { e with fb } := ⟨fb, .rfl _⟩

theorem Sent.set_fb {a b : Eng} (h : Sent a b) (fb : Fabric) : Sent a { b with fb } := h.trans (.of_fb fb)

theorem sent_setSession (peer : Nat) (f : Session → Session) (e : Eng) : Sent e (setSession peer f e) := .of_fb _

theorem sent_putWire (l : Nat) (bs : List Byte) (e : Eng) : Sent e (putWire l bs e) := .of_fb _

theorem sent_putDirect (l : Nat) (bs : List Byte) (e : Eng) : Sent e (putDirect l bs e) := .of_fb _

/-- A packet goes on a link as the link's mode has it. -/
theorem sent_putOn (l : Nat) (direct wire : List Byte) (e : Eng) : Sent e (if linkMode e l = 2 then putDirect l direct e else putWire l wire e) := by
  split
  · exact sent_putDirect l direct e
  · exact sent_putWire l wire e

theorem sent_emit (p : Packet) (e : Eng) : Sent e (emit p e) := by
  unfold emit
  split
  · exact (noted_count _ _ e).sent
  · dsimp only
    refine .trans (.set_fb ?_ _) (sent_putOn _ _ _ _)
    exact (noted_counts _ e).sent

theorem sent_transmit (peer : Nat) (p : Packet) (e : Eng) : Sent e (transmit peer p e) := (sent_setSession peer _ e).trans (sent_emit _ _)

theorem sent_pumpList (peer : Nat) (before l : List Packet) (e : Eng) : Sent e (pumpList peer before l e).1 := by
  induction l generalizing before e with
  | nil => exact (Noted.rfl e).sent
  | cons p t ih =>
    unfold pumpList
    split
    · exact (sent_transmit peer p e).trans (ih _ _)
    · exact ih _ _

theorem sent_pump (peer : Nat) (e : Eng) : Sent e (pump peer e) := by
  unfold pump
  dsimp only
  split
  · exact (Noted.rfl e).sent
  · exact (sent_pumpList peer [] _ e).trans (sent_setSession peer _ _)

/-- What becomes of a queued packet: it goes, waits, or asks for the session. -/
theorem sent_queued (peer : Nat) (isOpen asked : Bool) (e : Eng) : Sent e
    (if isOpen then pump peer e else if asked then e else sendUnseq peer .sync (setSession peer (fun s => { s with syncSent := true }) e)) := by
  split
  · exact sent_pump peer e
  · split
    · exact (Noted.rfl e).sent
    · exact (sent_setSession peer _ e).trans (sent_emit _ _)

theorem sent_sendPacket (peer step : Nat) (b : Body) (again : Bool) (e : Eng) : Sent e (sendPacket peer step b again e) := by
  unfold sendPacket
  split
  · exact sent_emit _ e
  · dsimp only
    refine .trans ?_ (sent_queued peer _ _ _)
    exact (sent_setSession peer _ e).trans (noted_count _ _ _).sent

theorem sent_skyReply (h : PktHdr) (b : Body) (e : Eng) : Sent e (skyReply h b e) := sent_sendPacket ..

theorem Sent.calm {e u : Eng} (h : Sent e u) : calmEng u = calmEng e := by
  obtain ⟨fb, hn⟩ := h
  exact hn.calm

/-! ## Waiters told of their faults -/

/-- With no stream slot in use no run halts. -/
theorem haltRun_none {e : Eng} (h : e.st.slots = []) (n : Nat) : haltRun n e = e := by
  have hslot : stSlot e n = {} := by rw [stSlot, h]; rfl
  rw [haltRun, hslot]

theorem sent_tellFault {e : Eng} (h : e.st.slots = []) (p : Waiter × Option Nat) : Sent e (tellFault p e) := by
  unfold tellFault
  split
  · exact sent_skyReply ..
  · exact sent_skyReply ..
  · rw [haltRun_none h]
    exact (Noted.rfl e).sent
  · exact (Noted.rfl e).sent

theorem Sent.slots {e u : Eng} (h : Sent e u) : u.st.slots = e.st.slots := by
  obtain ⟨fb, hn⟩ := h
  rw [hn.st]

theorem sent_tellFaults {e : Eng} (h : e.st.slots = []) : Sent { e with mt := { e.mt with notices := [] } } (tellFaults e) := by
  have hfold (l : List (Waiter × Option Nat)) (u : Eng) (hu : u.st.slots = []) : Sent u (l.foldl (fun e p => tellFault p e) u) := by
    induction l generalizing u with
    | nil => exact (Noted.rfl u).sent
    | cons p t ih =>
      have hp := sent_tellFault hu p
      exact hp.trans (ih _ (hp.slots.trans hu))
  exact hfold _ _ h

/-- Rounds go on from what the first of them leaves. -/
theorem settleRounds_congr {a b : Eng} (h : settleRound a = settleRound b) (n : Nat) : settleRounds (n + 1) a = settleRounds (n + 1) b :=
  congrArg (fun e => if unsettled e then settleRounds n e else e) h

/-- A data path that only has notices to give settles to having given them. -/
theorem settleEng_notices {e : Eng} (hs : e.stopped = false) (h : calmEng { e with mt := { e.mt with notices := [] } } = true) :
    settleEng e = tellFaults e ∧ Sent { e with mt := { e.mt with notices := [] } } (tellFaults e) ∧ calmEng (tellFaults e) = true := by
  have hslots : e.st.slots = [] := by
    simp only [calmEng, hs, Bool.false_or, Bool.and_eq_true, List.isEmpty_iff] at h
    exact h.1.2
  have hsent := sent_tellFaults hslots
  have hcalm : calmEng (tellFaults e) = true := hsent.calm.trans h
  have hstop : (tellFaults e).stopped = false := by
    obtain ⟨fb, hn⟩ := hsent
    exact hn.stopped.trans hs
  have hnone : (tellFaults e).mt.notices = [] := by
    obtain ⟨fb, hn⟩ := hsent
    rw [hn.mt]
  refine ⟨?_, hsent, hcalm⟩
  have hround : settleRound e = settleRound (tellFaults e) := by rw [settleRound, settleRound, tellFaults_none hnone]
  have hboth : settleEng e = settleEng (tellFaults e) := by
    unfold settleEng
    rw [hs, hstop]
    exact settleRounds_congr hround 63
  rw [hboth, settleEng_calm hcalm]

/-- An engine settles as its data path does, where that leaves it calm. -/
theorem settle_of_settleEng {s : State} (h : calm (onEng settleEng s) = true) : settle s = onEng settleEng s := by
  have htwice : onEng settleEng (onEng settleEng s) = onEng settleEng s := by
    have hstay : settleEng (settleEng s.eng) = settleEng s.eng := settleEng_calm (calmEng_of_calm h)
    unfold onEng
    dsimp only
    rw [hstay]
  have hall := settle_calm h
  rw [settle, htwice] at hall
  exact hall

/-- `u` is `e` once waiters are told of their faults. -/
def Told (e u : Eng) : Prop := ∃ notices fb, Noted { e with mt := { e.mt with notices }, fb } u

/-- An engine that is calm but for notices settles to having given them. -/
theorem settle_notices {s t : State} (hc : calm s = true) (h : calmEng { t.eng with mt := { t.eng.mt with notices := [] } } = true)
    (hm : t.eng.hl.mbHeld = s.eng.hl.mbHeld) (hs : t.eng.stopped = s.eng.stopped) (hb : t.eng.build = s.eng.build) (hg : t.pw.goal = s.pw.goal)
    (hh : t.nw.held = s.nw.held) (hf : t.fw = s.fw) : ∃ u, settle t = { t with eng := u } ∧ Told t.eng u := by
  cases hstop : t.eng.stopped with
  | true =>
    have hcalm : calmEng t.eng = true := by simp [calmEng, hstop]
    exact ⟨t.eng, settle_still hc hcalm hm hs hb hg hh hf, t.eng.mt.notices, t.eng.fb, .rfl _⟩
  | false =>
    obtain ⟨hset, ⟨fb, hn⟩, hcalm⟩ := settleEng_notices hstop h
    refine ⟨tellFaults t.eng, ?_, [], fb, hn⟩
    have hon : onEng settleEng t = { t with eng := tellFaults t.eng } := by rw [onEng, hset]
    rw [← hon]
    refine settle_of_settleEng ?_
    rw [hon]
    simp only [calm, hcalm, hn.hl_mbHeld, hn.stopped, hn.build, hm, hs, hb, hg, hh, hf]
    simpa only [calm, calmEng_of_calm hc] using hc

end Sys2Proof.Machine

/-! SUPPORT. Invalidation: the ranges it removes and the walks it holds (R326, R341). -/

namespace Sys2Proof.Machine

/-! ## Faults recorded -/

/-- `u` differs from `e` at most in the fault table, those who wait for it, and what noting can change. -/
def Faulted (e u : Eng) : Prop := ∃ faults notices starved, Noted { e with mt := { e.mt with faults, notices, starved } } u

theorem Noted.faulted {e u : Eng} (h : Noted e u) : Faulted e u := ⟨e.mt.faults, e.mt.notices, e.mt.starved, h⟩

theorem Faulted.trans {a b c : Eng} (h : Faulted a b) (k : Faulted b c) : Faulted a c := by
  obtain ⟨_, _, _, _, _, _, _, _, _, _, _, rfl⟩ := h
  obtain ⟨faults, notices, starved, x1, x2, x3, x4, x5, x6, x7, x8, rfl⟩ := k
  exact ⟨faults, notices, starved, x1, x2, x3, x4, x5, x6, x7, x8, rfl⟩

theorem faulted_setFault (id : Nat) (f : FaultEntry) (e : Eng) : Faulted e (setFault id f e) := ⟨_, e.mt.notices, e.mt.starved, .rfl _⟩

theorem faulted_notices (l : List (Waiter × Option Nat)) (e : Eng) : Faulted e { e with mt := { e.mt with notices := l } } :=
  ⟨e.mt.faults, l, e.mt.starved, .rfl _⟩

theorem faulted_starve (w : Waiter) (e : Eng) : Faulted e (starve w e) := by
  unfold starve
  split
  · exact (Noted.rfl e).faulted
  · exact ⟨e.mt.faults, e.mt.notices, _, noted_count _ _ _⟩

theorem faulted_joinFault (id : Nat) (w : Waiter) (e : Eng) : Faulted e (joinFault id w e).1 := by
  unfold joinFault
  dsimp only
  split
  · exact (faulted_setFault id _ e).trans (noted_count _ _ _).faulted
  · exact faulted_starve w e

theorem faulted_recordFault (table kind start fin flags acc a : Nat) (w : Waiter) (e : Eng) :
    Faulted e (recordFault table kind start fin flags acc a w e).1 := by
  unfold recordFault
  split
  · exact faulted_joinFault _ w e
  · split
    · exact faulted_starve w e
    · exact ((faulted_setFault _ _ e).trans (noted_count _ _ _).faulted).trans (noted_raiseEvent _ _).faulted

theorem faulted_recordFaults (table kind start fin acc a : Nat) (l : List Waiter) (e : Eng) :
    Faulted e (recordFaults table kind start fin acc a l e) := by
  induction l generalizing e with
  | nil => exact (Noted.rfl e).faulted
  | cons w t ih => exact ((faulted_recordFault table kind start fin 0 acc a w e).trans (faulted_notices _ _)).trans (ih _)

/-! ## Walks begun -/

/-- `u` is `e` with walks begun, each of which `P` allows, ended at once, or put behind those that wait. -/
structure Begun (P : Walk → Prop) (e u : Eng) : Prop where
  only : ∃ walks queued, Faulted { e with mt := { e.mt with walks, queued } } u
  walks : ∀ w ∈ u.mt.walks, w ∈ e.mt.walks ∨ P w
  queued : ∀ w ∈ e.mt.queued, w ∈ u.mt.queued

theorem Faulted.begun {P : Walk → Prop} {e u : Eng} (h : Faulted e u) : Begun P e u := by
  refine ⟨⟨e.mt.walks, e.mt.queued, h⟩, ?_, ?_⟩ <;> obtain ⟨_, _, _, hn⟩ := h <;> rw [hn.mt]
  · exact fun w hw => .inl hw
  · exact fun w hw => hw

theorem Begun.trans {P : Walk → Prop} {a b c : Eng} (h : Begun P a b) (k : Begun P b c) : Begun P a c := by
  refine ⟨?_, fun w hw => ?_, fun w hw => k.queued w (h.queued w hw)⟩
  · obtain ⟨_, _, _, _, _, _, _, _, _, _, _, _, _, rfl⟩ := h.only
    obtain ⟨walks, queued, hk⟩ := k.only
    refine ⟨walks, queued, ?_⟩
    refine .trans ?_ hk
    exact ⟨_, _, _, _, _, _, _, _, _, _, _, rfl⟩
  · rcases k.walks w hw with hb | hp
    · exact h.walks w hb
    · exact .inr hp

theorem begun_startWalk {P : Walk → Prop} {w : Walk} (hw : P w) (e : Eng) : Begun P e (startWalk w e) := by
  unfold startWalk
  dsimp only
  split
  · refine Faulted.begun ?_
    split
    · exact (noted_counts _ e).faulted
    · exact (noted_counts _ e).faulted.trans (faulted_recordFaults ..)
  · split
    · have hn := noted_counts [(Ctr.mtWalks, 1), (Ctr.mtPrefetchWalks, if w.prefetch then 1 else 0)]
        { e with mt := { e.mt with walks := e.mt.walks ++ [w] } }
      refine ⟨⟨_, e.mt.queued, hn.faulted⟩, fun k hk => ?_, fun k hk => ?_⟩
      · rw [hn.mt] at hk
        rcases List.mem_append.mp hk with hk | hk
        · exact .inl hk
        · exact .inr (List.mem_singleton.mp hk ▸ hw)
      · rw [hn.mt]
        exact hk
    · exact ⟨⟨e.mt.walks, _, (Noted.rfl _).faulted⟩, fun k hk => .inl hk, fun k hk => List.mem_append_left _ hk⟩

/-- The walks that wait for a walker begin, those that wait for an invalidation stay. -/
theorem begun_startQueued (e : Eng) : Begun (fun w => ∃ k ∈ e.mt.queued, k.held = false ∧ k.table = w.table ∧ k.addr = w.addr)
    { e with mt := { e.mt with queued := e.mt.queued.filter (fun w => w.held) } } (startQueued e) := by
  have hfold (l : List Walk) (hl : ∀ k ∈ l, k ∈ e.mt.queued ∧ k.held = false) (u : Eng) :
      Begun (fun w => ∃ k ∈ e.mt.queued, k.held = false ∧ k.table = w.table ∧ k.addr = w.addr) u
        (l.foldl (fun e w => startWalk { w with hi := rootCount e w.table } e) u) := by
    induction l generalizing u with
    | nil => exact (Noted.rfl u).faulted.begun
    | cons k t ih =>
      obtain ⟨hk, hheld⟩ := hl k List.mem_cons_self
      exact (begun_startWalk ⟨k, hk, hheld, rfl, rfl⟩ u).trans (ih (fun j hj => hl j (List.mem_cons_of_mem k hj)) _)
  refine hfold _ (fun k hk => ?_) _
  simpa using hk

/-- With none waiting for a walker, none begins. -/
theorem startQueued_held {e : Eng} (h : ∀ k ∈ e.mt.queued, k.held = true) : startQueued e = e := by
  have hready : e.mt.queued.filter (fun w => !w.held) = [] := List.filter_eq_nil_iff.mpr fun k hk => by simp [h k hk]
  have hwait : e.mt.queued.filter (fun w => w.held) = e.mt.queued := List.filter_eq_self.mpr h
  unfold startQueued
  dsimp only
  rw [hready, hwait]
  rfl

/-! ## Invalidations -/

/-- A span does not overlap a range of its table. -/
def spares (table a n : Nat) (r : Range) : Bool := !(r.table == table && overlaps a n r.start r.length)

theorem spares_iff (table a n : Nat) (r : Range) :
    spares table a n r = true ↔ ¬(r.table = table ∧ a < r.start + r.length ∧ r.start < a + n) := by
  simp only [spares, overlaps, Bool.not_eq_true', Bool.eq_false_iff, ne_eq, Bool.and_eq_true, beq_iff_eq, decide_eq_true_eq]

/-- The walks of a table as an invalidation holds them for a restart. -/
def restarts (table : Nat) (e : Eng) : List Walk :=
  (e.mt.walks.filter (fun w => w.table == table)).map
    (fun w => { newWalk e w.table w.addr w.acc w.prefetch w.slot w.waiters with held := true })

/-- The data path with a span's ranges removed and its table's walks held, before other walks begin. -/
def rangesDropped (table a n : Nat) (e : Eng) : Eng :=
  { e with
    mt := { e.mt with
      cache := e.mt.cache.filter (spares table a n)
      holds := e.mt.holds.filter (fun h => spares table a n h.2.2)
      served := e.mt.served.filter (fun s => spares table a n s.2.2)
      walks := e.mt.walks.filter (fun w => w.table != table)
      queued := e.mt.queued ++ restarts table e }
    st := { e.st with slots := e.st.slots.map (fun s => (s.1, { s.2 with
      run := s.2.run.map (fun u => { u with heldSrc := u.heldSrc.keep (spares table a n), heldDst := u.heldDst.keep (spares table a n) }) })) } }

theorem dropRanges_eq (table a n : Nat) (e : Eng) : dropRanges table a n e = startQueued (rangesDropped table a n e) := rfl

theorem held_of_mem_restarts {table : Nat} {e : Eng} {w : Walk} (h : w ∈ restarts table e) : w.held = true := by
  obtain ⟨_, _, rfl⟩ := List.mem_map.mp h
  rfl

/-- What an invalidation leaves of Meridian. -/
structure Invalidated (table a n : Nat) (m m' : Meridian) : Prop where
  busy : m'.busy = true
  roots : m'.roots = m.roots
  cache : m'.cache = m.cache.filter (spares table a n)
  resume : m'.resume = m.resume
  still : (∀ k ∈ m.queued, k.held = true) → m'.faults = m.faults ∧ ∀ w ∈ m'.walks, w ∈ m.walks ∧ w.table ≠ table
  starved : (∀ k ∈ m.queued, k.held = true) → m'.starved = m.starved
  walks : ∀ w ∈ m'.walks, w ∈ m.walks ∧ w.table ≠ table ∨ ∃ k ∈ m.queued, k.held = false ∧ k.table = w.table ∧ k.addr = w.addr
  queued : ∀ w ∈ m.walks, w.table = table → ∃ k ∈ m'.queued, k.held = true ∧ k.table = w.table ∧ k.addr = w.addr ∧ k.waiters = w.waiters

theorem invalidated_startQueued (table a n : Nat) (e : Eng) :
    Invalidated table a n e.mt { (startQueued (rangesDropped table a n e)).mt with busy := true } := by
  have hb := begun_startQueued (rangesDropped table a n e)
  have hmt : ∃ walks queued faults notices starved, (startQueued (rangesDropped table a n e)).mt =
      { (rangesDropped table a n e).mt with walks, queued, faults, notices, starved } := by
    obtain ⟨walks, queued, faults, notices, starved, hn⟩ := hb.only
    exact ⟨walks, queued, faults, notices, starved, hn.mt⟩
  obtain ⟨walks, queued, faults, notices, starved, hmt⟩ := hmt
  have hstill : (∀ k ∈ e.mt.queued, k.held = true) → startQueued (rangesDropped table a n e) = rangesDropped table a n e := fun hq =>
    startQueued_held fun k hk => (List.mem_append.mp hk).elim (hq k) held_of_mem_restarts
  have hkept {w : Walk} (hw : w ∈ (rangesDropped table a n e).mt.walks) : w ∈ e.mt.walks ∧ w.table ≠ table := by
    simpa [rangesDropped] using hw
  refine ⟨rfl, by rw [hmt]; rfl, by rw [hmt]; rfl, by rw [hmt]; rfl, fun hq => ?_, fun hq => ?_, fun w hw => ?_, fun w hw ht => ?_⟩
  · rw [hstill hq]
    exact ⟨rfl, fun w hw => hkept hw⟩
  · rw [hstill hq]
    rfl
  · rcases hb.walks w hw with hw | ⟨k, hk, hheld, hkt, hka⟩
    · exact .inl (hkept hw)
    · rcases List.mem_append.mp hk with hk | hk
      · exact .inr ⟨k, hk, hheld, hkt, hka⟩
      · exact absurd (held_of_mem_restarts hk) (by rw [hheld]; decide)
  · have hr : ({ newWalk e w.table w.addr w.acc w.prefetch w.slot w.waiters with held := true } : Walk) ∈ restarts table e :=
      List.mem_map.mpr ⟨w, List.mem_filter.mpr ⟨hw, by simpa using ht⟩, rfl⟩
    refine ⟨_, hb.queued _ (List.mem_filter.mpr ⟨List.mem_append_right _ hr, rfl⟩), rfl, rfl, rfl, rfl⟩

/-- What an invalidation leaves of a data path. -/
structure InvalidatedEng (table a n : Nat) (e u : Eng) : Prop where
  mt : Invalidated table a n e.mt u.mt
  only : ∃ mt st, Noted { e with mt, st } u ∧ mt.resume = e.mt.resume ∧ (NoStreams e → st.slots = [] ∧ st.swaps = [])

theorem invalidatedEng_invalidate (table a n : Nat) (e : Eng) : InvalidatedEng table a n e (invalidate table a n e) := by
  have hmt := invalidated_startQueued table a n e
  have hb := (begun_startQueued (rangesDropped table a n e)).only
  unfold invalidate
  rw [dropRanges_eq]
  generalize startQueued (rangesDropped table a n e) = v at hmt hb
  have hn := noted_count Ctr.mtInvalidations 1 { v with mt := { v.mt with busy := true } }
  generalize count Ctr.mtInvalidations 1 { v with mt := { v.mt with busy := true } } = u at hn
  refine ⟨by rw [hn.mt]; exact hmt, ?_⟩
  obtain ⟨walks, queued, faults, notices, starved, x1, x2, x3, x4, x5, x6, x7, x8, rfl⟩ := hb
  refine ⟨{ (rangesDropped table a n e).mt with walks, queued, faults, notices, starved, busy := true }, (rangesDropped table a n e).st,
    .trans ?_ hn, ?_, fun h => ?_⟩
  · exact ⟨x1, x2, x3, x4, x5, x6, x7, x8, rfl⟩
  · rfl
  · obtain ⟨hsl, hsw⟩ := h
    exact ⟨by unfold rangesDropped; dsimp only; rw [hsl]; rfl, hsw⟩

theorem InvalidatedEng.calm {table a n : Nat} {e u : Eng} (h : InvalidatedEng table a n e u) (hc : calmEng e = true) :
    calmEng { u with mt := { u.mt with notices := [] } } = true := by
  obtain ⟨mt, st, hn, hres, hst⟩ := h.only
  have hsame : calmEng { u with mt := { u.mt with notices := [] } } = calmEng { e with mt := { mt with notices := [] }, st } := by
    obtain ⟨_, _, _, _, _, _, _, _, rfl⟩ := hn
    rfl
  rw [hsame]
  unfold calmEng at hc ⊢
  simp only [Bool.or_eq_true, Bool.and_eq_true, List.isEmpty_iff] at hc ⊢
  refine hc.imp_right fun hc => ?_
  obtain ⟨⟨⟨⟨⟨⟨⟨⟨⟨_, hr⟩, hb⟩, hy⟩, hcl⟩, hf⟩, hg⟩, hd⟩, hsl⟩, hsw⟩ := hc
  obtain ⟨hsl', hsw'⟩ := hst ⟨hsl, hsw⟩
  exact ⟨⟨⟨⟨⟨⟨⟨⟨⟨trivial, hres.trans hr⟩, hb⟩, hy⟩, hcl⟩, hf⟩, hg⟩, hd⟩, hsl'⟩, hsw'⟩

/-- An invalidation written by the host, once those whose walks ended are told. -/
theorem settle_invalidate {s : State} (hc : calm s = true) (table a n : Nat) : ∃ u, settle (onEng (invalidate table a n) s) = { s with eng := u } ∧
    Invalidated table a n s.eng.mt u.mt ∧ u.store = s.eng.store := by
  have hinv := invalidatedEng_invalidate table a n s.eng
  obtain ⟨mt, st, hn, -, -⟩ := hinv.only
  obtain ⟨u, hu, notices, fb, ht⟩ := settle_notices (t := onEng (invalidate table a n) s) hc (hinv.calm (calmEng_of_calm hc)) hn.hl_mbHeld
    hn.stopped hn.build rfl rfl rfl
  refine ⟨u, hu, ?_, ht.store.trans hn.store⟩
  rw [ht.mt]
  exact ⟨hinv.mt.busy, hinv.mt.roots, hinv.mt.cache, hinv.mt.resume, hinv.mt.still, hinv.mt.starved, hinv.mt.walks, hinv.mt.queued⟩

theorem exec_mtInvalCmd {s : State} (hio : ioUp s = true) (v : Word) : exec (.mtInvalCmd v) s = .next (settle (onEng (invalCmd v.toNat) s)) := by
  rw [exec_registerRow rfl, writeRow, ioRow_up hio]
  rfl

theorem invalCmd_busy {v : Nat} {e : Eng} (h : e.mt.busy = true) : invalCmd v e = e := by rw [invalCmd, if_pos h]

theorem invalCmd_idle {v : Nat} {e : Eng} (h : e.mt.busy = false) : invalCmd v e =
    invalidate (v % 2 ^ 9) (if v.testBit 31 then 0 else e.mt.invalAddr / 4096 * 4096)
      (if v.testBit 31 then 2 ^ 64 else (e.mt.invalLen + 4095) / 4096 * 4096) e := by
  rw [invalCmd, if_neg (by rw [h]; decide), fld, Nat.pow_zero, Nat.div_one]
  unfold bit
  split <;> rfl

/-- With nothing held for it, the end of an invalidation only clears BUSY. -/
theorem opInvalidationDone_only {e : Eng} (hb : e.mt.busy = true) (hq : e.mt.queued = []) (hd : e.mt.deferred = []) (hs : shutOut e .io 0 6 = false) :
    opInvalidationDone e = { e with mt := { e.mt with busy := false } } := by
  have hafter : afterInvalidation { e with mt := { e.mt with busy := false } } =
      startQueued { e with mt := { e.mt with busy := false, queued := [], deferred := [] } } := by
    unfold afterInvalidation
    dsimp only
    rw [hq, hd]
    rfl
  rw [opInvalidationDone, hb, hs, Bool.not_false, Bool.and_true, if_pos rfl, hafter, startQueued_held fun k hk => absurd hk List.not_mem_nil,
    ← hq, ← hd]

/-- Settles O40: the span's ranges are removed and the table's walks held; walks begin only of those that waited for a walker. -/
theorem invalidationsRemoveRanges : Obligations.InvalidationsRemoveRanges := by
  intro v s hio hc m table lo len
  refine ⟨fun hb => ?_, fun hb => ?_, fun hb hq hd hs => ?_⟩
  · have hstay : onEng (invalCmd v.toNat) s = s := by rw [onEng, invalCmd_busy hb]
    rw [exec_mtInvalCmd hio, hstay, settle_calm hc]
  · have hinv : onEng (invalCmd v.toNat) s = onEng (invalidate table lo len) s := onEng_congr (invalCmd_idle hb)
    obtain ⟨u, hu, hmt, hstore⟩ := settle_invalidate hc table lo len
    refine ⟨_, (exec_mtInvalCmd hio v).trans (congrArg Host.Outcome.next ((congrArg settle hinv).trans hu)), hmt.busy, hmt.roots, fun q => ?_,
      hmt.still, hmt.walks, hmt.queued, hstore, rfl, rfl, rfl, rfl⟩
    dsimp only
    rw [hmt.cache, List.mem_filter, spares_iff]
  · have hdone : onEng opInvalidationDone s = { s with eng := { s.eng with mt := { m with busy := false } } } := by
      rw [onEng, opInvalidationDone_only hb hq hd hs]
    rw [exec_ioOf rfl, ioRow_up hio, hdone]
    exact congrArg Host.Outcome.next (settle_still hc (calmEng_of_calm hc) rfl rfl rfl rfl rfl rfl)

end Sys2Proof.Machine

/-! SUPPORT. Resolving translation faults (R326, R331). -/

namespace Sys2Proof.Machine

theorem namesFault_iff {e : Eng} {id : Nat} (h : id < 32) (gen : BitVec 8) :
    namesFault e id gen = true ↔ (faultEntry e id).pending = true ∧ (faultEntry e id).gen = gen := by
  rw [namesFault, decide_eq_true h, Bool.true_and, Bool.and_eq_true, beq_iff_eq]

theorem opFaultRetry_stale {e : Eng} {id : Nat} {gen : BitVec 8} (h : namesFault e id gen = false) :
    opFaultRetry id gen e = count Ctr.mtResolveStale 1 e := by
  rw [opFaultRetry, h]
  rfl

theorem opFaultAbort_stale {e : Eng} {id : Nat} {gen : BitVec 8} (h : namesFault e id gen = false) :
    opFaultAbort id gen e = count Ctr.mtResolveStale 1 e := by
  rw [opFaultAbort, h]
  rfl

/-! ## ABORT -/

/-- A free entry as its fault leaves it. -/
def freed (f : FaultEntry) : FaultEntry := { f with pending := false, waiters := [] }

theorem freeFault_eq {e : Eng} (h : e.mt.starved = []) (id : Nat) : freeFault id e =
    { e with mt := { e.mt with faults := Tab.set e.mt.faults id (freed (faultEntry e id)) } } := by
  change { e with mt := { e.mt with
    faults := Tab.set e.mt.faults id (freed (faultEntry e id)), starved := [], resume := e.mt.resume ++ e.mt.starved } } = _
  rw [h, List.append_nil]
  dsimp only
  rw [h]

theorem faultEntry_freeFault {e : Eng} (h : e.mt.starved = []) (id : Nat) : faultEntry (freeFault id e) id = freed (faultEntry e id) := by
  rw [freeFault_eq h, faultEntry, tabGet_set, if_pos rfl]

/-- A command that waited for a fault, as its abortion completes it. -/
def abortedCmd (e : Eng) (kind : Nat) (c : RunCmd) : RunCmd :=
  if c.done.isNone then { c with work := .none, done := some { status := Status.xlateFault, detail := kind }, doneNo := nextDone e } else c

theorem idle_abortedCmd {e : Eng} {kind : Nat} {c : RunCmd} (h : Idle c) : Idle (abortedCmd e kind c) := by
  unfold abortedCmd
  split
  · exact ⟨Work.noConfusion, h.2⟩
  · exact h

theorem abortCmd_parked {e : Eng} {k : Nat} {c : RunCmd} (hc : findCmd e k = some c) (hw : c.work = .parked) (kind : Nat) :
    abortCmd k kind e = setCmd k (abortedCmd e kind) (dropReqs (fun q => q.cmdId == k) e) := by
  have hix : (ixWork c).isSome = false := by rw [ixWork, hw]; rfl
  rw [abortCmd, hc]
  dsimp only
  rw [hix]
  rfl

/-- Changing a command that keeps its identifier changes what its identifier finds. -/
theorem find_map_cmd {k : Nat} {f : RunCmd → RunCmd} (hf : ∀ c, (f c).id = c.id) {l : List RunCmd} {c : RunCmd}
    (h : l.find? (fun c => c.id == k) = some c) : (l.map (fun c => if c.id = k then f c else c)).find? (fun c => c.id == k) = some (f c) := by
  induction l with
  | nil => cases h
  | cons x t ih =>
    by_cases hx : x.id = k
    · have hfx : ((f x).id == k) = true := by rw [hf, hx]; exact beq_self_eq_true k
      rw [List.find?_cons_of_pos (by simpa using hx)] at h
      rw [List.map_cons, if_pos hx, List.find?_cons_of_pos (p := fun c : RunCmd => c.id == k) hfx, ← Option.some.inj h]
    · rw [List.find?_cons_of_neg (by simpa using hx)] at h
      rw [List.map_cons, if_neg hx, List.find?_cons_of_neg (by simpa using hx), ih h]

/-- What an ABORT leaves of a data path whose fault one parked command waits for. -/
theorem opFaultAbort_parked {e : Eng} {id k : Nat} {gen : BitVec 8} {c : RunCmd} (hn : namesFault e id gen = true) (hs : e.mt.starved = [])
    (hw : (faultEntry e id).waiters = [.cmd k]) (hc : findCmd e k = some c) (hp : c.work = .parked) :
    ∃ fb, opFaultAbort id gen e =
      { e with
        mt := { e.mt with faults := Tab.set e.mt.faults id (freed (faultEntry e id)) }, fb
        hl := { e.hl with cmds := e.hl.cmds.map (fun c => if c.id = k then abortedCmd e (faultEntry e id).kind c else c) } } := by
  rw [opFaultAbort, hn, if_pos rfl, abortFault, hw]
  change ∃ fb, abortCmd k (faultEntry e id).kind (freeFault id e) = _
  have hfree := freeFault_eq hs id
  have hc' : findCmd (freeFault id e) k = some c := by
    rw [hfree]
    exact hc
  rw [abortCmd_parked hc' hp, hfree]
  exact ⟨_, rfl⟩

/-! ## RETRY -/

theorem opFaultRetry_waiter {e : Eng} {id k : Nat} {gen : BitVec 8} (hn : namesFault e id gen = true) (hb : e.mt.busy = false)
    (hw : (faultEntry e id).waiters = [.cmd k]) : opFaultRetry id gen e =
      wake [.cmd k] (freeFault id
        (invalidate (faultEntry e id).table (faultEntry e id).start ((faultEntry e id).fin - (faultEntry e id).start) e)) := by
  unfold opFaultRetry
  dsimp only
  rw [hn, hb, hw]
  rfl

/-! ## Both -/

/-- Settles O41: a stale resolution is counted; ABORT completes the waiter, RETRY gives it its turn. -/
theorem faultsAreResolvedByName : Obligations.FaultsAreResolvedByName := by
  intro id gen s hid hio hc f
  have habort : exec (.faultAbort id gen) s = .next (settle (onEng (opFaultAbort id gen) s)) := by rw [exec_ioOf rfl, ioRow_up hio]
  have hretry : exec (.faultRetry id gen) s = .next (settle (onEng (opFaultRetry id gen) s)) := by rw [exec_ioOf rfl, ioRow_up hio]
  refine ⟨fun hno => ?_, fun hpend hgen hst k c hw hfc hpark hdone => ?_⟩
  · have hstale : namesFault s.eng id gen = false := Bool.eq_false_iff.mpr fun h => hno ((namesFault_iff hid gen).mp h)
    rw [habort, hretry, onEng_congr (g := count 0x5880 1) (opFaultRetry_stale hstale), onEng_congr (g := count 0x5880 1) (opFaultAbort_stale hstale),
      settle_noted hc (noted_count _ _ _)]
    exact ⟨rfl, rfl⟩
  have hname := (namesFault_iff hid gen).mpr ⟨hpend, hgen⟩
  refine ⟨?_, fun hb hq hwalks hdef => ?_⟩
  · obtain ⟨fb, ht⟩ := opFaultAbort_parked hname hst hw hfc hpark
    have hset : settle (onEng (opFaultAbort id gen) s) = onEng (opFaultAbort id gen) s := by
      refine settle_still hc ?_ ?_ ?_ ?_ rfl rfl rfl <;> rw [onEng_eng, ht]
      have hr : Recorded (s.eng.hl.cmds.map (fun c => if c.id = k then abortedCmd s.eng f.kind c else c)) s.eng
          { s.eng with hl := { s.eng.hl with cmds := s.eng.hl.cmds.map (fun c => if c.id = k then abortedCmd s.eng f.kind c else c) } } :=
        ⟨s.eng.hl.turns, s.eng.hl.nextId, .rfl _⟩
      refine hr.calmEng (calmEng_of_calm hc) fun hi c hmem => ?_
      obtain ⟨c', hc', rfl⟩ := List.mem_map.mp hmem
      split
      · exact idle_abortedCmd (hi c' hc')
      · exact hi c' hc'
    have hentry : faultEntry (opFaultAbort id gen s.eng) id = freed f := by
      rw [ht, faultEntry, tabGet_set, if_pos rfl]
    refine ⟨_, habort.trans (congrArg Host.Outcome.next hset), ?_, ?_, ⟨abortedCmd s.eng f.kind c, ?_, ?_⟩, ?_, rfl, rfl, rfl, rfl⟩
    · rw [onEng_eng, hentry]; rfl
    · rw [onEng_eng, hentry]; exact hgen
    · rw [onEng_eng, ht]
      exact find_map_cmd (fun c => by unfold abortedCmd; split <;> rfl) hfc
    · rw [abortedCmd, hdone]; rfl
    · rw [onEng_eng, ht]
  · have hinv := invalidatedEng_invalidate f.table f.start (f.fin - f.start) s.eng
    have hrun := opFaultRetry_waiter hname hb hw
    have hm := hinv.mt
    generalize invalidate f.table f.start (f.fin - f.start) s.eng = u at hrun hm
    have hheld : ∀ w ∈ s.eng.mt.queued, w.held = true := fun w hmem => by rw [hq] at hmem; cases hmem
    have hstarved : u.mt.starved = [] := (hm.starved hheld).trans hst
    have hentry : faultEntry u id = f := by
      rw [faultEntry, (hm.still hheld).1]
      exact rfl
    dsimp only
    rw [hrun, freeFault_eq hstarved, hentry]
    refine ⟨?_, ?_, hm.busy, fun q hmem => ?_⟩
    · exact congrArg (· ++ [Waiter.cmd k]) hm.resume
    · have hset : Tab.get {} (Tab.set u.mt.faults id (freed f)) id = freed f := by rw [tabGet_set, if_pos rfl]
      exact congrArg FaultEntry.pending hset
    · have hcache : q ∈ u.mt.cache := hmem
      rw [hm.cache, List.mem_filter, spares_iff] at hcache
      exact hcache

end Sys2Proof.Machine

/-! SUPPORT. Accesses through the dormer window. -/

namespace Sys2Proof.Machine

/-! ## Data stored in the stacks (R55, R267, R286) -/

/-- The stacks hold `m`, rows `d` differ from their replicas, and the cache may hold other lines; nothing else but notices changes. -/
def Stored (m : List Host.Cell) (d : List (Nat × Nat)) (e u : Eng) : Prop :=
  ∃ c, Noted { e with store := { e.store with mem := m, dirty := d, cache := c } } u

section
variable {e u w : Eng} {m m' : List Host.Cell} {d d' : List (Nat × Nat)}

theorem Noted.stored (h : Noted e u) : Stored e.store.mem e.store.dirty e u := ⟨e.store.cache, h⟩

theorem Stored.trans (h : Stored m d e u) (k : Stored m' d' u w) : Stored m' d' e w := by
  obtain ⟨c, _, _, _, _, _, _, _, _, rfl⟩ := h
  obtain ⟨c', _, _, _, _, _, _, _, _, rfl⟩ := k
  exact ⟨c', _, _, _, _, _, _, _, _, rfl⟩

theorem Stored.store (h : Stored m d e u) : u.store = { e.store with mem := m, dirty := d, cache := u.store.cache } := by
  obtain ⟨c, h⟩ := h
  rw [h.store]

theorem Stored.noted (h : Stored m d e u) (k : Noted u w) : Stored m d e w := by
  obtain ⟨c, h⟩ := h
  exact ⟨c, h.trans k⟩

theorem Stored.fb (h : Stored m d e u) : u.fb = e.fb := by
  obtain ⟨c, h⟩ := h
  exact h.fb

theorem Stored.calm (h : Stored m d e u) : calmEng u = calmEng e := by
  obtain ⟨c, h⟩ := h
  exact h.calm

theorem stored_useLines (ls : List Nat) (e : Eng) : Stored e.store.mem e.store.dirty e (useLines ls e) := ⟨_, .rfl _⟩

theorem stored_dropLines (a n : Nat) (e : Eng) : Stored e.store.mem e.store.dirty e (dropLines a n e) := ⟨_, .rfl _⟩

theorem Noted.stored_useLines (h : Noted e u) (ls : List Nat) : Stored e.store.mem e.store.dirty e (useLines ls u) :=
  h.stored.trans (h.store ▸ Sys2Proof.Machine.stored_useLines ls u)

theorem stored_cacheRead (a n : Nat) (e : Eng) : Stored e.store.mem e.store.dirty e (cacheRead true a n e) :=
  (noted_count ..).stored_useLines _

theorem stored_cacheWrite (a n : Nat) (e : Eng) : Stored e.store.mem e.store.dirty e (cacheWrite true a n e) :=
  (noted_count ..).stored_useLines _

/-- A store or a load goes on to nothing by itself. -/
theorem settle_stored {s : State} {f : Eng → Eng} (h : calm s = true) (hs : Stored m d s.eng (f s.eng)) : settle (onEng f s) = onEng f s := by
  have hc := hs.calm.trans (calmEng_of_calm h)
  obtain ⟨c, hn⟩ := hs
  exact settle_still h hc hn.hl_mbHeld hn.stopped hn.build rfl rfl rfl

end

/-! ## A store that reaches no indirect table (R58) -/

theorem memPut_append (b : Byte) (m : List Host.Cell) (a : Nat) (v w : List Byte) :
    memPut b m a (v ++ w) = memPut b (memPut b m a v) (a + v.length) w := by
  induction v generalizing m a with
  | nil => rfl
  | cons x v ih => rw [List.cons_append, memPut, ih, memPut, List.length_cons, Nat.add_assoc, Nat.add_comm 1]

/-- A byte's unit is that of its line. -/
theorem unitOf_line (e : Eng) (a : Nat) : unitOf e (32 * (a / 32)) = unitOf e a := by
  unfold unitOf
  rw [Nat.mul_div_cancel_left _ (by decide)]

/-- No line of a span holds part of an indirect table. -/
def SpanDirect (e : Eng) (a n : Nat) : Prop := ∀ y, a / 32 ≤ y → 32 * y < a + n → indirectUnit e (unitOf e (32 * y)) = false

theorem dataPutF_direct (f a : Nat) (bs : List Byte) (e : Eng) (hf : bs.length + a % 32 ≤ 32 * f) (hd : SpanDirect e a bs.length) :
    ∃ d, dataPutF f a bs e = { e with store := { e.store with mem := memPut 0 e.store.mem a bs, dirty := d } } := by
  induction f generalizing a bs e with
  | zero =>
    obtain rfl : bs = [] := List.length_eq_zero_iff.mp (by omega)
    exact ⟨e.store.dirty, rfl⟩
  | succ f ih =>
    rcases hb : bs.isEmpty with _ | _
    · have hne : 0 < bs.length := List.length_pos_iff.mpr (by simpa using hb)
      have hu : indirectUnit e (unitOf e a) = false := unitOf_line e a ▸ hd (a / 32) (Nat.le_refl _) (by omega)
      rw [dataPutF, hb, if_neg (by decide)]
      dsimp only
      rw [hu, if_neg (by decide)]
      obtain ⟨d, h⟩ := ih (a + (32 - a % 32)) (bs.drop (32 - a % 32)) (stackPut a (bs.take (32 - a % 32)) (noteDirect (unitOf e a) e))
        (by rw [List.length_drop]; omega) (fun y hy hlt => hd y (by omega) (by rw [List.length_drop] at hlt; omega))
      refine ⟨d, h.trans ?_⟩
      have hm : memPut 0 (memPut 0 e.store.mem a (bs.take (32 - a % 32))) (a + (32 - a % 32)) (bs.drop (32 - a % 32)) =
          memPut 0 e.store.mem a bs := by
        rcases Nat.le_total bs.length (32 - a % 32) with hle | hle
        · rw [List.drop_eq_nil_of_le hle, List.take_of_length_le hle, memPut]
        · conv => rhs; rw [← List.take_append_drop (32 - a % 32) bs, memPut_append, List.length_take, Nat.min_eq_left hle]
      rw [← hm]
      rfl
    · obtain rfl : bs = [] := List.isEmpty_iff.mp hb
      exact ⟨e.store.dirty, rfl⟩

theorem stored_dataPut {a : Nat} {bs : List Byte} {e : Eng} (hd : SpanDirect e a bs.length) :
    ∃ d, Stored (memPut 0 e.store.mem a bs) d e (dataPut a bs e) := by
  obtain ⟨d, h⟩ := dataPutF_direct (bs.length / 32 + 2) a bs (dropLines a bs.length e) (by omega) hd
  refine ⟨d, ?_⟩
  have hs : Stored (memPut 0 e.store.mem a bs) d e (dataPutF (bs.length / 32 + 2) a bs (dropLines a bs.length e)) := h ▸ ⟨_, .rfl _⟩
  exact hs.noted (noted_count _ _ _)

/-! ## The cases of R339 -/

section
variable {e : Eng} {x n : Nat}

/-- The window is off, or the stack of the byte has failed. -/
@[reducible] def WindowOff (e : Eng) (x : Nat) : Prop := e.mt.dwEnable = false ∨ (unitOf e (windowAddr e x)).1 / 64 ∈ e.store.failedStacks

/-- The byte lies in the reserved region (R47). -/
@[reducible] def WindowReserved (e : Eng) (x : Nat) : Prop := 2 ^ 25 - e.store.reserved ≤ (unitOf e (windowAddr e x)).2

theorem windowCase_off (h : WindowOff e x) : windowCase e x = .off := by
  unfold windowCase
  exact if_pos (by simpa [WindowOff] using h)

theorem windowCase_on (h : ¬WindowOff e x) :
    windowCase e x = if inReserved e (unitOf e (windowAddr e x)) then .reserved else if !e.mt.dwWriteEn then .readOnly else .normal := by
  unfold windowCase
  exact if_neg (by simpa [WindowOff] using h)

theorem windowCase_reserved (h : ¬WindowOff e x) (hr : WindowReserved e x) : windowCase e x = .reserved := by
  rw [windowCase_on h]
  exact if_pos (decide_eq_true hr)

theorem windowCase_open (h : ¬WindowOff e x) (hr : ¬WindowReserved e x) :
    windowCase e x = if !e.mt.dwWriteEn then .readOnly else .normal := by
  rw [windowCase_on h]
  exact if_neg (by simpa [inReserved, WindowReserved, channelUnits] using hr)

theorem windowCase_normal (h : ¬WindowOff e x) (hr : ¬WindowReserved e x) (he : e.mt.dwWriteEn = true) : windowCase e x = .normal := by
  rw [windowCase_open h hr, he]
  rfl

theorem windowCase_of_off (h : WindowOff e x) : windowCase e x ≠ .normal := by
  rw [windowCase_off h]
  decide

theorem windowCase_inReserved (h : WindowReserved e x) : windowCase e x ≠ .normal := by
  by_cases ho : WindowOff e x
  · rw [windowCase_off ho]
    decide
  · rw [windowCase_reserved ho h]
    decide

theorem windowCase_readOnly (h : e.mt.dwWriteEn = false) : windowCase e x ≠ .normal := by
  by_cases ho : WindowOff e x
  · rw [windowCase_off ho]
    decide
  · rw [windowCase_on ho, h, Bool.not_false, if_pos rfl]
    cases inReserved e (unitOf e (windowAddr e x)) <;> decide

/-! ## Reads -/

theorem windowCase_congr {u : Eng} (h : Noted e u) : windowCase u x = windowCase e x := by
  unfold windowCase windowAddr unitOf inReserved
  rw [h.mt, h.store, h.variant]

/-- What a read of the window returns. -/
def windowBytes (e : Eng) (x n : Nat) : List Byte :=
  if WindowOff e x then List.replicate n 0xFF else if WindowReserved e x then List.replicate n 0
  else memRead 0 e.store.mem (windowAddr e x) n

theorem windowRead_stored (x n : Nat) (e : Eng) :
    (windowRead x n e).1 = windowBytes e x n ∧ Stored e.store.mem e.store.dirty e (windowRead x n e).2 := by
  have hn : Noted e (count Ctr.dwReads 1 e) := noted_count ..
  have hc := windowCase_congr (x := x) hn
  have ha : windowAddr (count Ctr.dwReads 1 e) x = windowAddr e x := by rw [windowAddr, hn.mt, windowAddr]
  unfold windowRead windowBytes
  dsimp only
  generalize count Ctr.dwReads 1 e = u at *
  rw [hc, ha]
  by_cases ho : WindowOff e x
  · rw [windowCase_off ho, if_pos ho]
    exact ⟨rfl, hn.stored⟩
  · rw [if_neg ho]
    by_cases hr : WindowReserved e x
    · rw [windowCase_reserved ho hr, if_pos hr]
      exact ⟨rfl, hn.stored⟩
    · have hs := hn.stored.trans (hn.store ▸ stored_cacheRead (windowAddr e x) n u)
      have hg : (dataGet (windowAddr e x) n (cacheRead true (windowAddr e x) n u)).1 = memRead 0 e.store.mem (windowAddr e x) n := by
        rw [dataGet, stackRead, hs.store]
      have hq := hs.noted (noted_count Ctr.ctJobStackBytes n _)
      rw [windowCase_open ho hr, if_neg hr]
      cases e.mt.dwWriteEn
      · exact ⟨hg, hq⟩
      · exact ⟨hg, hq⟩

/-! ## Writes -/

theorem windowWrite_dropped {bs : List Byte} (h : windowCase e x ≠ .normal) : windowWrite x bs e = count Ctr.dwWritesDropped 1 e := by
  unfold windowWrite
  split
  · contradiction
  · rfl

theorem spanDirect_of_allowed (hc : windowCase e x = .normal) (h : windowForbidden e x n = false) : SpanDirect e (windowAddr e x) n := by
  intro y hy hlt
  rw [windowForbidden, hc, beq_self_eq_true, Bool.true_and, List.any_eq_false] at h
  refine Bool.eq_false_iff.mpr (h y ?_)
  rw [linesOf, List.mem_map]
  exact ⟨y - windowAddr e x / 32, List.mem_range.mpr (by omega), by omega⟩

theorem windowWrite_stored {bs : List Byte} (hc : windowCase e x = .normal) (h : windowForbidden e x bs.length = false) :
    ∃ d, Stored (memPut 0 e.store.mem (windowAddr e x) bs) d e (windowWrite x bs e) := by
  obtain ⟨d, hp⟩ := stored_dataPut (spanDirect_of_allowed hc h)
  refine ⟨d, ?_⟩
  unfold windowWrite
  rw [hc]
  dsimp only
  generalize dataPut (windowAddr e x) bs e = u at *
  have hw := stored_cacheWrite (windowAddr e x) bs.length u
  have hs := hp.store
  rw [hs] at hw
  exact (hp.trans hw).noted (noted_count ..)

end

/-! ## The rows -/

theorem dormerStore_made {x : Nat} {bs : List Byte} {s : State} (hw : windowOk x bs.length = true)
    (hf : windowForbidden s.eng x bs.length = false) : dormerStore x bs s = ioRow (onEng (windowWrite x bs)) s := by
  simp only [dormerStore, hw, hf, Bool.not_true, Bool.false_eq_true, if_false]

theorem dormerStore_dropped {x : Nat} {bs : List Byte} {s : State} (hw : windowOk x bs.length = true) (hc : windowCase s.eng x ≠ .normal) :
    dormerStore x bs s = ioRow (onEng (count Ctr.dwWritesDropped 1)) s := by
  have hf : windowForbidden s.eng x bs.length = false := by
    rw [windowForbidden, beq_eq_false_iff_ne.mpr hc, Bool.false_and]
  have he : onEng (windowWrite x bs) s = onEng (count Ctr.dwWritesDropped 1) s := by rw [onEng, windowWrite_dropped hc, onEng]
  rw [dormerStore_made hw hf, ioRow, ioRow, he]

theorem leBytes_leNat (bs : List Byte) : leBytes bs.length (leNat bs) = bs := by
  induction bs with
  | nil => rfl
  | cons b t ih =>
    have hb := b.isLt
    rw [List.length_cons, leBytes, leNat, show (b.toNat + 256 * leNat t) / 256 = leNat t by omega, ih]
    congr 1
    exact BitVec.eq_of_toNat_eq (by rw [BitVec.toNat_ofNat]; omega)

theorem exec_registerWrite_window {x : Nat} {bs : List Byte} (s : State) (h : bs.length = 4) (hx : x < 0x10000000) :
    exec (.registerWrite (0x10000000 + x) (BitVec.ofNat 32 (leNat bs))) s = dormerStore x bs s := by
  have hb : leBytes 4 (BitVec.ofNat 32 (leNat bs)).toNat = bs := by
    rw [BitVec.toNat_ofNat, show 2 ^ 32 = 256 ^ 4 by rfl, leBytes_mod, ← h, leBytes_leNat]
  change execRegisterWrite _ _ s = _
  rw [execRegisterWrite, alignedOnly_window (by omega), if_neg (by simp), if_pos ⟨by omega, by omega⟩, Nat.add_sub_cancel_left, hb]

theorem windowOk_lt {x n : Nat} (h : windowOk x n = true) (hn : n = 4) : x < 0x10000000 := by
  simp only [windowOk, Bool.and_eq_true, decide_eq_true_eq] at h
  omega

section
variable {s : State} {x n : Nat} {bs : List Byte} (hw : windowOk x n = true) (hio : ioUp s = true) (hcalm : calm s = true)
include hw hio hcalm

theorem exec_dormerRead : exec (.dormerRead x n) s = .next (loadWindow x n s) := by
  obtain ⟨c, h⟩ := (windowRead_stored x n s.eng).2
  refine (dormerLoad_ok hw).trans ((ioRow_up hio _).trans (congrArg _ ?_))
  exact settle_still hcalm (h.calm.trans (calmEng_of_calm hcalm)) h.hl_mbHeld h.stopped h.build rfl rfl rfl

theorem exec_dormerWrite_dropped (hn : bs.length = n) (hc : windowCase s.eng x ≠ .normal) :
    exec (.dormerWrite x bs) s = .next (onEng (count Ctr.dwWritesDropped 1) s) := by
  subst hn
  exact (dormerStore_dropped hw hc).trans ((ioRow_up hio _).trans (congrArg _ (settle_noted hcalm (noted_count _ 1 s.eng))))

theorem exec_dormerWrite_made (hn : bs.length = n) (hc : windowCase s.eng x = .normal) (hf : windowForbidden s.eng x n = false) :
    exec (.dormerWrite x bs) s = .next (onEng (windowWrite x bs) s) := by
  subst hn
  obtain ⟨d, hs⟩ := windowWrite_stored hc hf
  exact (dormerStore_made hw hf).trans ((ioRow_up hio _).trans (congrArg _ (settle_stored hcalm hs)))

end

/-- Settles O42, by the case of the access: a read returns what its case says and leaves only cached lines, and a write is dropped and
counted, or stores its bytes, none of whose lines is an indirect table's. -/
theorem windowAccessesFollowTheirCase : Obligations.WindowAccessesFollowTheirCase := by
  intro x n bs s hw hn hio hcalm hwf
  refine ⟨?_, fun h => exec_dormerWrite_dropped hw hio hcalm hn ?_, fun ho hr he hf => ?_, fun off h4 hoff => ?_⟩
  · obtain ⟨hb, hs⟩ := windowRead_stored x n s.eng
    exact ⟨loadWindow x n s, exec_dormerRead hw hio hcalm, hs.store, ⟨rfl, rfl, rfl, rfl⟩, hb⟩
  · rcases h with h | h | h
    · exact windowCase_of_off h
    · exact windowCase_inReserved h
    · exact windowCase_readOnly h
  · have hc : windowCase s.eng x = .normal := windowCase_normal ho hr he
    obtain ⟨d, hs⟩ := windowWrite_stored hc (hn ▸ hf)
    refine ⟨onEng (windowWrite x bs) s, exec_dormerWrite_made hw hio hcalm hn hc hf, ⟨rfl, rfl, rfl, rfl⟩, ?_⟩
    have hm : (onEng (windowWrite x bs) s).eng.store.mem = memPut 0 s.eng.store.mem (windowAddr s.eng x) bs := congrArg Store.mem hs.store
    rw [hm, ← hn]
    exact ⟨memRead_memPut hwf _ bs, hs.fb, fun y hy => memGet_memPut_out hwf hy⟩
  · rw [hoff]
    exact exec_registerWrite_window s (hn.trans h4) (windowOk_lt hw h4)

end Sys2Proof.Machine

/-! SUPPORT. HANDLE_PUSH and HANDLE_POP. -/

namespace Sys2Proof.Machine

section
variable {e u w : Eng} {q : Nat}

/-- Only handle queues differ. -/
def OnlyQueues (e u : Eng) : Prop := ∃ l, u = { e with st := { e.st with queues := l } }

theorem onlyQueues_setQueue (q : Nat) (f : HQueue → HQueue) (e : Eng) : OnlyQueues e (setQueue q f e) := ⟨_, rfl⟩

theorem OnlyQueues.trans (h : OnlyQueues e u) (k : OnlyQueues u w) : OnlyQueues e w := by
  obtain ⟨_, rfl⟩ := h
  obtain ⟨_, rfl⟩ := k
  exact ⟨_, rfl⟩

theorem OnlyQueues.store (h : OnlyQueues e u) : u.store = e.store := by
  obtain ⟨_, rfl⟩ := h
  rfl

theorem hqueue_setQueue (q : Nat) (f : HQueue → HQueue) (e : Eng) : hqueue (setQueue q f e) q = f (hqueue e q) :=
  (tabGet_set ..).trans (if_pos rfl)

/-! ## A push (R314) -/

theorem onlyQueues_opHandlePush (q hi : Nat) (e : Eng) : OnlyQueues e (opHandlePush q hi e) := by
  unfold opHandlePush
  dsimp only
  split
  · exact onlyQueues_setQueue ..
  · exact (onlyQueues_setQueue ..).trans (onlyQueues_setQueue ..)

theorem items_opHandlePush (q hi : Nat) (e : Eng) : (hqueue (opHandlePush q hi e) q).items =
    if (hqueue e q).enable = true ∨ 64 ≤ (hqueue e q).items.length then (hqueue e q).items
    else insertItem { key := (hqueue e q).key.toNat, handle := hi * 2 ^ 32 + (hqueue e q).lo.toNat } (hqueue e q).items := by
  unfold opHandlePush
  dsimp only
  simp only [Bool.or_eq_true, decide_eq_true_eq]
  split
  · rw [hqueue_setQueue]
  · rw [hqueue_setQueue, hqueue_setQueue]

/-! ## A pop (R296, R314) -/

/-- The queue gives its items to reads: it is disabled or has no consumer. -/
def Popped (h : HQueue) : Prop := h.enable = false ∨ h.consumer = none

theorem opHandlePop_kept (he : (hqueue e q).enable = true) (hc : (hqueue e q).consumer ≠ none) : opHandlePop q e = (e, (hqueue e q).lo) := by
  rw [opHandlePop]
  exact if_pos (by rw [he, Bool.true_and]; exact Option.isSome_iff_ne_none.mpr hc)

theorem not_consumed (h : Popped (hqueue e q)) : ¬((hqueue e q).enable && (hqueue e q).consumer.isSome) = true := by
  rcases h with h | h <;> simp [h]

theorem opHandlePop_item {x : Item} {rest : List Item} (h : Popped (hqueue e q)) (hi : (hqueue e q).items = x :: rest) :
    OnlyQueues e (opHandlePop q e).1 ∧ (opHandlePop q e).2 = BitVec.ofNat 32 x.handle ∧ hqueue (opHandlePop q e).1 q =
      { hqueue e q with items := rest, credits := min 64 ((hqueue e q).credits + 1), last := x.handle, hi := BitVec.ofNat 32 (x.handle / 2 ^ 32),
                        key := BitVec.ofNat 32 x.key, lo := BitVec.ofNat 32 x.handle } := by
  rw [opHandlePop]
  dsimp only
  rw [if_neg (not_consumed h), hi]
  dsimp only
  rw [popQueue, hi]
  exact ⟨(onlyQueues_setQueue ..).trans (onlyQueues_setQueue ..), rfl, by rw [hqueue_setQueue, hqueue_setQueue]⟩

theorem opHandlePop_empty (h : Popped (hqueue e q)) (hi : (hqueue e q).items = []) :
    opHandlePop q e = (setQueue q (fun h => { h with underrun := true }) e, BitVec.ofNat 32 (hqueue e q).last) := by
  rw [opHandlePop]
  dsimp only
  rw [if_neg (not_consumed h), hi]

theorem onlyQueues_opHandlePop (q : Nat) (e : Eng) : OnlyQueues e (opHandlePop q e).1 := by
  by_cases h : Popped (hqueue e q)
  · cases hi : (hqueue e q).items with
    | nil =>
      rw [opHandlePop_empty h hi]
      exact onlyQueues_setQueue ..
    | cons x rest => exact (opHandlePop_item h hi).1
  · obtain ⟨he, hc⟩ := not_or.mp h
    rw [opHandlePop_kept (eq_true_of_ne_false he) hc]
    exact ⟨e.st.queues, rfl⟩

/-! ## The rows -/

/-- What HANDLE_POP leaves, and the word it reads. -/
def popped (s : State) : State :=
  keepRead (opHandlePop (sel s.eng .host 0xE020 0) s.eng).2.toNat { s with eng := (opHandlePop (sel s.eng .host 0xE020 0) s.eng).1 }

theorem exec_handlePop_up {s : State} (hio : ioUp s = true) (hc : calm s = true) : exec .handlePop s = .next (popped s) := by
  have hr : apertureRead 0xE030 s = popped s := rfl
  have hs : settle (popped s) = popped s := by
    obtain ⟨l, hl⟩ := onlyQueues_opHandlePop (sel s.eng .host 0xE020 0) s.eng
    unfold popped
    rw [hl]
    exact settle_still hc (calmEng_of_calm hc) rfl rfl rfl rfl rfl rfl
  rw [exec_handlePop, ioRow_up hio, hr, hs]

theorem exec_handlePush_up {v : Word} {s : State} (hio : ioUp s = true) (hc : calm s = true) :
    exec (.handlePush v) s = .next (onEng (opHandlePush (sel s.eng .host 0xE020 0) v.toNat) s) := by
  have hr : regWrite .host 0xE034 v.toNat s = onEng (opHandlePush (sel s.eng .host 0xE020 0) v.toNat) s := rfl
  have hs : settle (onEng (opHandlePush (sel s.eng .host 0xE020 0) v.toNat) s) = onEng (opHandlePush (sel s.eng .host 0xE020 0) v.toNat) s := by
    obtain ⟨l, hl⟩ := onlyQueues_opHandlePush (sel s.eng .host 0xE020 0) v.toNat s.eng
    rw [onEng, hl]
    exact settle_still hc (calmEng_of_calm hc) rfl rfl rfl rfl rfl rfl
  rw [exec_registerRow rfl, writeRow, ioRow_up hio, hr, hs]

end

/-- Settles O48: both rows change the selected queue only, the pop by the queue's first item. -/
theorem handlesArePushedAndPopped : Obligations.HandlesArePushedAndPopped := by
  intro v s hio hc
  dsimp only
  generalize hq : sel s.eng .host 0xE020 0 = q
  refine ⟨⟨_, exec_handlePush_up hio hc, ⟨rfl, rfl, rfl, rfl⟩, (onlyQueues_opHandlePush _ _ _).store, ?_⟩,
    ⟨_, exec_handlePop_up hio hc, ⟨rfl, rfl, rfl, rfl⟩, (onlyQueues_opHandlePop _ _).store,
      fun he hn => ?_, fun h => ⟨fun x rest hi => ?_, fun hi => ?_⟩⟩⟩
  · rw [hq]
    exact items_opHandlePush q v.toNat s.eng
  · change hqueue (opHandlePop _ _).1 q = _
    rw [hq, opHandlePop_kept he hn]
  · obtain ⟨_, hw, hl⟩ := opHandlePop_item h hi
    have hr : (popped s).eng.hl.readData = leBytes 4 x.handle := by
      change leBytes 4 (opHandlePop _ _).2.toNat = _
      rw [hq, hw, BitVec.toNat_ofNat]
      exact leBytes_mod 4 x.handle
    change (hqueue (opHandlePop _ _).1 q).items = rest ∧ _ ∧ (hqueue (opHandlePop _ _).1 q).hi = _ ∧
      (hqueue (opHandlePop _ _).1 q).key = _ ∧ (hqueue (opHandlePop _ _).1 q).last = _
    rw [hq, hl]
    exact ⟨rfl, hr, rfl, rfl, rfl⟩
  · change hqueue (opHandlePop _ _).1 q = _ ∧ leBytes 4 (opHandlePop _ _).2.toNat = _
    rw [hq, opHandlePop_empty h hi, BitVec.toNat_ofNat]
    exact ⟨hqueue_setQueue .., leBytes_mod 4 _⟩

end Sys2Proof.Machine

/-! SUPPORT. What a translation changes (R320, R323): the cached ranges, the walks and the faults, and nothing else but notices. -/

namespace Sys2Proof.Machine

/-- `u` differs from `e` at most in the state of translation and in what noting can change. -/
def Walked (e u : Eng) : Prop := ∃ mt, Noted { e with mt } u

section
variable {e u v : Eng}

theorem Noted.walked (h : Noted e u) : Walked e u := ⟨e.mt, h⟩

theorem Walked.trans (h : Walked e u) (k : Walked u v) : Walked e v := by
  obtain ⟨_, _, _, _, _, _, _, _, _, rfl⟩ := h
  obtain ⟨mt, x1, x2, x3, x4, x5, x6, x7, x8, rfl⟩ := k
  exact ⟨mt, x1, x2, x3, x4, x5, x6, x7, x8, rfl⟩

theorem Faulted.walked (h : Faulted e u) : Walked e u := by
  obtain ⟨faults, notices, starved, hn⟩ := h
  exact ⟨_, hn⟩

theorem Walked.of_mt (e : Eng) (mt : Meridian) : Walked e { e with mt } := ⟨mt, .rfl _⟩

theorem Walked.steps (h : Walked e u) : u.steps = e.steps := by
  obtain ⟨mt, hn⟩ := h
  exact hn.steps

end

theorem walked_startWalk (w : Walk) (e : Eng) : Walked e (startWalk w e) := by
  obtain ⟨walks, queued, h⟩ := (begun_startWalk (P := fun _ => True) (w := w) trivial e).only
  exact (Walked.of_mt e _).trans h.walked

/-- A range that answers an access serves it, or it faults there (R323). -/
theorem walked_served (w : Waiter) (table a acc : Nat) (r : Range) (e : Eng) :
    Walked e (if permits r.flags acc then (noteServed w a (addrKey a) r e, Lookup.hit r)
      else ((recordFault table 1 r.start (r.start + r.length) r.flags acc a w e).1,
        .faulted (recordFault table 1 r.start (r.start + r.length) r.flags acc a w e).2)).1 := by
  split
  · exact .of_mt e _
  · exact (faulted_recordFault ..).walked

theorem walked_lookup (w : Waiter) (table a acc : Nat) (e : Eng) : Walked e (lookup w table a acc e).1 := by
  have hn : Noted e (count Ctr.mtLookups 1 e) := noted_count ..
  unfold lookup
  dsimp only
  split
  · exact walked_served w table a acc _ e
  · generalize count Ctr.mtLookups 1 e = u at hn
    refine hn.walked.trans ?_
    split
    · exact (Walked.of_mt u _).trans ((noted_count ..).walked.trans (walked_served w table a acc _ _))
    · split
      · exact (faulted_joinFault ..).walked
      · split
        · exact .of_mt u _
        · split
          · exact (noted_count _ _ u).walked.trans (faulted_recordFault ..).walked
          · exact walked_startWalk ..

theorem walked_translateF (w : Waiter) (table acc f : Nat) (h : Held) (a n : Nat) (e : Eng) : Walked e (translateF w table acc f h a n e).1 := by
  induction f generalizing h a n e with
  | zero => exact (Noted.rfl e).walked
  | succ f ih =>
    unfold translateF
    split
    · exact (Noted.rfl e).walked
    · have hq : Walked e (match h.find table a acc with | some r => (e, Lookup.hit r) | none => lookup w table a acc e).1 := by
        split
        · exact (Noted.rfl e).walked
        · exact walked_lookup ..
      dsimp only
      split
      · split <;> exact hq.trans (ih _ _ _ _)
      · exact hq

theorem walked_translate (w : Waiter) (table acc a n : Nat) (e : Eng) : Walked e (translate w table acc a n e).1 := by
  have ht := walked_translateF w table acc (n / 4096 + 2) { last := (fieldOf e w table a).bind (heldRange e w) } a n e
  unfold translate
  dsimp only
  split
  · dsimp only
    split
    · exact ht.trans (.of_mt _ _)
    · exact ht
  · exact ht

theorem walked_translateHost (w : Waiter) (l : List Span) (e : Eng) : Walked e (translateHost w l e).1 := by
  induction l generalizing e with
  | nil => exact (Noted.rfl e).walked
  | cons s t ih =>
    have ht := walked_translate w 0 s.acc s.addr s.len e
    unfold translateHost
    dsimp only
    split
    · exact ht
    · exact ht.trans (ih _)

theorem walked_readHost (w : Waiter) (ss : List (Nat × Nat)) (e : Eng) : Walked e (readHost w ss e).1 := by
  have ht := walked_translateHost w (ss.map (fun s => ⟨s.1, s.2, 0⟩)) e
  unfold readHost
  dsimp only
  split
  · exact ht
  · exact ht.trans (noted_counts ..).walked

end Sys2Proof.Machine

/-! SUPPORT. What no answer, refusal or abort changes: the member's state and whether a host is attached; and the thermal Trip. -/

namespace Sys2Proof.Machine

/-- The member's state in its pair, and the attach state. -/
def seat (e : Eng) : PairState × AttachState := (e.rg.state, e.hl.attach)

theorem Noted.seat {e u : Eng} (h : Noted e u) : seat u = seat e := by rw [Machine.seat, h.rg, h.hl_attach, Machine.seat]

theorem Sent.seat {e u : Eng} (h : Sent e u) : seat u = seat e := by
  obtain ⟨fb, h⟩ := h
  exact h.seat

theorem Walked.seat {e u : Eng} (h : Walked e u) : seat u = seat e := by
  obtain ⟨mt, h⟩ := h
  exact h.seat

theorem seat_foldl {α : Type} {f : Eng → α → Eng} (h : ∀ e x, seat (f e x) = seat e) (l : List α) (e : Eng) :
    seat (l.foldl f e) = seat e := by
  induction l generalizing e with
  | nil => rfl
  | cons x t ih => exact (ih _).trans (h e x)

section
variable (e : Eng)

/-! ## Notices, host writes and packets -/

theorem seat_store (st : Store) : seat { e with store := st } = seat e := rfl

@[simp] theorem seat_count (slot n : Nat) : seat (count slot n e) = seat e := (noted_count slot n e).seat

@[simp] theorem seat_counts (l : List (Nat × Nat)) : seat (counts l e) = seat e := (noted_counts l e).seat

@[simp] theorem seat_raiseEvent (v : Event) : seat (raiseEvent v e) = seat e := (noted_raiseEvent v e).seat

@[simp] theorem seat_setRing (r : Nat) (f : Ring → Ring) : seat (setRing r f e) = seat e := rfl

@[simp] theorem seat_publish (r n : Nat) (irq : Bool) : seat (publish r n irq e) = seat e := (noted_publish r n irq e).seat

@[simp] theorem seat_sendPacket (peer step : Nat) (b : Body) (again : Bool) : seat (sendPacket peer step b again e) = seat e :=
  (sent_sendPacket peer step b again e).seat

@[simp] theorem seat_skyReply (h : PktHdr) (b : Body) : seat (skyReply h b e) = seat e := (sent_skyReply h b e).seat

@[simp] theorem seat_hostWritesF (ref : WriteRef) (n a : Nat) (bs : List Byte) : seat (hostWritesF ref n a bs e) = seat e := by
  induction n generalizing a bs e with
  | zero => rfl
  | succ n ih =>
    unfold hostWritesF
    split
    · rfl
    · exact (ih _ _ _).trans (noted_hostWrite _ _ _ e).seat

@[simp] theorem seat_writePieces (id : Nat) (l : List Piece) (bs : List Byte) : seat (writePieces id l bs e) = seat e := by
  induction l generalizing bs e with
  | nil => rfl
  | cons p t ih => exact (ih _ _).trans (seat_hostWritesF _ _ _ _ _)

@[simp] theorem seat_mbReply (ty tag st : Nat) (body : List Byte) : seat (mbReply ty tag st body e) = seat e := (noted_irqSignal _ _).seat

@[simp] theorem seat_sendRidge (b : Body) : seat (sendRidge b e) = seat e := by
  unfold sendRidge
  split
  · split <;> rfl
  · rfl

@[simp] theorem seat_redirectReq (peer step : Nat) : seat (redirectReq peer step e) = seat e := by
  have hc : seat (consume peer e) = seat e := by
    unfold consume
    split <;> rfl
  simp [redirectReq, hc]

/-! ## Commands -/

@[simp] theorem seat_setCmd (id : Nat) (f : RunCmd → RunCmd) : seat (setCmd id f e) = seat e := rfl

@[simp] theorem seat_finish (id : Nat) (r : Rec) : seat (finish id r e) = seat e := rfl

@[simp] theorem seat_refuseWith (id : Nat) (x : Refuse) : seat (refuseWith id x e) = seat e := seat_count _ _ _

@[simp] theorem seat_takeHead (r : Nat) (d : Desc) (advance : Bool) : seat (takeHead r d advance e).1 = seat e := by
  have ha : seat (addCmd r d (tookTurn r e)).1 = seat e := (seat_count _ _ _).trans rfl
  have hp (u : Eng) : seat (if attached u then publish r 0 false u else u) = seat u := by
    split
    · exact seat_publish ..
    · rfl
  exact (hp _).trans ha

@[simp] theorem seat_refuseHead (r : Nat) (d : Desc) (x : Refuse) : seat (refuseHead r d x e) = seat e :=
  (seat_refuseWith _ _ _).trans (seat_takeHead ..)

@[simp] theorem seat_dropJournal (p : JournalBody → Bool) : seat (dropJournal p e) = seat e := by
  refine (seat_foldl (fun u j => ?_) _ _).trans rfl
  unfold tellCustody
  split
  · exact seat_sendRidge _ _
  · rfl

@[simp] theorem seat_dropHead (r : Nat) : seat (dropHead r e) = seat e := by
  unfold dropHead
  split
  · rfl
  · split <;> simp

/-! ## Faults (R326, R331) -/

@[simp] theorem seat_dropDrains (id : Nat) : seat (dropDrains id e) = seat e := by
  refine (seat_foldl (fun u d => ?_) _ _).trans rfl
  unfold takeShadow
  split <;> rfl

@[simp] theorem seat_ixEnd (c : RunCmd) (r : Rec) : seat (ixEnd c r e) = seat e := (seat_dropDrains (finishSlot c r e) c.id).trans rfl

@[simp] theorem seat_abortCmd (id kind : Nat) : seat (abortCmd id kind e) = seat e := by
  unfold abortCmd
  split
  · rfl
  · dsimp only
    split
    · exact seat_ixEnd _ _ _
    · rfl

@[simp] theorem seat_abortWaiter (kind : Nat) (w : Waiter) : seat (abortWaiter kind w e) = seat e := by
  unfold abortWaiter
  split
  · exact seat_abortCmd e _ kind
  · rfl
  · split
    · split
      · exact seat_refuseHead e _ _ _
      · rfl
    · rfl
  · exact seat_skyReply e _ _
  · exact seat_skyReply e _ _
  · rfl

@[simp] theorem seat_abortWaiters (kind : Nat) (l : List Waiter) : seat (abortWaiters kind l e) = seat e := by
  induction l generalizing e with
  | nil => rfl
  | cons w t ih => exact (ih _).trans (seat_abortWaiter e kind w)

@[simp] theorem seat_abortAllFaults : seat (abortAllFaults e) = seat e := by
  refine seat_foldl (fun u id => ?_) _ _
  split
  · exact seat_abortWaiters _ _ _
  · rfl

/-! ## The output of look-ups -/

@[simp] theorem seat_tallied {α : Type} (x : N α) : seat (tallied x e).2 = seat e := seat_counts _ _

@[simp] theorem seat_setQslot (n : Nat) (f : QSlot → QSlot) : seat (setQslot n f e) = seat e := rfl

@[simp] theorem seat_rollSlot (n s : Nat) : seat (rollSlot n s e) = seat e := by
  unfold rollSlot
  dsimp only
  split
  · rfl
  · split <;> rfl

@[simp] theorem seat_encSlot (n s : Nat) (f : Elem) (g : Nat) (v : List FV) : seat (encSlot n s f g v e).2 = seat e := by
  unfold encSlot
  dsimp only
  split
  · simp
  · split
    · simp
    · split <;> simp

@[simp] theorem seat_encodeOut (t : TD) (fmt slot step : Nat) (v : List FV) : seat (encodeOut t fmt slot step v e).2 = seat e := by
  unfold encodeOut
  split
  · rfl
  · exact seat_tallied _ _
  · exact seat_encSlot ..

/-- The partial records of a bag. -/
theorem seat_partials (f : OutForm) (b : BagItem) (l : List PartItem) (a : List (List Byte) × Eng) :
    seat (l.foldl (fun (a : List (List Byte) × Eng) p =>
      match p.data with
      | none => a
      | some d =>
        let q := tallied (if d.poisoned then pure [] else unrotate f.t d.floats) a.2
        (a.1 ++ [partialRecord f.t b p d.poisoned d.saturated q.1], q.2)) a).2 = seat a.2 := by
  induction l generalizing a with
  | nil => rfl
  | cons p t ih =>
    refine (ih _).trans ?_
    dsimp only
    split
    · rfl
    · exact seat_tallied _ _

@[simp] theorem seat_outBag (f : OutForm) (acc : OutAcc) (b : BagItem) : seat (outBag f acc b e).2 = seat e := by
  unfold outBag
  dsimp only
  split
  · rfl
  · split
    · exact seat_partials f b b.parts _
    · split
      · rfl
      · split
        · rfl
        · split
          · exact (seat_encodeOut ..).trans (seat_tallied _ _)
          · exact (seat_encodeOut ..).trans (seat_tallied _ _)

@[simp] theorem seat_outBags (f : OutForm) (l : List BagItem) (acc : OutAcc) : seat (outBags f l acc e).2 = seat e := by
  induction l generalizing acc e with
  | nil => rfl
  | cons b t ih => exact (ih _ _).trans (seat_outBag e f acc b)

@[simp] theorem seat_writeLookup (c : RunCmd) (align : Nat) (bs : List BagItem) (t : TD) : seat (writeLookup c align bs t e) = seat e := by
  unfold writeLookup
  extract_lets d rows fmt f size all q
  have hs : seat q.1 = seat e := (walked_translateHost ..).seat
  clear_value q all
  split
  · exact hs
  · refine (seat_finish ..).trans ((seat_count ..).trans ((seat_foldl (fun u p => seat_writePieces u _ _ _) _ _).trans ?_))
    exact (seat_outBags _ _ _ _).trans hs

@[simp] theorem seat_tryLookup (id : Nat) : seat (tryLookup id e) = seat e := by
  unfold tryLookup
  split
  · rfl
  · split
    · split
      · rfl
      · split
        · rfl
        · split
          · exact seat_writeLookup ..
          · exact seat_refuseWith ..
    · rfl

/-! ## Bag jobs and gather reads (R55, R98) -/

@[simp] theorem seat_setJob (id : Nat) (f : Job → Job) : seat (setJob id f e) = seat e := rfl

@[simp] theorem seat_answer (t : TD) (j : Job) (pd : PartData) : seat (answer t j pd e) = seat e := by
  unfold answer
  split
  · exact (seat_tryLookup _ _).trans rfl
  · refine (seat_sendPacket ..).trans ?_
    split
    · rfl
    · split
      · rfl
      · exact seat_tallied _ _

@[simp] theorem seat_countGranule (t : TD) (row : Nat) (bypass : Bool) : seat (countGranule t row bypass e) = seat e := by
  have hc (hit : Bool) (u : Eng) : seat (if hit then count Ctr.alDirHit 1 u else stackBytes 32 (count Ctr.alDirMiss 1 u)) = seat u := by
    cases hit
    · exact (seat_count _ _ _).trans (seat_count u _ _)
    · exact seat_count u _ _
  exact (hc _ _).trans (seat_store e _)

@[simp] theorem seat_countRead (t : TD) (r : GRead) : seat (countRead t r e) = seat e := by
  unfold countRead
  split
  · exact seat_countGranule ..
  · exact (seat_count ..).trans (seat_count ..)
  · rfl

theorem seat_acceptIndex (die : Nat) : seat (acceptIndex die e) = seat e := rfl

theorem seat_joinRead (k n : Nat) (w : Nat × Nat) : seat (joinRead k n w e) = seat e := rfl

theorem seat_pushRead (r : GRead) : seat (pushRead r e) = seat e := rfl

@[simp] theorem seat_readHome (t : TD) (i step : Nat) (w : Nat × Nat) : seat (readHome t i step w e) = seat e := by
  unfold readHome
  dsimp only
  split
  · exact (seat_count _ _ _).trans ((seat_joinRead _ _ _ _).trans (seat_acceptIndex e _))
  · exact (seat_pushRead _ _).trans ((seat_countRead _ t _).trans (seat_acceptIndex e _))

@[simp] theorem seat_readReplica (t : TD) (r : Replica) (step : Nat) (w : Nat × Nat) : seat (readReplica t r step w e) = seat e := by
  unfold readReplica
  dsimp only
  split
  · exact (seat_count _ _ _).trans ((seat_joinRead _ _ _ _).trans ((seat_acceptIndex _ _).trans (seat_count e _ _)))
  · exact (seat_pushRead _ _).trans ((seat_acceptIndex _ _).trans (seat_count e _ _))

@[simp] theorem seat_startOrWait (t : TD) (j : Job) (k : Nat) (p : JobPos) : seat (startOrWait t j k p e) = seat e := by
  unfold startOrWait
  split
  · rfl
  · unfold startPos
    split
    · exact seat_readReplica ..
    · exact (seat_readHome _ _ _ _ _).trans (seat_count e _ _)

@[simp] theorem seat_startJob (t : TD) (j : Job) : seat (startJob t j e) = seat e := by
  refine seat_foldl (fun u p => ?_) _ _
  split
  · exact seat_startOrWait ..
  · rfl

theorem seat_dropJob (id : Nat) : seat (dropJob id e) = seat e := rfl

theorem seat_poisonJob (t : TD) (j : Job) (row : Option (Nat × Nat)) : seat (poisonJob t j row e) = seat e :=
  (seat_answer _ _ _ _).trans ((seat_count _ _ _).trans (seat_dropJob e j.id))

@[simp] theorem seat_finishJob (residue : Bool) (j : Job) : seat (finishJob residue j e) = seat e := by
  have hd := seat_dropJob e j.id
  unfold finishJob
  dsimp only
  split
  · exact hd
  · split
    · exact seat_poisonJob ..
    · split
      · split
        · exact (seat_poisonJob _ _ _ _).trans (seat_count e _ _)
        · exact (seat_startJob _ _ _).trans ((seat_setJob _ _ _).trans ((seat_count _ _ _).trans (seat_count e _ _)))
      · split
        · exact (seat_answer ..).trans ((seat_counts ..).trans hd)
        · refine (seat_answer ..).trans ((seat_count ..).trans ((seat_tallied _ _).trans ((seat_counts ..).trans hd)))

@[simp] theorem seat_deliver (residue : Bool) (st : PosState) (ws : List (Nat × Nat)) : seat (deliver residue st ws e) = seat e := by
  refine (seat_foldl (fun u id => ?_) _ _).trans (seat_foldl (fun u w => seat_setJob u _ _) _ _)
  unfold tryJob
  split
  · split
    · exact seat_finishJob ..
    · rfl
  · rfl

@[simp] theorem seat_retireRead (k : Nat) (r : GRead) : seat (retireRead k r e) = seat e := by
  have ha (u : Eng) : seat (drainAdvance u) = seat u := by
    unfold drainAdvance advanceOnce
    dsimp only
    split
    · split
      · split
        · exact (seat_count ..).trans rfl
        · rfl
      · split
        · exact (seat_count ..).trans rfl
        · rfl
    · rfl
  refine (ha _).trans ?_
  split
  · unfold untagLookup
    split <;> rfl
  · rfl

/-! ## Repairs from the partner that are over (R98) -/

@[simp] theorem seat_rowGone (r : RepairReq) : seat (rowGone r e) = seat e := by
  unfold rowGone
  split
  · rfl
  · rename_i t _
    have hv (u : Eng) : seat (voidEntry t r.row 0 0 (rebuildLater t r.row (regrained t.id r.row u))) = seat u := by
      refine (seat_count ..).trans ?_
      change seat (rebuildLater t r.row (regrained t.id r.row u)) = _
      unfold rebuildLater
      dsimp only
      split <;> rfl
    have hb (b : Bool) : seat (if b then voidEntry t r.row 0 0 (rebuildLater t r.row (regrained t.id r.row e)) else e) = seat e := by
      cases b
      · rfl
      · exact hv e
    dsimp only
    generalize (t.indirect && ((rowLoc e t r.row).isNone || regrains e t.id r.row)) = bad
    have hu := hb bad
    generalize (if bad then voidEntry t r.row 0 0 (rebuildLater t r.row (regrained t.id r.row e)) else e) = u at hu
    split
    · exact hu
    · split
      · exact (seat_count _ _ _).trans ((seat_count _ _ _).trans hu)
      · exact (seat_deliver _ _ _ _).trans ((seat_retireRead _ _ _).trans hu)

@[simp] theorem seat_replicaIn (r : RepairReq) (d : RepairData) : seat (replicaIn r d e) = seat e := by
  unfold replicaIn
  split
  · rfl
  · split <;> exact (seat_deliver ..).trans (seat_retireRead ..)

@[simp] theorem seat_abandonRepairs : seat (abandonRepairs e) = seat e := by
  refine (seat_foldl (fun u q => seat_rowGone u _) _ _).trans (seat_foldl (fun u g => ?_) _ _)
  dsimp only
  split
  · exact seat_rowGone ..
  · exact seat_replicaIn ..
  · rfl

@[simp] theorem seat_stopServing : seat (stopServing e) = seat e := (seat_foldl (fun u (x : PktHdr) => seat_redirectReq u x.src x.step) _ _).trans rfl

/-! ## DOWN, and the loss of the host (R384, R433) -/

theorem state_goDown (sd oos : Bool) : (goDown sd oos e).rg.state = .down := by
  suffices h : (seat (goDown sd oos e)).1 = .down from h
  unfold goDown
  dsimp only
  rw [seat_stopServing, seat_sendRidge]
  split
  · rw [seat_abandonRepairs]
    rfl
  · rfl

theorem seat_carryCmds : seat (carryCmds e) = seat e := by
  have hr (u : Eng) (n : Nat) : seat (releaseQueues n u) = seat u := rfl
  have hd (u : Eng) (id : Nat) : seat (dropCmd id u) = seat u := by
    obtain ⟨gone, h⟩ := dropCmd_eq id u
    rw [h]
    exact (seat_dropDrains _ _).trans (seat_foldl hr gone _)
  have hf := seat_foldl hd ((e.hl.cmds.filter (fun c => readOnly c.desc && !c.carried)).map (·.id)) e
  exact hf

theorem seat_refuseSky : seat (refuseSky e) = seat e := by
  refine (seat_foldl (fun u w => ?_) _ _).trans rfl
  split
  · exact (seat_skyReply _ _ _).trans (seat_count _ _ _)
  · rfl

theorem seat_drainReply : seat (drainReply e) = seat e := by
  unfold drainReply
  split
  · exact (seat_mbReply ..).trans rfl
  · rfl

theorem seat_dropHeads (l : List Nat) : seat (l.foldl (fun e r => dropHead r e) e) = seat e := seat_foldl (fun u r => seat_dropHead u r) l e

theorem seat_headsGone : seat (headsGone e) = seat e := seat_dropHeads e (List.range 64)

theorem seat_ringsOff : seat (ringsOff e) = seat e := rfl

theorem seat_hostLoss {cause : Nat} (h : e.hl.attach ≠ .detached) : seat (hostLoss cause e) = (e.rg.state, .detached) := by
  have hc : seat (carryCmds (refuseSky (ringsOff (headsGone e)))) = seat e :=
    (seat_carryCmds _).trans ((seat_refuseSky _).trans ((seat_ringsOff _).trans (seat_headsGone e)))
  rw [hostLoss_attached h]
  generalize carryCmds (refuseSky (ringsOff (headsGone e))) = u at hc
  refine (seat_drainReply _).trans ((seat_abortAllFaults _).trans ((seat_count _ _ _).trans ?_))
  exact Prod.ext (congrArg Prod.fst hc :) rfl

/-- Once the host is lost none is attached. -/
theorem seat_loseHost : seat (loseHost e) = (e.rg.state, .detached) := by
  unfold loseHost
  by_cases h : e.hl.attach = .detached
  · rw [if_neg (by simp [hostUp, h])]
    exact Prod.ext rfl h
  · rw [if_pos (by simp [hostUp, h])]
    exact seat_hostLoss e h

end

/-! ## What follows from a Trip -/

/-- Nothing of a tripped engine goes on by itself but a notice. -/
theorem settle_tripped {t : State} (hs : t.eng.stopped = true) (ht : t.pw.thermtrip = true) :
    (settle t).pw = t.pw ∧ (settle t).fw.resetRung = t.fw.resetRung ∧ Noted t.eng (settle t).eng := by
  have h1 : onEng settleEng t = t := by
    rw [onEng, settleEng, if_pos hs]
  have h2 : reachGoal t = t := by
    have hl : lowReady t = false := by simp [lowReady, ht]
    unfold reachGoal
    split
    · rw [hl]
      rfl
    · rfl
  have hr : (raiseDue t).pw = t.pw ∧ (raiseDue t).fw.resetRung = t.fw.resetRung ∧ Noted t.eng (raiseDue t).eng := by
    unfold raiseDue
    split
    · split
      · exact ⟨rfl, rfl, noted_raiseEvent _ _⟩
      · exact ⟨rfl, rfl, .rfl _⟩
    · exact ⟨rfl, rfl, .rfl _⟩
  unfold settle
  rw [h1, h2]
  generalize raiseDue t = u at hr ⊢
  obtain ⟨hpw, hrung, hn⟩ := hr
  have hus : u.eng.stopped = true := hn.stopped.trans hs
  have hut : u.pw.thermtrip = true := hpw ▸ ht
  have h3 : activateIfDue u = u := by
    unfold activateIfDue mayActivate
    rw [hus]
    simp
  have h4 : nwDrain 4 u = u := by
    have hv : nwServed u = false := by simp [nwServed, hut]
    unfold nwDrain
    split
    · rfl
    · rw [hv]
      rfl
  have h5 : serveMailbox u = u := by
    have hv : mailboxServed u = false := by simp [mailboxServed, ioUp, hut]
    unfold serveMailbox
    rw [hv, Bool.and_false]
    rfl
  have h6 : noteBuild u = u := by
    unfold noteBuild
    rw [hus]
    rfl
  rw [h3, h4, h5, h6]
  exact ⟨hpw, hrung, hn⟩

/-- Settles O53: the Trip goes DOWN and loses the host, which nothing on the way undoes, and stops the dies, after which only notices follow. -/
theorem tripsHoldTheEngine : Obligations.TripsHoldTheEngine := by
  intro k s hk h3 ht _
  have hrun : opCatastrophic k s = trip 3 k s := by
    unfold opCatastrophic
    exact if_neg (by simp [h3]; omega)
  have hseat : seat (loseHost (goDown false false (cutLinks s.eng))) = (.down, .detached) :=
    (seat_loseHost _).trans (by rw [state_goDown])
  have hpw : (trip 3 k s).pw.thermtrip = true := by
    unfold trip
    rw [ht]
    rfl
  have heng : (trip 3 k s).eng.stopped = true ∧ (trip 3 k s).eng.rg.aliveOut = false ∧ seat (trip 3 k s).eng = (.down, .detached) := by
    unfold trip
    rw [ht]
    dsimp only
    generalize loseHost (goDown false false (cutLinks s.eng)) = u at hseat
    exact ⟨rfl, rfl, hseat⟩
  obtain ⟨hstop, halive, hs⟩ := heng
  obtain ⟨hp, -, hn⟩ := settle_tripped hstop hpw
  have hs' := hn.seat.trans hs
  refine ⟨settle (opCatastrophic k s), exec_boardRow rfl s, ?_⟩
  rw [hrun]
  refine ⟨hp ▸ hpw, ?_, hn.stopped.trans hstop, hn.rg ▸ halive, congrArg Prod.fst hs', congrArg Prod.snd hs'⟩
  simp [ioUp, hp, hpw]

end Sys2Proof.Machine

/-! SUPPORT. The acceptance of a state-changing command: what its preparation changes, and its effect. -/

namespace Sys2Proof.Machine

/-! ## What a command reads before its acceptance (R361) -/

section
variable (w : Waiter) (step : Nat) (d : Desc) (e : Eng)

theorem walked_unserve : Walked e (unserve w e) := .of_mt e _

theorem walked_readThenCheck (ss : List (Nat × Nat)) (check : List Byte → Eng → Prep) : Walked e (readThenCheck w ss check e).1 := by
  have hr := walked_readHost w ss e
  unfold readThenCheck
  dsimp only
  split
  · exact hr
  · exact hr.trans (walked_unserve w _)

theorem walked_prepUpdateGrad : Walked e (prepUpdateGrad w step d e).1 := by
  have hrefl : Walked e e := (Noted.rfl e).walked
  unfold prepUpdateGrad
  dsimp only
  split
  · exact hrefl
  · exact hrefl
  · have hr := walked_readHost w [(num d 32 8, (listForm d).size)] e
    generalize readHost w [(num d 32 8, (listForm d).size)] e = q at hr
    split
    · exact hr
    · split
      · exact hr.trans (walked_unserve w _)
      · have hg (ss : List (Nat × Nat)) := hr.trans (walked_readHost w ss q.1)
        have hu (ss : List (Nat × Nat)) := (hg ss).trans (walked_unserve w _)
        split
        · exact hg _
        · split
          · split <;> exact hu _
          · exact hu _

/-- What a command that belongs to a step reads and checks changes the state of translation only. -/
theorem walked_prep {x : Change} (hx : changeOf d = some x) (hs : x.needsStep = true) : Walked e (x.prep w step d e).1 := by
  have hrefl : Walked e e := (Noted.rfl e).walked
  unfold changeOf at hx
  split at hx <;> cases hx
  · cases hs
  · cases hs
  · exact walked_prepUpdateGrad w step d e
  · change Walked e (prepRowWrite w step d e).1
    unfold prepRowWrite
    split
    · exact hrefl
    · exact walked_readThenCheck ..
  · change Walked e (prepHotSetLoad w step d e).1
    unfold prepHotSetLoad
    split
    · exact hrefl
    · split
      · exact hrefl
      · exact walked_readThenCheck ..
  · change Walked e (prepThatchRefresh w step d e).1
    unfold prepThatchRefresh
    split <;> exact hrefl
  · change Walked e (prepMigrateRows w step d e).1
    unfold prepMigrateRows
    split
    · exact hrefl
    · exact walked_readThenCheck ..
  · change Walked e (prepTableReplace w step d e).1
    unfold prepTableReplace
    split
    · exact hrefl
    · exact walked_readThenCheck ..
  · cases hs
  · cases hs
  · cases hs
  · cases hs

end

/-! ## Journaling (R361, R437) -/

theorem steps_sendRidge (b : Body) (e : Eng) : (sendRidge b e).steps = e.steps := by
  unfold sendRidge
  split
  · split <;> rfl
  · rfl

theorem steps_tellCustody (j : JournalBody) (e : Eng) : (tellCustody j e).steps = e.steps := by
  unfold tellCustody
  split
  · exact steps_sendRidge _ e
  · rfl

theorem steps_journalCmd (r step : Nat) (d : Desc) (ins : List Byte) (e : Eng) : (journalCmd r step d ins e).steps = e.steps := by
  unfold journalCmd
  dsimp only
  split
  · exact steps_tellCustody ..
  · exact (steps_tellCustody ..).trans ((noted_count ..).steps)

/-! ## Acceptance (R360) -/

theorem stepKnown_congr {a b : Eng} (h : b.steps = a.steps) : stepKnown b = stepKnown a := by rw [stepKnown, h, stepKnown]

theorem headStatus_of_good {e : Eng} {r : Nat} {d : Desc} (hs : seqFollows e r d = true) (hh : headerFail d = none) : headStatus e r d = 0 := by
  have hk : seqGap e r d = 1 := by
    rw [seqGap, beq_iff_eq.1 hs]
    bv_omega
  rw [headStatus_of_follows hk]
  rw [headerFail_eq] at hh
  split at hh
  · assumption
  · cases hh

section
variable {r : Nat} {d : Desc} {e : Eng}

/-- A state-changing command whose header is good acts by what its preparation found. -/
theorem opHostCommand_change (x : Change) (hst : headStatus e r d = 0) :
    opHostCommand (.change x) r d e = acceptGood true r (.change x) { desc := d } (postHead r d e) :=
  acceptLatched_good true _ ((headStatus_congr (ring_postHead r r d e).1 d).trans hst)

/-- Ready, it is accepted. -/
theorem acceptGood_ready {x : Change} {u : Eng} {ins : List Byte} (h : x.prep (.head r) (stepNow e) d e = (u, .ready ins)) :
    acceptGood true r (.change x) { desc := d } e = acceptChange r x d ins u := by
  unfold acceptGood
  dsimp only
  rw [if_neg (by decide), h]
  rfl

theorem acceptChange_acts {x : Change} {ins : List Byte}
    (hk : x.needsStep = true → stepKnown (journalCmd r (stepNow e) d ins (takeHead r d true e).1) = true)
    (hb : behindEarly (journalCmd r (stepNow e) d ins (takeHead r d true e).1) (takenCmd r d e) = false) :
    acceptChange r x d ins e = x.commit (takenCmd r d e) ins (journalCmd r (stepNow e) d ins (takeHead r d true e).1) := by
  have hstep : (takenCmd r d e).step = stepNow e := rfl
  have hid : (takeHead r d true e).2 = freshId e := rfl
  unfold acceptChange
  dsimp only
  rw [hid, findCmd_takeHead]
  dsimp only
  rw [hstep, hb, Bool.or_false]
  refine if_neg ?_
  cases hn : x.needsStep
  · simp
  · simp [hk hn]

end

/-- Settles O9: the command is ready, so it is taken; its preparation and its journaling open and close no step, so it acts. -/
theorem readyCommandsTakeEffect : Obligations.ReadyCommandsTakeEffect := by
  intro i r op d x ins e s hi hop ha hseq hh hx hknown hprep
  have hr : r < 64 := by
    simp only [canAccept, Bool.and_eq_true, decide_eq_true_eq] at ha
    exact ha.1.1.1.1.1.2
  refine ⟨takenCmd r d e, findCmd_takeHead .., rfl, rfl, rfl, rfl, ?_, fun hb => ?_⟩
  · rw [ring_takeHead (by omega), if_pos rfl]
    rfl
  · have hm : meaningOf d = .change x := by rw [meaningOf, hx]
    have hsteps (hn : x.needsStep = true) : e.steps = s.eng.steps := by
      have hw := walked_prep (.head r) (stepNow s.eng) d (postHead r d s.eng) hx hn
      rw [hprep] at hw
      exact hw.steps
    have hk (hn : x.needsStep = true) : stepKnown (journalCmd r (stepNow e) d ins (takeHead r d true e).1) = true := by
      refine (stepKnown_congr ((steps_journalCmd ..).trans ?_)).trans (hknown hn)
      exact (recorded_takeHead r d true e).sameWork.2.1.trans (hsteps hn)
    have hop' : opHostCommand (.change x) r d s.eng =
        x.commit (takenCmd r d e) ins (journalCmd r (stepNow e) d ins (takeHead r d true e).1) := by
      rw [opHostCommand_change x (headStatus_of_good hseq hh), acceptGood_ready hprep, acceptChange_acts hk hb]
    rw [hostCommandsRunTheirOpcode i r op d s hi hop ha, hm, onEng, hop']
    rfl

end Sys2Proof.Machine

/-! SUPPORT. What STEP_OPEN and STEP_CLOSE are refused for (R137). -/

namespace Sys2Proof.Machine

section
variable {r : Nat} {d : Desc} {s : State} {x : Change} {f : Refuse}

/-- A change that its preparation refuses at once is put on record with its refusal (R360). -/
theorem recorded_opHostCommand_refused {e : Eng} (hst : headStatus e r d = 0) (h30 : opcode d ≠ 0x30) (h31 : opcode d ≠ 0x31)
    (hp : x.prep (.head r) (stepNow (postHead r d e)) d (postHead r d e) = (postHead r d e, .refuse f)) :
    ∃ n, Recorded (e.hl.cmds ++ [doneCmd r d f.toRec n (postHead r d e)]) e (opHostCommand (.change x) r d e) := by
  have hslot : slotRefuse (postHead r d e) r d f = f := if_neg (by simp [h30, h31])
  have hop : opHostCommand (.change x) r d e = refuseWith (freshId (postHead r d e)) f (takeHead r d true (postHead r d e)).1 := by
    rw [opHostCommand_change x hst]
    unfold acceptGood
    dsimp only
    rw [if_neg (by decide), hp]
    dsimp only
    rw [refuseHead, hslot]
    rfl
  obtain ⟨n, h⟩ := recorded_refuseWith_takeHead r d true f (postHead r d e)
  have hn := noted_postHead r d e
  rw [hn.hl_cmds] at h
  rw [hop]
  exact ⟨n, hn.recorded.trans h⟩

/-- The row of a change refused at once: the refusal on record, and no other effect. -/
theorem changeRow_refused (hc : calm s = true) (ha : canAccept s r = true) (hst : headStatus s.eng r d = 0)
    (h30 : opcode d ≠ 0x30) (h31 : opcode d ≠ 0x31)
    (hp : x.prep (.head r) (stepNow (postHead r d s.eng)) d (postHead r d s.eng) = (postHead r d s.eng, .refuse f)) :
    ∃ t c, changeRow x r d s = .next t ∧ t.eng.hl.cmds = s.eng.hl.cmds ++ [c] ∧ c.ring = r ∧ c.desc = d ∧ c.done = some f.toRec ∧
      SameWork s.eng t.eng ∧ SameBoard s t := by
  obtain ⟨n, hrec⟩ := recorded_opHostCommand_refused hst h30 h31 hp
  exact ⟨onEng (opHostCommand (.change x) r d) s, _, hostRow_recorded hc ha hrec (idle_append (idle_doneCmd ..)), hrec.cmds, rfl, rfl, rfl,
    hrec.sameWork, sameBoard_onEng _ s⟩

end

/-! ## The checks of R137 -/

section
variable (w : Waiter) (step : Nat) {d : Desc} {e : Eng}

theorem prepStepOpen_open (h : e.steps.openStep ≠ none) : prepStepOpen w step d e = (e, .refuse { status := Status.stepInvalid }) := by
  unfold prepStepOpen
  exact if_pos (Option.isSome_iff_ne_none.mpr h)

theorem prepStepOpen_exhausted (h : e.steps.openStep = none) (hn : num d 16 6 = 2 ^ 48 - 1) :
    prepStepOpen w step d e = (e, .refuse { status := Status.stepExhausted }) := by
  unfold prepStepOpen
  dsimp only
  rw [h, if_neg (by decide), if_pos hn]

theorem prepStepOpen_astray (h : e.steps.openStep = none) (hn : num d 16 6 < 2 ^ 48 - 1) (hcore : coreRuns e 2 = true)
    (hbad : (∃ o, e.steps.lastOpened = some o ∧ num d 16 6 ≠ o + 1) ∨ (e.steps.lastOpened = none ∧ num d 16 6 = 0)) :
    prepStepOpen w step d e = (e, .refuse { status := Status.stepInvalid }) := by
  unfold prepStepOpen
  dsimp only
  rw [h, if_neg (by decide), if_neg (Nat.ne_of_lt hn), hcore, Bool.not_true, Bool.false_and, if_neg (by decide)]
  rcases hbad with ⟨o, ho, hne⟩ | ⟨ho, hz⟩
  · rw [ho]
    exact if_neg hne
  · rw [ho]
    exact if_neg (by omega)

theorem prepStepClose_bad (h : e.steps.openStep ≠ some (num d 16 6) ∨ lrScaleOk d = false) :
    prepStepClose w step d e = (e, .refuse { status := Status.stepInvalid }) := by
  unfold prepStepClose
  refine if_neg ?_
  rintro ⟨ho, hl⟩
  rcases h with h | h
  · exact h ho
  · rw [h] at hl
    cases hl

end

/-! ## lr_scale -/

theorem leNat_lt (bs : List Byte) : leNat bs < 256 ^ bs.length := by
  induction bs with
  | nil => exact Nat.one_pos
  | cons b t ih =>
    have hb := b.isLt
    rw [leNat, List.length_cons, Nat.pow_succ]
    omega

theorem num_four_lt (d : List Byte) (o : Nat) : num d o 4 < 2 ^ 32 := by
  have hl : (slice d o 4).length ≤ 4 := List.length_take_le ..
  exact Nat.lt_of_lt_of_le (leNat_lt _) (Nat.pow_le_pow_right (by decide) hl)

theorem shiftTo_pos {m : Nat} (h : 0 < m) (e b : Int) : 0 < shiftTo m e b := Nat.mul_pos h (Nat.two_pow_pos _)

/-- A negative number is less than zero. -/
theorem lt_zero_of_neg {m : Nat} (h : 0 < m) (e : Int) : (FV.fin true m e).lt .zero = true := by
  have hm := shiftTo_pos h e (min e 0)
  have hz : shiftTo 0 0 (min e 0) = 0 := Nat.zero_mul _
  rw [FV.zero, FV.lt]
  simp only [signedAt, hz, decide_eq_true_eq]
  simpa using hm

/-- A word with its exponent field full is an infinity or NaN. -/
theorem fromBits_full {v : Nat} (h : fld v 23 8 = 2 ^ 8 - 1) : (fromBits 8 23 v).finite = false := by
  unfold fromBits
  dsimp only
  rw [if_pos h]
  split <;> rfl

/-- A word with its sign bit set that is not −0 is negative, an infinity or NaN. -/
theorem fromBits_negative {v : Nat} (hs : bit v (8 + 23) = true) (hv : v % 2 ^ 31 ≠ 0) :
    (fromBits 8 23 v).finite = false ∨ (fromBits 8 23 v).lt .zero = true := by
  by_cases hfull : fld v 23 8 = 2 ^ 8 - 1
  · exact .inl (fromBits_full hfull)
  · refine .inr ?_
    unfold fromBits
    dsimp only
    rw [if_neg hfull, hs]
    split
    · next h0 => exact lt_zero_of_neg (by unfold fld at *; omega) _
    · exact lt_zero_of_neg (by omega) _

theorem lrScaleOk_of_bad {d : Desc} (h : 2 ^ 31 < num d 24 4 ∨ (0x7F800000 ≤ num d 24 4 ∧ num d 24 4 < 2 ^ 31)) : lrScaleOk d = false := by
  have hlt := num_four_lt d 24
  have hor : (floatAt d 24).finite = false ∨ (floatAt d 24).lt .zero = true := by
    rcases h with h | h
    · refine fromBits_negative ?_ (by omega)
      rw [bit, Nat.testBit_eq_decide_div_mod_eq, decide_eq_true_eq]
      omega
    · exact .inl (fromBits_full (by unfold fld; omega))
  unfold lrScaleOk
  dsimp only
  rcases hor with h | h
  · rw [h, Bool.false_and]
  · rw [h, Bool.not_true, Bool.and_false]

/-- Settles O49: the preparation refuses before it reads anything, so the refusal on record is all that is left. -/
theorem stepCommandsAreChecked : Obligations.StepCommandsAreChecked := by
  intro r d s ha hseq hc hh
  have hst := headStatus_of_good hseq hh
  dsimp only
  refine ⟨fun ho hopen => ?_, fun ho hopen hn => ?_, fun ho hopen hn hcore hbad => ?_, fun ho hbad => ?_⟩
  · exact changeRow_refused (x := stepOpenChange) hc ha hst (by omega) (by omega)
      (prepStepOpen_open (.head r) (stepNow (postHead r d s.eng)) hopen)
  · exact changeRow_refused (x := stepOpenChange) hc ha hst (by omega) (by omega)
      (prepStepOpen_exhausted (.head r) (stepNow (postHead r d s.eng)) hopen hn)
  · exact changeRow_refused (x := stepOpenChange) hc ha hst (by omega) (by omega)
      (prepStepOpen_astray (.head r) (stepNow (postHead r d s.eng)) hopen hn hcore hbad)
  · exact changeRow_refused (x := stepCloseChange) hc ha hst (by omega) (by omega)
      (prepStepClose_bad (.head r) (stepNow (postHead r d s.eng)) (hbad.imp_right lrScaleOk_of_bad))

end Sys2Proof.Machine

/-! SUPPORT. The selectors of the two paths stand apart from the data path (R534). -/

namespace Sys2Proof.Machine

/-- The data path with other selectors. -/
def resel (t : Tab Nat) (e : Eng) : Eng := { e with sels := t }

section
variable (t : Tab Nat) (e : Eng)

/-- A choice that the selectors do not make. -/
theorem resel_ite {α : Type} {g : α → α} {c : Prop} [Decidable c] {a b a' b' : α} (ha : a' = g a) (hb : b' = g b) :
    (if c then a' else b') = g (if c then a else b) := by
  rw [ha, hb, apply_ite g]

/-! ## Counting and events -/

theorem bump_resel (slot n : Nat) : bump slot n (resel t e) = (bump slot n e).map (resel t) id :=
  resel_ite (g := Prod.map (resel t) id) rfl rfl

theorem bumps_resel {u : Eng} (h : u = resel t e) (l : List (Nat × Nat)) : bumps l u = (bumps l e).map (resel t) id := by
  subst h
  induction l generalizing e with
  | nil => rfl
  | cons p l ih =>
    rw [bumps, bumps, bump_resel]
    dsimp only [Prod.map]
    rw [ih]
    rfl

theorem putEventEntry_resel (bs : List Byte) : putEventEntry bs (resel t e) = (putEventEntry bs e).map (resel t) id := by
  refine bumps_resel t _ ?_ _
  rfl

theorem putNwEvent_resel (bs : List Byte) : putNwEvent bs (resel t e) = (putNwEvent bs e).map (resel t) id :=
  resel_ite (g := Prod.map (resel t) id) rfl (bumps_resel t e rfl _)

theorem putHostEvent_resel (bs : List Byte) : putHostEvent bs (resel t e) = (putHostEvent bs e).map (resel t) id := by
  unfold putHostEvent
  exact resel_ite (g := Prod.map (resel t) id) (putEventEntry_resel t e bs)
    (resel_ite (g := Prod.map (resel t) id) rfl (bumps_resel t { e with hl := { e.hl with evLost := e.hl.evLost + 1 } } rfl _))

theorem putEvent_resel (v : Event) : putEvent v (resel t e) = (putEvent v e).map (resel t) id := by
  have hb : eventBytes (resel t e) v = eventBytes e v := rfl
  rw [putEvent, hb, putNwEvent_resel]
  dsimp only [Prod.map]
  rw [putHostEvent_resel]
  rfl

theorem putEvents_resel (l : List Event) : putEvents l (resel t e) = (putEvents l e).map (resel t) id := by
  induction l generalizing e with
  | nil => rfl
  | cons v l ih =>
    rw [putEvents, putEvents, putEvent_resel]
    dsimp only [Prod.map]
    rw [ih]
    rfl

theorem postEvents_resel (n : Nat) (l : List Event) : postEvents n l (resel t e) = resel t (postEvents n l e) := by
  induction n generalizing l e with
  | zero => rfl
  | succ n ih =>
    unfold postEvents
    rw [putEvents_resel]
    dsimp only [Prod.map, id_eq]
    split
    · rfl
    · exact ih _ _

theorem raiseEvent_resel (v : Event) : raiseEvent v (resel t e) = resel t (raiseEvent v e) := postEvents_resel t e 8 [v]

theorem count_resel {u : Eng} (h : u = resel t e) (slot n : Nat) : count slot n u = resel t (count slot n e) := by
  subst h
  rw [count, bump_resel]
  exact resel_ite (raiseEvent_resel t _ _) rfl

/-! ## Stored rows -/

theorem stackPut_resel (a : Nat) (bs : List Byte) : stackPut a bs (resel t e) = resel t (stackPut a bs e) := rfl

theorem writeUnits_resel (ch o : Nat) (l : List (List Byte)) : writeUnits ch o l (resel t e) = resel t (writeUnits ch o l e) := by
  induction l generalizing o e with
  | nil => rfl
  | cons u l ih =>
    rw [writeUnits, stackPut_resel, ih]
    rfl

theorem writeSlotAt_resel (ch o : Nat) (bs : List Byte) : writeSlotAt ch o bs (resel t e) = resel t (writeSlotAt ch o bs e) := by
  rw [writeSlotAt, writeUnits_resel]
  exact count_resel t _ rfl _ _

theorem voidEntry_resel (d : TD) (row version fmt : Nat) : voidEntry d row version fmt (resel t e) = resel t (voidEntry d row version fmt e) := by
  unfold voidEntry writeEntry
  dsimp only
  rw [stackPut_resel]
  exact count_resel t _ rfl _ _

theorem rebuildLater_resel (d : TD) (row : Nat) : rebuildLater d row (resel t e) = resel t (rebuildLater d row e) := resel_ite rfl rfl

theorem voidGranule_resel (c : Conf) (d : TD) (row : Nat) : voidGranule c d row (resel t e) = resel t (voidGranule c d row e) := by
  have hfold (l : List Nat) (u : Eng) :
      l.foldl (fun e i => voidEntry d i 0 0 e) (resel t u) = resel t (l.foldl (fun e i => voidEntry d i 0 0 e) u) := by
    induction l generalizing u with
    | nil => rfl
    | cons i l ih => rw [List.foldl_cons, voidEntry_resel, ih, List.foldl_cons]
  rw [voidGranule, rebuildLater_resel]
  exact hfold _ _

theorem voidRow_resel (c : Conf) (d : TD) (row : Nat) : voidRow c d row (resel t e) = resel t (voidRow c d row e) :=
  resel_ite rfl (resel_ite (voidGranule_resel t e c d row) (voidEntry_resel t e d row _ _))

theorem noteWritten_resel (step n row : Nat) : noteWritten step n row (resel t e) = resel t (noteWritten step n row e) := rfl

theorem noteLost_resel (c : Conf) (step : Nat) (d : TD) (row : Nat) : noteLost c step d row (resel t e) = resel t (noteLost c step d row e) := by
  rw [noteLost, count_resel t e rfl]
  exact raiseEvent_resel t _ _

theorem rowLoc_resel (d : TD) (row : Nat) : rowLoc (resel t e) d row = rowLoc e d row := rfl

theorem loseRow_resel (c : Conf) (step : Nat) (d : TD) (row : Nat) : loseRow c step d row (resel t e) = resel t (loseRow c step d row e) := by
  unfold loseRow
  dsimp only
  rw [rowLoc_resel]
  split
  · rw [writeSlotAt_resel, noteWritten_resel, noteLost_resel]
  · rw [voidRow_resel, noteWritten_resel, noteLost_resel]

theorem resetState_resel (c : Conf) (d : TD) (row : Nat) : resetState c d row (resel t e) = resel t (resetState c d row e) := by
  have hp : statePlace (resel t e) d.id row = statePlace e d.id row := rfl
  unfold resetState setState
  rw [hp]
  split
  · exact writeSlotAt_resel t e _ _ _
  · rfl

theorem loseState_resel (c : Conf) (step : Nat) (d : TD) (row : Nat) : loseState c step d row (resel t e) = resel t (loseState c step d row e) := by
  rw [loseState, resetState_resel, noteWritten_resel, count_resel t _ rfl]
  exact raiseEvent_resel t _ _

/-! ## Rows read -/

theorem readUnits_resel (ch o n : Nat) : readUnits (resel t e) ch o n = readUnits e ch o n := by
  induction n generalizing o with
  | zero => rfl
  | succ n ih =>
    rw [readUnits, readUnits, ih]
    rfl

theorem slotAt_resel (l : Loc) : slotAt (resel t e) l = slotAt e l := by
  unfold slotAt
  rw [readUnits_resel]

theorem readRow_resel (d : TD) (row : Nat) : readRow (resel t e) d row = readRow e d row := by
  unfold readRow
  simp only [rowLoc_resel, slotAt_resel]

theorem rowIsLost_resel (d : TD) (row : Nat) : rowIsLost (resel t e) d row = rowIsLost e d row := by
  unfold rowIsLost
  simp only [rowLoc_resel, slotAt_resel]

theorem stateOf_resel (d : TD) (p : Profile) (row : Nat) : stateOf (resel t e) d p row = stateOf e d p row := by
  have hp : statePlace (resel t e) d.id row = statePlace e d.id row := rfl
  unfold stateOf
  simp only [hp, readUnits_resel]

/-! ## Copied rows (R452) -/

theorem countGranule_resel (d : TD) (row : Nat) (bypass : Bool) : countGranule d row bypass (resel t e) = resel t (countGranule d row bypass e) := by
  refine resel_ite ?_ ?_
  · refine count_resel t _ ?_ _ _
    rfl
  · refine count_resel t _ (count_resel t _ ?_ _ _) _ _
    rfl

theorem seekRow_resel (d : TD) (row : Nat) : seekRow d row (resel t e) = (seekRow d row e).map id (resel t) := by
  refine resel_ite (g := Prod.map id (resel t)) rfl ?_
  dsimp only
  rw [countGranule_resel, rowLoc_resel, count_resel t _ rfl]
  rfl

theorem fetchRow_resel (d : TD) (row : Nat) : fetchRow d row (resel t e) = (fetchRow d row e).map id (resel t) := by
  have hb (n : Nat) (u : Eng) : stackBytes n (resel t u) = resel t (stackBytes n u) := count_resel t u rfl _ _
  rw [fetchRow, seekRow_resel, readRow_resel]
  dsimp only [Prod.map, id_eq]
  rw [hb, count_resel t _ rfl]
  rfl

theorem copyRow_resel (k : Nat × Nat) : copyRow k (resel t e) = (copyRow k e).map id (resel t) := by
  have hc : copyConf (resel t e) = copyConf e := rfl
  have hv (d : TD) (u : Eng) : rowVoid (resel t u) d k.2 = rowVoid u d k.2 := rfl
  have hs (u : Eng) : stepNow (resel t u) = stepNow u := rfl
  have h1 (b : Bool) (n : Nat) (d : TD) (u : Eng) : (if b then resel t u else loseRow (copyConf e) n d k.2 (resel t u)) =
      resel t (if b then u else loseRow (copyConf e) n d k.2 u) := resel_ite rfl (loseRow_resel t u _ _ _ _)
  have h2 (b : Bool) (n : Nat) (d : TD) (u : Eng) : (if b then resel t u else loseState (copyConf e) n d k.2 (resel t u)) =
      resel t (if b then u else loseState (copyConf e) n d k.2 u) := resel_ite rfl (loseState_resel t u _ _ _ _)
  unfold copyRow
  dsimp only
  rw [hc]
  split
  · rfl
  · rw [fetchRow_resel]
    dsimp only [Prod.map, id_eq]
    simp only [rowIsLost_resel, hv, hs, h1, h2, stateOf_resel, rowLoc_resel, slotAt_resel]

theorem copyRows_resel (ks : List (Nat × Nat)) : copyRows ks (resel t e) = (copyRows ks e).map id (resel t) := by
  have hfold (a : List CopyRow) (u : Eng) :
      ks.foldl (fun (a : List CopyRow × Eng) k => (a.1 ++ (copyRow k a.2).1.toList, (copyRow k a.2).2)) (a, resel t u) =
      (ks.foldl (fun (a : List CopyRow × Eng) k => (a.1 ++ (copyRow k a.2).1.toList, (copyRow k a.2).2)) (a, u)).map id (resel t) := by
    induction ks generalizing a u with
    | nil => rfl
    | cons k ks ih =>
      rw [List.foldl_cons, List.foldl_cons]
      dsimp only
      rw [copyRow_resel]
      exact ih _ _
  exact hfold [] e

theorem resilverLeft_resel : resilverLeft (resel t e) = resilverLeft e := by
  unfold resilverLeft sizeOfRows
  rw [copyRows_resel]
  rfl

end

end Sys2Proof.Machine

/-! SUPPORT. What the two paths read by their selectors (R534). -/

namespace Sys2Proof.Machine

/-- The selectors of a path are the same in two data paths. -/
def SameSels (p : Path) (e e' : Eng) : Prop := ∀ o d, sel e' p o d = sel e p o d

theorem sel_setSel_ne {p p' : Path} (h : p ≠ p') (off v : Nat) (e : Eng) : SameSels p' e (setSel p off v e) := by
  intro o d
  unfold sel setSel
  dsimp only
  rw [tabGet_set, if_neg]
  cases p with
  | host => cases p' with
    | host => exact absurd rfl h
    | nightwatch => dsimp only; omega
  | nightwatch => cases p' with
    | host => dsimp only; omega
    | nightwatch => exact absurd rfl h

section
variable {p : Path} {t : Tab Nat} {e : Eng} (r : Nat)

theorem gaugeValue_resel (slot : Nat) : gaugeValue slot (resel t e) = gaugeValue slot e := by
  unfold gaugeValue
  rw [resilverLeft_resel]
  rfl

theorem slotValue_resel (slot : Nat) : slotValue slot (resel t e) = slotValue slot e := by rw [slotValue, slotValue, gaugeValue_resel]; rfl

theorem counterRead_resel (off : Nat) : (counterRead p off (resel t e)).1 = (counterRead p off e).1 := by
  unfold counterRead counterLo
  dsimp only
  rw [slotValue_resel]
  split
  · rfl
  · split <;> rfl

theorem ctRead_resel : (ctRead p r (resel t e)).1 = (ctRead p r e).1 := by
  unfold ctRead
  split <;> rfl

theorem handlePop_resel (q : Nat) : (opHandlePop q (resel t e)).2 = (opHandlePop q e).2 := by
  have hq : hqueue (resel t e) q = hqueue e q := rfl
  unfold opHandlePop
  dsimp only
  rw [hq]
  split
  · rfl
  · split <;> rfl

variable (h : SameSels p e (resel t e))
include h

theorem hlRead_resel : hlRead p r (resel t e) = hlRead p r e := by unfold hlRead; simp only [h _]; rfl

theorem mtRead_resel : mtRead p r (resel t e) = mtRead p r e := by unfold mtRead; simp only [h _]; rfl

theorem geRead_resel : geRead p r (resel t e) = geRead p r e := by unfold geRead; simp only [h _]; rfl

theorem upRead_resel : upRead p r (resel t e) = upRead p r e := by unfold upRead; simp only [h _]; rfl

theorem quRead_resel : quRead p r (resel t e) = quRead p r e := by unfold quRead; simp only [h _]; rfl

theorem stRead_resel : stRead p r (resel t e) = stRead p r e := by unfold stRead; simp only [h _]; rfl

theorem fbRead_resel : fbRead p r (resel t e) = fbRead p r e := by unfold fbRead; simp only [h _]; rfl

end

section
variable {p : Path} {t : Tab Nat} {s : State} (r : Nat) (h : SameSels p s.eng (resel t s.eng))
include h

theorem fwRead_resel : fwRead p r (onEng (resel t) s) = fwRead p r s := by unfold fwRead; simp only [onEng, h _]; rfl

theorem ixRead_resel : ixRead p r (onEng (resel t) s) = ixRead p r s := by unfold ixRead; simp only [onEng, h _]; rfl

theorem pwRead_resel : pwRead p r (onEng (resel t) s) = pwRead p r s := by unfold pwRead; simp only [onEng, h _]; rfl

/-- The value a control register reads does not depend on the other path's selectors. -/
theorem controlRead_resel (blk : Nat) : (controlRead p blk r (onEng (resel t) s)).1 = (controlRead p blk r s).1 := by
  unfold controlRead
  split
  case h_2 => exact hlRead_resel r h
  case h_3 => exact fwRead_resel r h
  case h_4 => exact ctRead_resel r
  case h_6 => exact mtRead_resel r h
  case h_9 => exact geRead_resel r h
  case h_11 => exact upRead_resel r h
  case h_12 => exact quRead_resel r h
  case h_13 => exact ixRead_resel r h
  case h_15 =>
    simp only [onEng, h _]
    split
    · exact congrArg BitVec.toNat (handlePop_resel _)
    · exact stRead_resel r h
  case h_16 => exact fbRead_resel r h
  case h_19 => exact pwRead_resel r h
  all_goals rfl

theorem regRead_resel (off : Nat) : (regRead p off (onEng (resel t) s)).1 = (regRead p off s).1 := by
  unfold regRead
  split
  · exact counterRead_resel off
  · exact controlRead_resel _ h _

end

/-- A write of a selector's register sets that selector on the path, or is ignored. -/
theorem regWrite_selector {off : Nat} (h : off ∈ [0x1018, 0x103C, 0x1044, 0x201C, 0x5000, 0x5050, 0x800C, 0xA008, 0xB000, 0xC000, 0xE004, 0xE020,
    0xF008, 0x12010]) (p : Path) (v : Nat) (s : State) : regWrite p off v s = s ∨ ∃ w, regWrite p off v s = onEng (setSel p off w) s := by
  have cond {c : Prop} [Decidable c] {w : Nat} {t : State} (ht : t = onEng (fun e => if c then setSel p off w e else e) s) :
      t = s ∨ ∃ w, t = onEng (setSel p off w) s := by
    subst ht
    by_cases hc : c
    · simp only [hc, if_true]
      exact .inr ⟨w, rfl⟩
    · simp only [hc, if_false]
      exact .inl rfl
  simp only [List.mem_cons, List.not_mem_nil, or_false] at h
  rcases h with rfl | rfl | rfl | rfl | rfl | rfl | rfl | rfl | rfl | rfl | rfl | rfl | rfl | rfl
  case inl => exact cond (c := fld v 0 8 ≤ 128) (w := fld v 0 8) rfl
  case inr.inr.inr.inl =>
    have hw : regWrite p 0x201C v s = if 0x01C = 0x01C ∧ fld v 0 3 ≤ 5 then onEng (setSel p 0x201C (fld v 0 3)) s else s := rfl
    rw [hw]
    split
    · exact .inr ⟨_, rfl⟩
    · exact .inl rfl
  case inr.inr.inr.inr.inl => exact cond (c := fld v 0 9 ≤ 257) (w := fld v 0 9) rfl
  all_goals exact .inr ⟨_, rfl⟩

/-- Settles O27: the write changes one selector of its path, and the other path's reads use their own. -/
theorem selectorsAreHeldTwice : Obligations.SelectorsAreHeldTwice := by
  intro p p' off v x s hp hoff
  rcases regWrite_selector hoff p v s with h | ⟨w, h⟩
  · rw [h]
  · rw [h]
    exact regRead_resel (sel_setSel_ne hp off w s.eng) x

end Sys2Proof.Machine
